-- ==== Sys2Proof/Word.lean ====
section
/-! DEFINITION. The plainest words of the model: the byte, a bit range of a number, and the little-endian
reading of bytes (R1). -/

namespace Sys2Proof

/-- One byte. -/
abbrev Byte := BitVec 8

/-- Bits `lsb` to `lsb + w - 1` of `v`, as a number. -/
def bits (v lsb w : Nat) : Nat := v / 2 ^ lsb % 2 ^ w

/-- Bit `n` of `v`. -/
def bitOf (v n : Nat) : Bool := v / 2 ^ n % 2 == 1

/-- `true` is 1. -/
def b2n (b : Bool) : Nat := if b then 1 else 0

/-- `v` with bits `lsb` to `lsb + w - 1` replaced by `x`. -/
def putBits (v lsb w x : Nat) : Nat :=
  v % 2 ^ lsb + (x % 2 ^ w) * 2 ^ lsb + v / 2 ^ (lsb + w) * 2 ^ (lsb + w)

/-- The number that bytes spell, the first byte least significant (R1). -/
def leNat : List Byte → Nat
  | [] => 0
  | b :: bs => b.toNat + 256 * leNat bs

/-- The `n` bytes of `v`, least significant first (R1). -/
def leBytes : Nat → Nat → List Byte
  | 0, _ => []
  | n + 1, v => BitVec.ofNat 8 v :: leBytes n (v / 256)

/-- The number that bytes spell, the first byte most significant. -/
def beNat (bs : List Byte) : Nat := bs.foldl (fun a b => 256 * a + b.toNat) 0

/-- Bytes `off` to `off + n - 1` of a byte list, zero past its end. -/
def slice (bs : List Byte) (off n : Nat) : List Byte :=
  (List.range n).map (fun i => bs.getD (off + i) 0)

/-- The little-endian number of `n` bytes at `off`. -/
def leAt (bs : List Byte) (off n : Nat) : Nat := leNat (slice bs off n)

/-- The signed value of the low `w` bits of `v` (two's complement). -/
def sgn (w v : Nat) : Int :=
  let x := v % 2 ^ w
  if x < 2 ^ (w - 1) then (x : Int) else (x : Int) - (2 : Int) ^ w

/-- The low `w` bits of an integer in two's complement. -/
def wrapInt (w : Nat) (v : Int) : Nat := (v % (2 : Int) ^ w).toNat

/-- The number of bits set among the low `w` bits of `v`. -/
def popcount : Nat → Nat → Nat
  | 0, _ => 0
  | w + 1, v => v % 2 + popcount w (v / 2)

/-- The lowest set bit below `w`, if any. -/
def lowestBit (w v : Nat) : Option Nat := (List.range w).find? (fun i => bitOf v i)

end Sys2Proof
end

