-- ==== Sys2Proof/Syntax.lean ====
section
/-! DEFINITION. The commands of the node: one constructor per row of the operation table. Operands are what comes from
outside the node (bytes on a port, values written, sensor readings, outcomes of analog circuits, host data); what the
node already holds is in the state. -/

namespace Sys2Proof

/-- What reaches a register in the cycle of a host write: the bytes written and, by bit number, the W1C bits of the register that
hardware sets in the same cycle (R11). -/
structure WriteData where
  bytes : List Byte
  sets : List Nat
  deriving DecidableEq, Repr

/-- What a check of codewords on a line found: an uncorrectable one, symbols corrected and received, and, without FEC, a flit CRC
error (R68, R78). -/
structure LineCheck where
  uncorrectable : Bool
  corrected : Nat
  received : Nat
  crcError : Bool
  deriving DecidableEq, Repr

/-- What a decode finds (R211): nothing; one bit that an on-die code, a link code or a SEC-DED store corrects; corrected byte
symbols of the controller code, each by its lane; an error that the code only detects. -/
inductive Ecc where
  | clean | bit | symbols (lanes : List Nat) | uncorrectable
  deriving DecidableEq, Repr

/-- A command. Each constructor names its table row and the rule that gives its effect. -/
inductive Instr where
  /-- REGISTER_WRITE (R2). A write to a register field that has no row of its own takes effect under its access code, or is
  dropped under the width rules. -/
  | registerWrite (off : Nat) (data : WriteData)
  /-- RC_READ (R2). A read of an RC field returns its value and then clears it, and a same-cycle hardware update is applied
  after the clear. -/
  | rcRead (off : Nat) (len : Nat) (same : List Nat)
  /-- LATCHED_LOW_WORD_READ (R5). A 32-bit read of the low word of a 64-bit RO or RC register latches the high word for the
  next read. -/
  | latchedLowWordRead (off : Nat)
  /-- TICK_EDGE (R15). The local timer reaches the pending edge, and the node increments TICK_COUNT and closes the tick. -/
  | tickEdge (tel : List Byte)
  /-- BEACON_RECEIVE (R19). A tick beacon accepted on a valid port is forwarded within 24 ns and drives lock and phase
  correction. -/
  | beaconReceive (port : Fin 16) (msg : List Byte) (at_ : Nat) (fwd : Nat) (replayed : Bool)
  /-- BEACON_MISS (R24). A beacon expected at the edge fails to arrive, and a LOCKED node enters HOLDOVER. -/
  | beaconMiss
  /-- LOCK_LOST (R25). After 16 missed beacons, 4 beacons out of phase, or an edge slip, the node goes UNLOCKED and raises
  LOCK_LOST. -/
  | lockLost
  /-- TAKEOVER (R17). A rank-k node that has missed 2 + k beacons becomes timekeeper with an incremented epoch. -/
  | takeover
  /-- HOLD_REQUEST_SEND (R38). At its send deadline in a round, the sequencer estimates completions and sends a hold request
  when needed. -/
  | holdRequestSend (estimates : List (Nat × Nat)) (hot : List Nat)
  /-- HOLD_REQUEST (R41). A hold request arriving from downstream is forwarded upstream, unless an equal or larger total was
  already forwarded. -/
  | holdRequest (port : Fin 16) (msg : List Byte) (at_ : Nat)
  /-- LATE_NOTICE (R157). A late notice arrives and is forwarded, and at the timekeeper it goes to the commit logic. -/
  | lateNotice (port : Fin 16) (msg : List Byte) (at_ : Nat)
  /-- HOLD_ROUND_DEADLINE (R42). At a round deadline, the timekeeper sets the new total and launches a hold grant when it
  has grown. -/
  | holdRoundDeadline
  /-- HOLD_GRANT (R43). A hold grant for the current tick moves the pending edge to t+(1 + 0.125 × EXT_TOTAL). -/
  | holdGrant (port : Fin 16) (msg : List Byte) (at_ : Nat) (fwd : Nat)
  /-- PLAN_BANK_WRITE (R29). A write into a plan bank window is dropped on the active bank, and the last word into the
  standby bank triggers the plan check. -/
  | planBankWrite (bank : Fin 2) (off : Nat) (data : List Byte)
  /-- ARM (R33). An arming write to TICK_SWITCH_CTL arms the switch, or sets REFUSED. -/
  | arm (force : Bool)
  /-- DISARM (R36). A DISARM write disarms the switch until the node is committed. -/
  | disarm
  /-- COLLECTIVE_SLOT_START (R133). A collective slot reaches START, and the node checks its descriptor and begins the
  phase. -/
  | collectiveSlotStart (slot : Fin 1024)
  /-- VC0_PACKET (R140). A VC 0 packet is checked, and Caldera accepts it into its accumulator entry or drops it. -/
  | vc0Packet (port : Fin 16) (pkt : List Byte) (at_ : Nat)
  /-- VERDICT_ACCEPT (R160). A node accepts a matching verdict beacon, completes its confirm or gather-confirm slot and
  updates CAL_STEP or CAL_TRY. -/
  | verdictAccept (port : Fin 16) (msg : List Byte) (at_ : Nat) (fwd : Nat)
  /-- CAL_RESOLVE (R165). A write of CAL_RESOLVE.GO applies the verdict to a held step. -/
  | calResolve (value : BitVec 64)
  /-- CAL_RESUME (R164). A write of CAL_CTL.RESUME clears OUT after a re-plan. -/
  | calResume
  /-- SIGNAL_DETECT (R66). A port in DETECT sees signal on a receive lane and enters EXCHANGE. -/
  | signalDetect (port : Fin 16)
  /-- CAPABILITY_PAGE (R64). A received capability page is checked and updates the lane map, polarity, failed lanes and
  proposed rank. -/
  | capabilityPage (port : Fin 16) (lane : Fin 8) (inverted : Bool) (body : BitVec 64) (crc : BitVec 16) (at_ : Nat)
  /-- EXCHANGE_TIMEOUT (R66). The 5 ms EXCHANGE bound expires, and the port goes DOWN with cause NOCOMMON or TIMEOUT. -/
  | exchangeTimeout (port : Fin 16)
  /-- TRAINING_DONE (R66). Equalization training converges or fails at the proposed rate, leading to ALIGN or a failed
  attempt. -/
  | trainingDone (port : Fin 16) (ok : Bool) (lanes : BitVec 8)
  /-- TRAIN_TIMEOUT (R69). The TRAIN bound expires, and the attempt fails with lanes or rates marked. -/
  | trainTimeout (port : Fin 16) (lanes : BitVec 8)
  /-- ALIGN_DONE (R66). Codeword and alignment lock completes, and the port enters MEASURE. -/
  | alignDone (port : Fin 16) (mapOk : Bool) (lanes : BitVec 8)
  /-- DELAY_PROBE (R67). A received delay probe is answered with a delay reply carrying the turnaround. -/
  | delayProbe (port : Fin 16) (tx : BitVec 64) (turn : BitVec 64) (replayed : Bool)
  /-- DELAY_REPLY (R67). A delay reply is taken into the RTT mean, and once all probes complete the link delay is set or the
  attempt fails with LONG. -/
  | delayReply (port : Fin 16) (echo : BitVec 64) (turn : BitVec 64) (ret : Option (BitVec 64))
  /-- VERIFY_END (R68). The 20 ms VERIFY window ends, and the port comes UP or the attempt fails. -/
  | verifyEnd (port : Fin 16) (uncorrectable : Bool) (corrected : Nat) (received : Nat) (crcError : Bool) (lanes : BitVec 8)
  /-- DOWN_BACKOFF (R66). The DOWN backoff expires, and the port returns to DETECT. -/
  | downBackoff (port : Fin 16)
  /-- FLIT_RECEIVE (R74). A received flit is checked and then accepted, treated as a gap, or dropped as a duplicate, and its
  acknowledgements and credits are taken. -/
  | flitReceive (port : Fin 16) (flit : List Byte) (codewords : List (Nat × Option Nat)) (at_ : Nat)
  /-- NAK_REPEAT (R74). 500 ns pass without the expected flit, and the receiver repeats the NAK. -/
  | nakRepeat (port : Fin 16) (ctrl : Bool)
  /-- ACK_IDLE_SEND (R74). An accepted flit nears its 100 ns or 32-flit acknowledgement bound, and the node sends an IDLE
  flit. -/
  | ackIdleSend (port : Fin 16)
  /-- ACK_TIMEOUT (R75). A flit goes 500 ns unacknowledged, and the sender replays. -/
  | ackTimeout (port : Fin 16) (ctrl : Bool) (at_ : Nat)
  /-- EPISODE_WINDOW_CLOSE (R76). The 1,500 ns episode window closes, and the episode succeeds or exhausts the budget. -/
  | episodeWindowClose (port : Fin 16)
  /-- LOSS_OF_SIGNAL (R79). Loss of signal or lock lasts more than 1 µs, and the port claims and retrains, or goes DOWN. -/
  | lossOfSignal (port : Fin 16) (canRetrain : Bool)
  /-- RETRAIN_DONE (R78). Retraining succeeds, the claim becomes RECOVERED, and both replay buffers are resent. -/
  | retrainDone (port : Fin 16) (line : LineCheck)
  /-- RETRAIN_TIMEOUT (R78). Retraining exceeds 50 µs, and the port goes DOWN with RETRAIN_FAIL and its claim becomes DOWN.
  -/
  | retrainTimeout (port : Fin 16)
  /-- DEGRADED_WINDOW (R576). A 1 ms window ends with a corrected-symbol ratio above 2^−12, and the node sets EVT.DEGRADED.
  -/
  | degradedWindow (port : Fin 16) (corrected : Nat) (received : Nat)
  /-- RETRAIN (R79). A write of ELV_PORT CTL.RETRAIN takes an UP port into RETRAIN with a DRIVER claim. -/
  | retrain (port : Fin 16)
  /-- UNFENCE (R80). A write of CTL.UNFENCE clears FENCED. -/
  | unfence (port : Fin 16)
  /-- RENEGOTIATE (R84). A write of CTL.RENEGOTIATE takes the port DOWN with DISABLED and restarts DETECT without backoff.
  -/
  | renegotiate (port : Fin 16)
  /-- PORT_ENABLE (R66). A write of CFG.ENABLE lets the port leave DISABLED, or takes it DOWN with cause DISABLED. -/
  | portEnable (port : Fin 16) (on : Bool)
  /-- LP_REQUEST (R81). A received LP request is answered with an LP acknowledge once no episode is open. -/
  | lpRequest (port : Fin 16)
  /-- LP_ACKNOWLEDGE (R81). An LP acknowledge makes both partners idle every lane but logical lane 0 within 2 µs. -/
  | lpAcknowledge (port : Fin 16)
  /-- LP_EXIT (R81). An LP exit makes both partners retrain the idled lanes before DATA. -/
  | lpExit (port : Fin 16)
  /-- QUIT (R83). A received Quit takes the port DOWN with cause QUIT and no claim. -/
  | quit (port : Fin 16) (cause : Byte)
  /-- PACKET_FORWARD (R104). A VC 1 to 3 packet is delivered locally, sent by route, alternate or neighbour route, or
  answered NO_ROUTE. -/
  | packetForward (port : Option (Fin 16)) (pkt : List Byte)
  /-- READ (R111). A remote READ is served at the memory-side cache and answered with READ_DATA. -/
  | read (port : Fin 16) (pkt : List Byte)
  /-- WRITE (R111). A remote WRITE is served at the memory-side cache, or in the register windows, and answered with
  WRITE_ACK. -/
  | write (port : Fin 16) (pkt : List Byte)
  /-- ATOMIC_ADD (R111). A remote ATOMIC_ADD runs at the memory-side adder and is answered with ATOMIC_ACK. -/
  | atomicAdd (port : Fin 16) (pkt : List Byte)
  /-- FETCH_ADD (R111). A remote FETCH_ADD runs at the adder and returns the prior value in ATOMIC_ACK. -/
  | fetchAdd (port : Fin 16) (pkt : List Byte)
  /-- READ_DATA (R112). A READ_DATA response completes its outstanding tag, or is dropped as UNMATCHED. -/
  | readData (port : Fin 16) (pkt : List Byte)
  /-- WRITE_ACK (R112). A WRITE_ACK response completes its outstanding write. -/
  | writeAck (port : Fin 16) (pkt : List Byte)
  /-- ATOMIC_ACK (R112). An ATOMIC_ACK response completes its outstanding atomic. -/
  | atomicAck (port : Fin 16) (pkt : List Byte)
  /-- REQUEST_TIMEOUT (R112). FAB_REQ_TIMEOUT expires for an outstanding request, which completes with TIMEOUT. -/
  | requestTimeout (tag : BitVec 16)
  /-- NEIGHBOUR_NOTICE (R116). A NEIGHBOUR_NOTICE reaches the management node, reporting a new neighbour on a port. -/
  | neighbourNotice (pkt : List Byte)
  /-- JOIN_ANNOUNCE (R118). A member fills in the relaying fields of a received JOIN_ANNOUNCE and sends it on to
  FAB_MGMT_NODE. -/
  | joinAnnounce (port : Fin 16) (pkt : List Byte)
  /-- JOIN_ANNOUNCE_REPEAT (R118). Every 1,000 ticks, an ANNOUNCING, LOCKED node sends JOIN_ANNOUNCE on every UP port. -/
  | joinAnnounceRepeat
  /-- JOIN_ACCEPT (R120). On JOIN_ACCEPT, the node sets its management and admin nodes, sets JOIN to ACCEPTED and opens its
  windows. -/
  | joinAccept (pkt : List Byte)
  /-- JOIN_REFUSE (R120). On JOIN_REFUSE, the node sets JOIN to REFUSED, stops announcing and answers DENIED. -/
  | joinRefuse (pkt : List Byte)
  /-- DETACH (R122). A DETACH message from the admin node sets the detach tick N. -/
  | detach (pkt : List Byte)
  /-- DETACH_REQUESTS_DRAINED (R123). The detaching node's outstanding requests finish, it sends DETACH_DONE and enters P2.
  -/
  | detachRequestsDrained
  /-- DETACH_DONE (R123). A DETACH_DONE message reaches the management node. -/
  | detachDone (pkt : List Byte)
  /-- FABRIC_RESET (R126). A FABRIC_RESET from the timekeeper, with FRST_EN set, performs a fabric reset, and any other is
  dropped. -/
  | fabricReset (pkt : List Byte) (late : BitVec 64) (ns : Nat)
  /-- FRST_GO (R126). A write of FAB_FRST_CMD.GO on the timekeeper sends FABRIC_RESET to the target. -/
  | frstGo (target : Fin 4096)
  /-- BCAST (R114). A BCAST packet goes upward to the timekeeper and then down the tree, delivered locally at each node. -/
  | bcast (port : Fin 16) (pkt : List Byte)
  /-- PLAN_SEG (R115). A PLAN_SEG writes plan bytes into the standby bank, the check follows, and PUSH_DONE is sent. -/
  | planSeg (pkt : List Byte)
  /-- PUSH_DONE (R115). A PUSH_DONE message reaches the management node with the plan ID and the reason. -/
  | pushDone (pkt : List Byte)
  /-- TELEMETRY (R511). A TELEMETRY packet with a node's tick record reaches its destination. -/
  | telemetry (pkt : List Byte)
  /-- ROUTE_CHECK (R101). A write of FAB_ROUTE_CTL.CHECK checks the standby route table and reports the reason. -/
  | routeCheck
  /-- ADOPT_NOW (R103). A write of ADOPT_NOW while the active plan bank is empty makes the accepted standby route table
  active. -/
  | adoptNow
  /-- PARTITION_ENABLE (R177). A write of ENABLE 1 enables the partition, or sets REFUSED with a cause. -/
  | partitionEnable (part : Fin 16) (cfg : BitVec 32)
  /-- PARTITION_DISABLE (R179). A write of ENABLE 0 sets DRAINING and begins the drain of the partition. -/
  | partitionDisable (part : Fin 16) (cfg : BitVec 32)
  /-- FLUSH_DONE (R179). The drain's requests and write-backs complete, DRAINING clears and FLUSH_DONE is set. -/
  | flushDone (part : Fin 16)
  /-- REGULATOR_WRITE (R185). A write to RATE or BURST applies at the next grant and refills the bucket to its cap. -/
  | regulatorWrite (part : Fin 16) (burst : Bool) (value : BitVec 32)
  /-- MEMORY_ACCESS (R193). An access reaches its memory-side cache slice and is served as a hit, a miss, a narrow access or
  a refusal under its hint. -/
  | memoryAccess (req : Fin 585) (write : Bool) (addr : BitVec 48) (data : List Byte) (len : Nat) (hint : Fin 3) (uses : BitVec 8) (deadline : Option (BitVec 32))
  /-- MISS_GRANT (R188). The partition's miss scheduler grants a queued request under FIXED_SPLIT or DEADLINE arbitration.
  -/
  | missGrant (part : Fin 16)
  /-- REGULATOR_ISSUE (R185). A granted transfer issues once the bucket level suffices, and the bucket is charged. -/
  | regulatorIssue (part : Fin 16)
  /-- LINE_FILL_DONE (R205). A line fill completes, and held accesses to the line are served as hits. -/
  | lineFillDone (line : BitVec 41) (ecc : List (Nat × Ecc))
  /-- ATOMIC_REQUEST (R198). The slice orders an atomic, invalidates and writes back the line, and sends it to the channel
  adder. -/
  | atomicRequest (req : Fin 585) (addr : BitVec 48) (fmt : Fin 8) (fetch : Bool) (operand : BitVec 128)
  /-- ADDER_COMPLETE (R199). The channel adder performs the atomic, and the held later accesses to the line are released. -/
  | adderComplete (line : BitVec 41) (ecc : List (Nat × Ecc))
  /-- SCRUB_READ (R220). Every SCRUB_GAP cycles, the scrubber reads one granule, writes back corrections and counts a pass
  on wrap. -/
  | scrubRead (chan : Fin 288) (ecc : Ecc)
  /-- SOFT_REMAP_DONE (R224). The unit is written into its spare, the remap table is updated, and the held requests are
  released. -/
  | softRemapDone (chan : Fin 288)
  /-- REMAP_REQ (R223). A write of REMAP_REQ.GO, for a stack or the deep tier, requests a soft remap of the unit. -/
  | remapReq (stack : Option (Fin 8)) (value : BitVec 32)
  /-- REMAP_LOG_APPEND (R225). A Narup core appends the entry of a remap, lane repair or exhausted unit to the log, or sets
  LOG_FULL. -/
  | remapLogAppend
  /-- LOG_COMPACTION (R227). After ready-for-plan, the core copies the live entries to the other half and erases the old
  half. -/
  | logCompaction
  /-- TG_START (R233). A write of TG_CTL.START starts the traffic generator, or sets REFUSED. -/
  | tgStart (chan : Fin 288) (value : BitVec 32)
  /-- TG_STOP (R232). A write of TG_CTL.STOP stops the generator with ABORTED set. -/
  | tgStop (chan : Fin 288)
  /-- TG_DONE (R235). The generator completes its accesses, clears BUSY, sets DONE and records its results. -/
  | tgDone (chan : Fin 288) (flips : List (Nat × Nat)) (ecc : List (Nat × Ecc))
  /-- TEMP_READ (R236). Every 4,096 cycles, the HBM controller reads its stack sensor and derives the thermal class. -/
  | tempRead (stack : Fin 8) (reading : Option (Fin 256))
  /-- STACK_SELF_REFRESH (R520). The critical stack's issued commands complete, and the stack enters self-refresh. -/
  | stackSelfRefresh (stack : Fin 8)
  /-- SELF_REFRESH_EXIT (R522). The stack leaves self-refresh after its class falls, row logic resumes and REJOIN_READY may
  be set. -/
  | selfRefreshExit (stack : Fin 8)
  /-- ROWLOGIC_BATCH_START (R259). A row-logic slot starts, and the node checks and admits its batch or rejects it. -/
  | rowlogicBatchStart (slot : Fin 1024)
  /-- RLG_NOP (R251). Row-logic NOP does nothing. -/
  | rlgNop (stack : Fin 8)
  /-- COPY (R251). Each selected bank copies SRC_A to DST. -/
  | copy (stack : Fin 8) (ecc : List (Nat × Ecc))
  /-- NOT (R251). Each selected bank writes the complement of SRC_A to DST. -/
  | not (stack : Fin 8) (ecc : List (Nat × Ecc))
  /-- AND (R251). Each selected bank writes SRC_A AND SRC_B to DST. -/
  | and (stack : Fin 8) (ecc : List (Nat × Ecc))
  /-- OR (R251). Each selected bank writes SRC_A OR SRC_B to DST. -/
  | or (stack : Fin 8) (ecc : List (Nat × Ecc))
  /-- XOR (R251). Each selected bank writes SRC_A XOR SRC_B to DST. -/
  | xor (stack : Fin 8) (ecc : List (Nat × Ecc))
  /-- MAJ (R251). Each selected bank writes the bitwise majority of three rows to DST. -/
  | maj (stack : Fin 8) (ecc : List (Nat × Ecc))
  /-- ACC_CLEAR (R251). Each selected unit clears its accumulator and poison flags. -/
  | accClear (stack : Fin 8)
  /-- ACC_LOAD (R251). Each selected unit loads SRC_A into its accumulator. -/
  | accLoad (stack : Fin 8) (ecc : List (Nat × Ecc))
  /-- ACC_ADD (R252). Each selected unit adds SRC_A into its accumulator in FMT. -/
  | accAdd (stack : Fin 8) (ecc : List (Nat × Ecc))
  /-- ACC_STORE (R251). Each selected unit stores its accumulator to DST with check bytes. -/
  | accStore (stack : Fin 8)
  /-- CHAIN_MOVE (R254). Each sender's accumulator replaces its receiver's at chain distance DIST. -/
  | chainMove (stack : Fin 8)
  /-- CHAIN_ADD (R254). Each sender's accumulator is added into its receiver's at chain distance DIST. -/
  | chainAdd (stack : Fin 8)
  /-- RL_FENCE_GO (R265). A write of RLG_FENCE.GO issues an RL_FENCE covering the uncovered admitted batches. -/
  | rlFenceGo
  /-- RL_FENCE_COMPLETE (R264). The covered batches have ended, and the fence invalidates the DEST lines and completes. -/
  | rlFenceComplete
  /-- RLG_SUBMIT (R261). A write of RLG_STACK SUBMIT.GO runs a host batch, or sets SUBMIT_REFUSED. -/
  | rlgSubmit (stack : Fin 8) (value : BitVec 64)
  /-- STREAM_BATCH_START (R278). A stream slot starts, and the node checks the descriptor, loads the program and admits or
  rejects the batch. -/
  | streamBatchStart (slot : Fin 1024)
  /-- STREAM_NOP (R281). Stream NOP does nothing. -/
  | streamNop (ctx : Fin 512)
  /-- MOVI (R281). MOVI sets A[D] to the sign-extended immediate. -/
  | movi (ctx : Fin 512)
  /-- STREAM_ADD (R281). ADD sets A[D] to A[S] + A[T]. -/
  | streamAdd (ctx : Fin 512)
  /-- ADDI (R281). ADDI sets A[D] to A[S] + IMM. -/
  | addi (ctx : Fin 512)
  /-- MULI (R281). MULI sets A[D] to A[S] × IMM[31:0]. -/
  | muli (ctx : Fin 512)
  /-- LD64 (R281). LD64 loads 8 bytes into A[D] and waits for the data. -/
  | ld64 (ctx : Fin 512)
  /-- SETL (R281). SETL sets a loop counter from the immediate. -/
  | setl (ctx : Fin 512)
  /-- SETLR (R281). SETLR sets a loop counter from an address register. -/
  | setlr (ctx : Fin 512)
  /-- ENDL (R281). ENDL decrements the counter and loops, or continues. -/
  | endl (ctx : Fin 512)
  /-- EMIT (R283). EMIT emits an input tile, allocates its slots and fetches it with IN_HINT. -/
  | emit (ctx : Fin 512)
  /-- EMITW (R287). EMITW allocates an output tile in reserved slots for the engine to fill. -/
  | emitw (ctx : Fin 512)
  /-- LAYER (R290). LAYER enters BARRIER until the drain group drains, or advances the look-ahead tag. -/
  | layer (ctx : Fin 512)
  /-- RLF (R281). RLF issues an RL_FENCE and waits for its completion. -/
  | rlf (ctx : Fin 512)
  /-- STREAM_END (R279). END ends the stream program. -/
  | streamEnd (ctx : Fin 512)
  /-- TILE_ALLOCATE (R288). Slots free up, and a waiting tile takes all its slots at once in waiting order. -/
  | tileAllocate
  /-- TILE_READY (R283). All lines of an input tile arrive, and the tile is offered to the consumer in order. -/
  | tileReady (ctx : Fin 512) (ue : List (Fin 2048))
  /-- OUTPUT_TILE_COMMIT (R287). The cache acknowledges every line of a written output tile, and its slots are freed. -/
  | outputTileCommit (ctx : Fin 512)
  /-- STREAM_BATCH_COMPLETE (R279). A stream batch has ended, released and committed all its tiles, and completes. -/
  | streamBatchComplete (ctx : Fin 512)
  /-- GROUP_DRAIN (R291). Every member has arrived, so LAYER advances, the members resume and look-ahead tiles are released.
  -/
  | groupDrain (group : Fin 16)
  /-- PAGE_MIGRATION (R296). A Narup core migrates a PARKED page to a ring frame and resumes the halted contexts, or faults
  NO_FRAME. -/
  | pageMigration (ctx : Fin 512)
  /-- CONTEXT_HALT (R298). A write of STR_CTX CTL.HALT stops the context at the next instruction boundary. -/
  | contextHalt (ctx : Fin 512)
  /-- CONTEXT_HALTED (R298). A halting context's output tiles are committed, and it enters HALTED. -/
  | contextHalted (ctx : Fin 512)
  /-- STREAM_RESUME (R297). A write of STREAM_RESUME returns a FAULTED or HALTED context to RUNNING at its saved PC. -/
  | streamResume (ctx : Fin 512)
  /-- CONTEXT_SAVE (R298). A write of SAVE writes the context's save record and sets SAVE_DONE. -/
  | contextSave (ctx : Fin 512)
  /-- CONTEXT_RESTORE (R298). A write of RESTORE on an IDLE context reads the record and enters HALTED. -/
  | contextRestore (ctx : Fin 512)
  /-- FLOOR_WRITE (R289). A write of STR_CTX FLOOR is accepted while the context is IDLE and the sums fit, or sets REFUSED.
  -/
  | floorWrite (ctx : Fin 512) (value : BitVec 32)
  /-- WAITFOR_TRACE (R300). A context has waited WATCH cycles, and Glade traces the wait-for chain for a cycle. -/
  | waitforTrace (ctx : Fin 512)
  /-- ENGINE_BATCH_START (R314). An engine slot starts, and the node checks the descriptor and rules, loads constants and
  admits or rejects the batch. -/
  | engineBatchStart (slot : Fin 1024)
  /-- ENGINE_FETCH (R318). A FETCH phase writes the outputs of the last quad and reads the next quad once every port is
  ready. -/
  | engineFetch (eng : Fin 64)
  /-- RULE_NOP (R325). Rule NOP does nothing. -/
  | ruleNop (eng : Fin 64)
  /-- VADD (R325). VADD sets D = A + B. -/
  | vadd (eng : Fin 64)
  /-- VSUB (R325). VSUB sets D = A − B. -/
  | vsub (eng : Fin 64)
  /-- VMUL (R325). VMUL sets D = A × B. -/
  | vmul (eng : Fin 64)
  /-- VFMA (R325). VFMA sets D = A × B + C with one rounding. -/
  | vfma (eng : Fin 64)
  /-- VFNMA (R325). VFNMA sets D = C − A × B with one rounding. -/
  | vfnma (eng : Fin 64)
  /-- VMAX (R325). VMAX sets D = max(A, B). -/
  | vmax (eng : Fin 64)
  /-- VMIN (R325). VMIN sets D = min(A, B). -/
  | vmin (eng : Fin 64)
  /-- VABS (R325). VABS sets D = |A|. -/
  | vabs (eng : Fin 64)
  /-- VNEG (R325). VNEG sets D = −A. -/
  | vneg (eng : Fin 64)
  /-- VSIGN (R325). VSIGN sets D to the sign of A. -/
  | vsign (eng : Fin 64)
  /-- VSEL (R325). VSEL selects A or B by C. -/
  | vsel (eng : Fin 64)
  /-- VCMPLT (R325). VCMPLT sets all ones where A < B. -/
  | vcmplt (eng : Fin 64)
  /-- VRCP (R325). VRCP sets D = 1 / A. -/
  | vrcp (eng : Fin 64)
  /-- VSQRT (R325). VSQRT sets D = √A. -/
  | vsqrt (eng : Fin 64)
  /-- VRSQRT (R325). VRSQRT sets D = 1 / √A. -/
  | vrsqrt (eng : Fin 64)
  /-- VDIV (R325). VDIV sets D = A / B. -/
  | vdiv (eng : Fin 64)
  /-- VRND (R332). VRND draws a uniform value from the counter generator or the lane LFSR. -/
  | vrnd (eng : Fin 64)
  /-- EMSET (R325). EMSET sets an EM48 pair from A with an extension of 0. -/
  | emset (eng : Fin 64)
  /-- EMADD (R330). EMADD adds B × C to an EM48 pair with one rounding. -/
  | emadd (eng : Fin 64)
  /-- EMUPD (R330). EMUPD sets the pair to pair × A + B × C with one rounding. -/
  | emupd (eng : Fin 64)
  /-- EMRND (R330). EMRND rounds an EM48 pair to FP32. -/
  | emrnd (eng : Fin 64)
  /-- SRBF (R331). SRBF rounds an EM48 pair stochastically to BF16. -/
  | srbf (eng : Fin 64)
  /-- RNBF (R325). RNBF rounds A to BF16, nearest-even. -/
  | rnbf (eng : Fin 64)
  /-- VLD (R313). VLD loads an L1 array element. -/
  | vld (eng : Fin 64)
  /-- VST (R325). VST stores A into an L1 array element. -/
  | vst (eng : Fin 64)
  /-- VACC (R325). VACC adds A × B into an array element. -/
  | vacc (eng : Fin 64)
  /-- VRSUM (R327). VRSUM adds the tree sum of the lane products into an array element. -/
  | vrsum (eng : Fin 64)
  /-- QSTAT (R328). QSTAT sets all ones in lanes that meet the status mask. -/
  | qstat (eng : Fin 64)
  /-- RULE_END (R325). END ends the rule program for the beat. -/
  | ruleEnd (eng : Fin 64)
  /-- ENGINE_BATCH_COMPLETE (R316). Every quad, output and release is done and any fence has completed, and the engine batch
  completes. -/
  | engineBatchComplete (eng : Fin 64)
  /-- ENGINE_HALT (R336). A write of UPE_ENG CTL.HALT stops the engine at the next clean quad boundary. -/
  | engineHalt (eng : Fin 64)
  /-- ENGINE_SAVE (R337). A write of SAVE on a HALTED engine writes its save record. -/
  | engineSave (eng : Fin 64)
  /-- ENGINE_RESTORE (R337). A write of RESTORE on an IDLE engine reads its record and enters HALTED. -/
  | engineRestore (eng : Fin 64)
  /-- ENGINE_SUBMIT (R334). A write of UPE SUBMIT.GO runs a host batch on an IDLE engine, or sets SUBMIT_REFUSED. -/
  | engineSubmit (eng : Fin 64) (value : BitVec 64)
  /-- RULE_STORE_WRITE (R329). A rule-store write takes effect, or is dropped with RULE_DROP inside a protected range. -/
  | ruleStoreWrite (eng : Fin 64) (index : Fin 1024) (value : BitVec 32)
  /-- DERIVE_PASS (R335). A repeat slot finds a poisoned working copy, and the engine re-derives it from master weights by
  SRBF. -/
  | derivePass (eng : Fin 64)
  /-- ENGINE_FENCE_WB (R440). A write of COH_FENCE.GO with KIND 0 issues ENGINE_FENCE WB for the masked engines. -/
  | engineFenceWb
  /-- ENGINE_FENCE_WBINV (R440). A write of COH_FENCE.GO with KIND 1 issues ENGINE_FENCE WBINV for the masked engines. -/
  | engineFenceWbinv
  /-- FABRIC_FENCE (R441). A write of COH_FENCE.GO with KIND 2 issues FABRIC_FENCE over the earlier remote requests. -/
  | fabricFence
  /-- ENGINE_FENCE_COMPLETE (R439). Every engine of the set has written back its lines and received acknowledgements, and
  the fence completes. -/
  | engineFenceComplete
  /-- FABRIC_FENCE_COMPLETE (R441). The earlier remote requests have all answered or timed out, and the fence completes. -/
  | fabricFenceComplete
  /-- MATRIX_JOB_START (R350). A matrix slot starts, and the node checks the job descriptor and admits or rejects the job.
  -/
  | matrixJobStart (slot : Fin 1024)
  /-- MXA_SUBMIT (R355). A write of MXA_SUBMIT.GO submits a host job, or sets SUBMIT_REFUSED. -/
  | mxaSubmit (value : BitVec 64)
  /-- MATRIX_PASS (R351). The array completes one tile pass, writes finished tiles and reports progress. -/
  | matrixPass
  /-- MATRIX_JOB_COMPLETE (R356). Every output tile is acknowledged, and the job completes. -/
  | matrixJobComplete
  /-- POOL_LOAD (R368). A write of KVS_POOL CTL.LOAD checks and loads the pool descriptor, or refuses it. -/
  | poolLoad (pool : Fin 8)
  /-- POOL_UNLOAD (R368). A write of CTL.UNLOAD unloads the pool while no window of it runs. -/
  | poolUnload (pool : Fin 8)
  /-- LAB_FLUSH (R372). A write of CTL.LAB_FLUSH invalidates the pool's LAB entries. -/
  | labFlush (pool : Fin 8)
  /-- MMU_INVAL (R366). A write of MMU_INVAL.GO invalidates TLB entries in scope and sets DONE. -/
  | mmuInval (value : BitVec 64)
  /-- KV_WINDOW_START (R384). A KV-service slot starts, and the node checks its window descriptor, admits it and borrows
  idle engines. -/
  | kvWindowStart (slot : Fin 1024)
  /-- KV_REQUEST_ACCEPT (R381). While TAIL differs from HEAD, an open window accepts the next ring request into its queue.
  -/
  | kvRequestAccept (pool : Fin 8)
  /-- KV_WINDOW_END (R384). START + DURATION passes, and the window stops accepting, completes its queue and returns its
  engines. -/
  | kvWindowEnd (pool : Fin 8)
  /-- OPEN (R377). OPEN makes a sequence OPEN, and with SHARE it matches the prompt in Grove. -/
  | kvOpen (pool : Fin 8)
  /-- APPEND (R382). APPEND writes token records, or the K, V or latents of a layer, allocating and splitting spans as
  needed. -/
  | append (pool : Fin 8)
  /-- ATTEND (R390). ATTEND computes chunked decode attention of the query rows and merges the chunks. -/
  | attend (pool : Fin 8)
  /-- ATTEND_BWD (R392). ATTEND_BWD recomputes the scores and writes dQ and accumulates dK and dV. -/
  | attendBwd (pool : Fin 8)
  /-- FORK (R379). FORK opens a sequence sharing the first tokens of another. -/
  | fork (pool : Fin 8)
  /-- RELEASE (R380). RELEASE drops the sequence's record references and makes it FREE. -/
  | release (pool : Fin 8)
  /-- KV_READ (R382). READ copies K and V of a layer for a token range, expanding latents first. -/
  | kvRead (pool : Fin 8)
  /-- RNG_SEED_READ (R405). A read of RNG_SEED returns and consumes the next seed word, or 0, and updates SEED_VALID. -/
  | rngSeedRead
  /-- RETEST (R403). A write of RNG_CTL.RETEST runs the start-up test of the noise source. -/
  | retest
  /-- STARTUP_TEST_DONE (R403). The 1,024-sample start-up test passes and sets READY, or fails. -/
  | startupTestDone (samples : List (Fin 16))
  /-- NOISE_BLOCK (R404). A block of 256 samples is conditioned into four seed words, or discarded on a health failure. -/
  | noiseBlock (samples : List (Fin 16))
  /-- LFSR_SEED (R413). A write of RNG_LFSR_CMD.GO seeds the lanes of the masked idle or halted engines. -/
  | lfsrSeed (value : BitVec 32)
  /-- SEED_DONE (R413). A seeding command ends, and the node sets RNG_EVT.SEED_DONE. -/
  | seedDone
  /-- RD_S (R428). A slice receives RD_S and grants the line in E or S. -/
  | rdS (eng : Fin 64) (tag : Fin 32) (line : BitVec 41)
  /-- RD_X (R428). A slice receives RD_X, snoops the holders and grants DATA_X. -/
  | rdX (eng : Fin 64) (tag : Fin 32) (line : BitVec 41) (off : Fin 128) (data : List Byte)
  /-- UPG (R434). A slice receives UPG and grants UPG_ACK, or DATA_X when the copy is gone. -/
  | upg (eng : Fin 64) (tag : Fin 32) (line : BitVec 41) (off : Fin 128) (data : List Byte)
  /-- EVICT (R432). A slice receives EVICT, clears the holder, answers EVICT_ACK and may take it as a snoop answer. -/
  | evict (eng : Fin 64) (tag : Fin 32) (line : BitVec 41)
  /-- WB (R433). A slice receives WB and writes it with WB_ACK, or holds it for WB_SUPERSEDED. -/
  | wb (eng : Fin 64) (tag : Fin 32) (line : BitVec 41)
  /-- DATA_S (R427). An L1 receives DATA_S and installs the line in S. -/
  | dataS (eng : Fin 64) (tag : Fin 32) (line : BitVec 41)
  /-- DATA_E (R431). An L1 receives DATA_E, installs the line in E and performs its access. -/
  | dataE (eng : Fin 64) (tag : Fin 32) (line : BitVec 41)
  /-- DATA_X (R431). An L1 receives DATA_X, installs the line in M and performs its write. -/
  | dataX (eng : Fin 64) (tag : Fin 32) (line : BitVec 41)
  /-- UPG_ACK (R431). An L1 receives UPG_ACK and moves its line from S to M. -/
  | upgAck (eng : Fin 64) (tag : Fin 32) (line : BitVec 41)
  /-- EVICT_ACK (R428). An L1 receives EVICT_ACK for its eviction. -/
  | evictAck (eng : Fin 64) (tag : Fin 32) (line : BitVec 41)
  /-- WB_ACK (R433). An L1 receives WB_ACK and frees its write-back buffer entry. -/
  | wbAck (eng : Fin 64) (tag : Fin 32) (line : BitVec 41)
  /-- WB_SUPERSEDED (R433). An L1 receives WB_SUPERSEDED and frees the entry without further action. -/
  | wbSuperseded (eng : Fin 64) (tag : Fin 32) (line : BitVec 41)
  /-- SNP_SHARE (R427). An L1 keeps at most S and answers with RSP_INV_S or RSP_DATA_S. -/
  | snpShare (eng : Fin 64) (slice : Fin 32) (tag : Fin 64) (line : BitVec 41)
  /-- SNP_INV (R427). An L1 invalidates its line and answers with RSP_INV, RSP_DATA or RSP_GONE. -/
  | snpInv (eng : Fin 64) (slice : Fin 32) (tag : Fin 64) (line : BitVec 41)
  /-- SNP_DISCARD (R427). An L1 invalidates its line, discarding dirty data, and answers RSP_INV. -/
  | snpDiscard (eng : Fin 64) (slice : Fin 32) (tag : Fin 64) (line : BitVec 41)
  /-- RSP_GONE (R449). A slice takes RSP_GONE as an answer or retires a STALE snoop, and otherwise raises PROTOCOL. -/
  | rspGone (eng : Fin 64) (slice : Fin 32) (tag : Fin 64) (line : BitVec 41)
  /-- RSP_INV (R428). A slice takes RSP_INV as a clean invalidation answer. -/
  | rspInv (eng : Fin 64) (slice : Fin 32) (tag : Fin 64) (line : BitVec 41)
  /-- RSP_INV_S (R428). A slice takes RSP_INV_S as a clean answer with the copy kept in S. -/
  | rspInvS (eng : Fin 64) (slice : Fin 32) (tag : Fin 64) (line : BitVec 41)
  /-- RSP_DATA (R433). A slice takes dirty data from RSP_DATA and writes it into the cache. -/
  | rspData (eng : Fin 64) (slice : Fin 32) (tag : Fin 64) (line : BitVec 41)
  /-- RSP_DATA_S (R436). A slice takes dirty data from RSP_DATA_S, and the holder keeps S. -/
  | rspDataS (eng : Fin 64) (slice : Fin 32) (tag : Fin 64) (line : BitVec 41)
  /-- SNOOP_TIMEOUT (R449). A snoop goes unanswered for 4,096 cycles, and COH_EVT.PROTOCOL is raised. -/
  | snoopTimeout (slice : Fin 32) (tag : Fin 64)
  /-- PRESENCE_DEBOUNCE (R457). PRES_N has read low for 20 ms with VIN_48 in range, so the sequencer turns the main switch
  on and ramps. -/
  | presenceDebounce (fresh : Bool)
  /-- PRESENCE_LOST (R458). PRES_N reads high, and the main switch turns off within 10 µs. -/
  | presenceLost
  /-- RAIL_POWER_GOOD (R461). A rail reports power-good, and the sequencer starts the next rail or releases die reset. -/
  | railPowerGood (straps : Fin 8)
  /-- TRIP (R460). A protection condition of DIE_TEMP, HBM_CATTRIP, voltage, RAIL or OVERCURRENT turns the main switch off
  and latches LAST_TRIP. -/
  | trip (cause : Fin 6)
  /-- VIN_LOW (R460). VIN_48 lies below 42 V for 1 ms, and the node sets VIN_LOW and reports a power fault. -/
  | vinLow (volts : BitVec 16) (amps : BitVec 16)
  /-- COOL_LOSS (R465). COOL_OK reads low for 1 s, so the node sets COOL_LOSS and Fumarole applies FUM_COOL. -/
  | coolLoss
  /-- COOL_LIMIT_LIFT (R524). COOL_OK reads high for 10 s, and Fumarole lifts the coolant limit. -/
  | coolLimitLift
  /-- LEAK (R465). The leak sensor detects liquid, so the module drives COOL_LEAK_N low and sets LEAK. -/
  | leak
  /-- EJECT_OPENED (R472). The ejector lever opens, and the node sets EJECT_OPENED and EJECT_OPEN. -/
  | ejectOpened
  /-- EJECT_CLOSED (R472). The ejector lever closes, and the node sets EJECT_CLOSED. -/
  | ejectClosed
  /-- REFERENCE_RELOCK (R467). The reference PLL relocks to the recovered clock, and phase correction resumes. -/
  | referenceRelock
  /-- PERST (R539). PE_PERST_N asserted for at least 1 µs starts a module reset, or re-powers the module after a trip. -/
  | perst (vinOk : Bool) (at_ : Nat) (late : BitVec 64) (cacheLate : Bool)
  /-- MODULE_RESET (R540). A write of RST_CTL.MODULE with the key stops the node, quiesces, writes back, enters self-refresh
  and restarts. -/
  | moduleReset (key : BitVec 16) (fabric : Bool) (late : BitVec 64) (cacheLate : Bool)
  /-- COMPUTE_RESET (R541). A write of RST_CTL.COMPUTE clears the plan, settles work in flight, writes back L1s and clears
  compute units. -/
  | computeReset (key : BitVec 16) (fabric : Bool) (late : BitVec 64) (ns : Nat)
  /-- PLAN_RESET (R543). A write of RST_CTL.PLAN clears the plan banks and halts streams and engines with their positions
  kept. -/
  | planReset (key : BitVec 16) (fabric : Bool)
  /-- PLAN_RESET_HALTED (R543). Every engine and context that was running has halted, and the node sets DONE. -/
  | planResetHalted (at_ : Nat)
  /-- RESET_FORCED (R559). A reset's quiesce exceeds its bound, so remaining lines are invalidated and FORCED is set. -/
  | resetForced (at_ : Nat)
  /-- DIE_RESET_RELEASE (R490). Die reset is released, the fuses are read and the boot phases begin. -/
  | dieResetRelease
  /-- IMAGE_SLOT_VERIFY (R488). A slot's read, hash, signature and content checks end, and the slot passes or the node falls
  back. -/
  | imageSlotVerify (flashOk : Bool)
  /-- CORE_READY (R487). A Narup core reports ready after its release at ENTRY. -/
  | coreReady (core : Fin 4)
  /-- CORE_READY_TIMEOUT (R487). A core fails to report ready within 20 ms, and the slot fails with FIRMWARE. -/
  | coreReadyTimeout (core : Fin 4)
  /-- MEMORY_READY (R208). Both tiers are trained, so image partitions are enabled and MEM_STATUS.READY is set. -/
  | memoryReady (failedPc : List (Fin 8 × BitVec 32)) (failedCh : BitVec 32) (lanes : List (Nat × Nat)) (repairFails : List Nat)
  /-- CHANNEL_ZEROED (R549). After power-on training, a channel controller finishes zeroing its channel and releases held
  accesses. -/
  | channelZeroed (chan : Fin 288)
  /-- DOMAIN_START (R495). A ranked node hears no beacon for LISTEN × (k + 1) ms and starts a domain as timekeeper. -/
  | domainStart
  /-- READY_FOR_PLAN (R493). Memory is ready, the node is LOCKED and every core is ready, so the window closes and JOIN
  becomes ANNOUNCING. -/
  | readyForPlan
  /-- BOOT_LATE (R497). 4 s pass from die reset release without ready-for-plan, and the node sets LATE. -/
  | bootLate
  /-- THROTTLE_UPDATE (R513). Every 1 ms, Fumarole raises or lowers the throttle level against the applied budget. -/
  | throttleUpdate (pMs : Nat) (pS : Nat) (dieMax : Nat) (iin : Nat)
  /-- OVERCURRENT_THROTTLE (R513). Input current stays above 36 A for 100 µs, and the level goes to 15. -/
  | overcurrentThrottle
  /-- DIE_HOT_THROTTLE (R513). A die sensor reads 110 °C, and the level goes to 15 until it falls below 105 °C. -/
  | dieHotThrottle
  /-- TELEMETRY_INTERVAL (R510). While the node is UNLOCKED or ACQUIRING, Fumarole writes a record every 16,000 cycles. -/
  | telemetryInterval (tel : List Byte)
  /-- CLUSTER_GATE (R526). In A1, an engine cluster or the array idle for 64 cycles is clock-gated. -/
  | clusterGate (unit : Option (Fin 8))
  /-- P1_ENTRY (R527). A write of FUM_PSTATE.GO with REQ 2 enters P1, or sets REFUSED. -/
  | p1Entry
  /-- P1_EXIT (R527). A write of GO with REQ 0 leaves P1. -/
  | p1Exit
  /-- PSTATE_DONE (R527). A P1 transition completes, and the node sets PSTATE_DONE. -/
  | pstateDone
  /-- CLAIM_ACK (R566). A write of TEL_CLAIM_ACK with a matching ID returns a RECOVERED or DOWN claim to NONE, or sets
  ACK_REFUSED. -/
  | claimAck (port : Fin 16) (id : BitVec 16)
  /-- COALESCE_EXPIRY (R572). A coalescing entry expires with a count, and the node writes one record with REPEATS. -/
  | coalesceExpiry
  /-- QUEUE_ENABLE (R589). A write of HST_Q CFG.ENABLE enables the queue and zeroes its indices, or sets QERR. -/
  | queueEnable (q : Fin 16) (value : BitVec 32)
  /-- SQ_DOORBELL (R591). A write of SQ_TAIL starts fetching commands up to the tail, or sets QERR. -/
  | sqDoorbell (q : Fin 16) (value : BitVec 32)
  /-- CQ_HEAD_WRITE (R593). A driver write of CQ_HEAD frees CQ space and lets a held completion be written. -/
  | cqHeadWrite (q : Fin 16) (value : BitVec 32)
  /-- QUEUE_NOP (R594). Queue NOP completes with OK. -/
  | queueNop (q : Fin 16)
  /-- PLAN_LOAD (R594). PLAN_LOAD writes a plan into the standby bank, runs the check and completes OK or REFUSED. -/
  | planLoad (q : Fin 16)
  /-- ROUTE_LOAD (R594). ROUTE_LOAD writes the standby route bank and runs the route check. -/
  | routeLoad (q : Fin 16)
  /-- RULE_LOAD (R595). RULE_LOAD writes rule words to the masked engines, all or nothing. -/
  | ruleLoad (q : Fin 16)
  /-- COPY_IN (R596). COPY_IN copies host memory to node memory. -/
  | copyIn (q : Fin 16)
  /-- COPY_OUT (R596). COPY_OUT copies node memory to host memory. -/
  | copyOut (q : Fin 16)
  /-- QUEUE_ARM (R594). The queue ARM writes the switch registers and arms, completing OK or REFUSED. -/
  | queueArm (q : Fin 16)
  /-- QUEUE_DISARM (R594). The queue DISARM writes DISARM. -/
  | queueDisarm (q : Fin 16)
  /-- QUEUE_DETACH (R594). The queue DETACH writes FAB_DETACH_AT and completes after DETACH_DONE is sent. -/
  | queueDetach (q : Fin 16)
  /-- FENCE (R594). The queue FENCE issues an engine, fabric or row-logic fence and completes when it does. -/
  | fence (q : Fin 16)
  /-- WRITE_REG (R594). WRITE_REG writes a BAR0 register as a host write would. -/
  | writeReg (q : Fin 16)
  /-- READ_REG (R594). READ_REG reads a BAR0 register and returns its value. -/
  | readReg (q : Fin 16)
  /-- HOST_READ_TIMEOUT (R596). A node read of host memory gets no completion in 10 ms and is logged as Completion Timeout.
  -/
  | hostReadTimeout (tag : Fin 1024)
  /-- HOST_MEMORY_REQUEST (R588). A host BAR2 request is served at the cache, returns 0xFF if refused, or completes with EP
  if poisoned. -/
  | hostMemoryRequest (write : Bool) (off : BitVec 41) (len : Nat) (data : List Byte) (ep : Bool)
  /-- CONFIG_REQUEST (R501). A configuration request is answered with retry status until the ID block answers, then served.
  -/
  | configRequest (item : Nat) (write : Bool) (value : BitVec 32)
  /-- D3HOT (R586). Entry to D3hot disables memory decoding and bus mastering only. -/
  | d3hot
  /-- LINK_DOWN (R603). The host link goes down, so queues stop and are disabled and host reads are abandoned. -/
  | linkDown
  /-- HOT_RESET (R604). A PCI Express hot reset or link disable acts as a link down and resets the HST and MSI-X state. -/
  | hotReset
  /-- FLASH_READ (R600). ID_FLASH_CTL.GO with OP READ reads flash bytes into ID_FLASH_BUF. -/
  | flashRead
  /-- FLASH_PROGRAM (R600). GO with OP PROGRAM and the key programs flash from the buffer and verifies it. -/
  | flashProgram (key : BitVec 16)
  /-- FLASH_ERASE (R600). GO with OP ERASE and the key erases a 64 KiB sector. -/
  | flashErase (key : BitVec 16)
  /-- FUSE_KEY_HASH (R602). FUSE with FUSE_OP KEY_HASH programs a key-hash fuse slot from the buffer. -/
  | fuseKeyHash (key : BitVec 16)
  /-- FUSE_REVOKE (R602). FUSE with FUSE_OP REVOKE sets KEY_REVOKED for a slot. -/
  | fuseRevoke (key : BitVec 16)
  /-- FUSE_SVN (R602). FUSE with FUSE_OP SVN raises the fuse SVN. -/
  | fuseSvn (key : BitVec 16)
  /-- FLASH_OP_DONE (R600). A mailbox operation ends, and the node clears BUSY and sets DONE and REASON. -/
  | flashOpDone
  /-- IDENTITY (R608). The management IDENTITY command returns the UID, part, stepping, phase and image version. -/
  | identity
  /-- STATUS (R608). The management STATUS command returns the boot, module, power, coolant and clock registers. -/
  | status
  /-- REG_READ (R608). The management REG_READ command reads a register, limited to the ID block in the window. -/
  | regRead (off : BitVec 32) (width : Byte) (pec : Bool)
  /-- REG_WRITE (R608). The management REG_WRITE command writes a register, limited to the ID block in the window. -/
  | regWrite (off : BitVec 32) (width : Byte) (value : BitVec 64) (pec : Bool) (rd : Bool)
  /-- MGT_TELEMETRY (R608). The management TELEMETRY command returns a 16-byte chunk of TEL_LAST. -/
  | mgtTelemetry (chunk : Byte) (pec : Bool)
  /-- FAULT (R608). The management FAULT command returns half of a fault record from TEL_FAULT_BUF. -/
  | fault (record : Byte) (half : Byte) (pec : Bool)
  /-- FLASH_BUF (R608). The management FLASH_BUF command reads or writes 16 bytes of ID_FLASH_BUF. -/
  | flashBuf (off : BitVec 16) (data : List Byte) (pec : Bool) (rd : Bool)
  /-- FLASH_CMD (R608). The management FLASH_CMD command writes the mailbox registers and GO, and returns ID_FLASH_STAT. -/
  | flashCmd (ctl : BitVec 32) (addr : BitVec 32) (len : BitVec 32) (fuse : BitVec 32) (pec : Bool) (rd : Bool)
  /-- RESET (R608). The management RESET command with the key starts a module reset. -/
  | reset (key : BitVec 16) (pec : Bool) (rd : Bool) (late : BitVec 64) (cacheLate : Bool)
  /-- LOCATE (R608). The management LOCATE command writes ID_LED_CTL.LOCATE. -/
  | locate (on : Byte) (pec : Bool) (rd : Bool)
  /-- ALERT (R610). The management ALERT command writes the alert mask and reads and clears the pending causes. -/
  | alert (mask : Option (BitVec 32)) (pec : Bool) (rd : Bool)
  /-- ALERT_RESPONSE (R610). A read of the Alert Response Address releases SMB_ALERT_N. -/
  | alertResponse
  /-- CLUSTER_UNGATE (R526). In A1, the tick sequencer ungates a gated engine cluster or the matrix array 160 core cycles
  before the START of its next slot. -/
  | clusterUngate (unit : Option (Fin 8))
  /-- HOST_LINK_UP (R603). The PCI Express host link completes training and comes up, setting HST_STATUS.UP, SPEED and
  WIDTH. -/
  | hostLinkUp (speed : Fin 16) (width : Fin 32)
  /-- HOST_READ_COMPLETION (R596). A completion for a node-initiated read of host memory (an SQ entry fetch, or PLAN_LOAD,
  ROUTE_LOAD, RULE_LOAD or COPY_IN data) arrives, or returns an error status. -/
  | hostReadCompletion (tag : Fin 1024) (status : Fin 4) (data : List Byte)
  /-- RAMP_COMPLETE (R457). The 40 ms input ramp ends with the switched input at VIN_48, POWER lights steady and the rail
  sequence begins. -/
  | rampComplete
  /-- ALIGN_TIMEOUT (R66). The 1 ms ALIGN bound expires without codeword, alignment or lane-map lock, and the attempt fails
  under R69. -/
  | alignTimeout (port : Fin 16) (lanes : BitVec 8)
  /-- MEASURE_TIMEOUT (R66). The 1 ms MEASURE bound expires before all delay probes have been answered. -/
  | measureTimeout (port : Fin 16)
  /-- DIE_HOT (R509). A die temperature sample reaches 100 °C, and Fumarole sets FUM_EVT.DIE_HOT. -/
  | dieHot
  deriving DecidableEq, Repr

end Sys2Proof
end

