-- ==== Sys2Proof/WellFormed.lean ====
section
/-! DEFINITION. Which commands are well formed: what an operand must satisfy beyond its type for the command to be one that
the environment can present. The meanings are total on every command; this says which of them stand for an event of the
hardware. -/

namespace Sys2Proof

/-- An offset of BAR0 (R584). -/
def inBar (off : Nat) : Bool := decide (off < 2 ^ 28)

/-- A control message: what a CTRL flit carries, the content from BODY byte 16 on, within the 240 bytes of the body (R71, R73). -/
def isMessage (msg : List Byte) : Bool := decide (1 ≤ msg.length) && decide (msg.length ≤ 240)

/-- A packet: a header of 16 bytes and payload units of 16 bytes (R107). -/
def isPacket (pkt : List Byte) : Bool := decide (16 ≤ pkt.length) && pkt.length % 16 == 0

/-- Well-formed commands. -/
def wellFormed : Instr → Bool
  | .registerWrite off data => inBar off && decide (1 ≤ data.bytes.length) && decide (data.bytes.length ≤ 512) && data.sets.all (fun b => decide (b < 64))
  | .rcRead off len _ => inBar off && decide (1 ≤ len) && decide (len ≤ 4096)
  | .latchedLowWordRead off => inBar off && off % 4 == 0
  | .tickEdge tel => decide (tel.length = 100)
  | .beaconReceive _ msg _ _ _ => isMessage msg
  | .beaconMiss => true
  | .lockLost => true
  | .takeover => true
  | .holdRequestSend .. => true
  | .holdRequest _ msg _ => isMessage msg
  | .lateNotice _ msg _ => isMessage msg
  | .holdRoundDeadline => true
  | .holdGrant _ msg _ _ => isMessage msg
  | .planBankWrite _ off data => decide (off + data.length ≤ 65536) && off % 4 == 0 && data.length % 4 == 0 && data != []
  | .arm .. => true
  | .disarm => true
  | .collectiveSlotStart .. => true
  | .vc0Packet _ pkt _ => isPacket pkt
  | .verdictAccept _ msg _ _ => isMessage msg
  | .calResolve .. => true
  | .calResume => true
  | .signalDetect .. => true
  | .capabilityPage .. => true
  | .exchangeTimeout .. => true
  | .trainingDone .. => true
  | .trainTimeout .. => true
  | .alignDone .. => true
  | .delayProbe .. => true
  | .delayReply .. => true
  | .verifyEnd _ _ corrected received _ _ => decide (corrected ≤ received)
  | .downBackoff .. => true
  | .flitReceive _ flit codewords _ => decide (flit.length = 256) && codewords.all (fun x => decide (x.1 < 8))
  | .nakRepeat .. => true
  | .ackIdleSend .. => true
  | .ackTimeout .. => true
  | .episodeWindowClose .. => true
  | .lossOfSignal .. => true
  | .retrainDone .. => true
  | .retrainTimeout .. => true
  | .degradedWindow _ corrected received => decide (corrected ≤ received)
  | .retrain .. => true
  | .unfence .. => true
  | .renegotiate .. => true
  | .portEnable .. => true
  | .lpRequest .. => true
  | .lpAcknowledge .. => true
  | .lpExit .. => true
  | .quit .. => true
  | .packetForward _ pkt => isPacket pkt
  | .read _ pkt => isPacket pkt
  | .write _ pkt => isPacket pkt
  | .atomicAdd _ pkt => isPacket pkt
  | .fetchAdd _ pkt => isPacket pkt
  | .readData _ pkt => isPacket pkt
  | .writeAck _ pkt => isPacket pkt
  | .atomicAck _ pkt => isPacket pkt
  | .requestTimeout .. => true
  | .neighbourNotice pkt => isPacket pkt
  | .joinAnnounce _ pkt => isPacket pkt
  | .joinAnnounceRepeat => true
  | .joinAccept pkt => isPacket pkt
  | .joinRefuse pkt => isPacket pkt
  | .detach pkt => isPacket pkt
  | .detachRequestsDrained => true
  | .detachDone pkt => isPacket pkt
  | .fabricReset pkt _ _ => isPacket pkt
  | .frstGo .. => true
  | .bcast _ pkt => isPacket pkt
  | .planSeg pkt => isPacket pkt
  | .pushDone pkt => isPacket pkt
  | .telemetry pkt => isPacket pkt
  | .routeCheck => true
  | .adoptNow => true
  | .partitionEnable .. => true
  | .partitionDisable .. => true
  | .flushDone .. => true
  | .regulatorWrite .. => true
  | .memoryAccess _ write addr data len _ _ _ => decide (1 ≤ len) && decide (addr.toNat % 128 + len ≤ 128) && (!write || decide (data.length = len))
  | .missGrant .. => true
  | .regulatorIssue .. => true
  | .lineFillDone .. => true
  | .atomicRequest .. => true
  | .adderComplete .. => true
  | .scrubRead .. => true
  | .softRemapDone .. => true
  | .remapReq .. => true
  | .remapLogAppend => true
  | .logCompaction => true
  | .tgStart .. => true
  | .tgStop .. => true
  | .tgDone _ flips _ => flips.all (fun x => decide (x.2 < 8))
  | .tempRead .. => true
  | .stackSelfRefresh .. => true
  | .selfRefreshExit .. => true
  | .rowlogicBatchStart .. => true
  | .rlgNop .. => true
  | .copy .. => true
  | .not .. => true
  | .and .. => true
  | .or .. => true
  | .xor .. => true
  | .maj .. => true
  | .accClear .. => true
  | .accLoad .. => true
  | .accAdd .. => true
  | .accStore .. => true
  | .chainMove .. => true
  | .chainAdd .. => true
  | .rlFenceGo => true
  | .rlFenceComplete => true
  | .rlgSubmit .. => true
  | .streamBatchStart .. => true
  | .streamNop .. => true
  | .movi .. => true
  | .streamAdd .. => true
  | .addi .. => true
  | .muli .. => true
  | .ld64 .. => true
  | .setl .. => true
  | .setlr .. => true
  | .endl .. => true
  | .emit .. => true
  | .emitw .. => true
  | .layer .. => true
  | .rlf .. => true
  | .streamEnd .. => true
  | .tileAllocate => true
  | .tileReady .. => true
  | .outputTileCommit .. => true
  | .streamBatchComplete .. => true
  | .groupDrain .. => true
  | .pageMigration .. => true
  | .contextHalt .. => true
  | .contextHalted .. => true
  | .streamResume .. => true
  | .contextSave .. => true
  | .contextRestore .. => true
  | .floorWrite .. => true
  | .waitforTrace .. => true
  | .engineBatchStart .. => true
  | .engineFetch .. => true
  | .ruleNop .. => true
  | .vadd .. => true
  | .vsub .. => true
  | .vmul .. => true
  | .vfma .. => true
  | .vfnma .. => true
  | .vmax .. => true
  | .vmin .. => true
  | .vabs .. => true
  | .vneg .. => true
  | .vsign .. => true
  | .vsel .. => true
  | .vcmplt .. => true
  | .vrcp .. => true
  | .vsqrt .. => true
  | .vrsqrt .. => true
  | .vdiv .. => true
  | .vrnd .. => true
  | .emset .. => true
  | .emadd .. => true
  | .emupd .. => true
  | .emrnd .. => true
  | .srbf .. => true
  | .rnbf .. => true
  | .vld .. => true
  | .vst .. => true
  | .vacc .. => true
  | .vrsum .. => true
  | .qstat .. => true
  | .ruleEnd .. => true
  | .engineBatchComplete .. => true
  | .engineHalt .. => true
  | .engineSave .. => true
  | .engineRestore .. => true
  | .engineSubmit .. => true
  | .ruleStoreWrite .. => true
  | .derivePass .. => true
  | .engineFenceWb => true
  | .engineFenceWbinv => true
  | .fabricFence => true
  | .engineFenceComplete => true
  | .fabricFenceComplete => true
  | .matrixJobStart .. => true
  | .mxaSubmit .. => true
  | .matrixPass => true
  | .matrixJobComplete => true
  | .poolLoad .. => true
  | .poolUnload .. => true
  | .labFlush .. => true
  | .mmuInval .. => true
  | .kvWindowStart .. => true
  | .kvRequestAccept .. => true
  | .kvWindowEnd .. => true
  | .kvOpen .. => true
  | .append .. => true
  | .attend .. => true
  | .attendBwd .. => true
  | .fork .. => true
  | .release .. => true
  | .kvRead .. => true
  | .rngSeedRead => true
  | .retest => true
  | .startupTestDone samples => decide (samples.length = 1024)
  | .noiseBlock samples => decide (samples.length = 256)
  | .lfsrSeed .. => true
  | .seedDone => true
  | .rdS .. => true
  | .rdX _ _ _ off data => decide (off.val + data.length ≤ 128)
  | .upg _ _ _ off data => decide (off.val + data.length ≤ 128)
  | .evict .. => true
  | .wb .. => true
  | .dataS .. => true
  | .dataE .. => true
  | .dataX .. => true
  | .upgAck .. => true
  | .evictAck .. => true
  | .wbAck .. => true
  | .wbSuperseded .. => true
  | .snpShare .. => true
  | .snpInv .. => true
  | .snpDiscard .. => true
  | .rspGone .. => true
  | .rspInv .. => true
  | .rspInvS .. => true
  | .rspData .. => true
  | .rspDataS .. => true
  | .snoopTimeout .. => true
  | .presenceDebounce .. => true
  | .presenceLost => true
  | .railPowerGood .. => true
  | .trip .. => true
  | .vinLow .. => true
  | .coolLoss => true
  | .coolLimitLift => true
  | .leak => true
  | .ejectOpened => true
  | .ejectClosed => true
  | .referenceRelock => true
  | .perst .. => true
  | .moduleReset .. => true
  | .computeReset .. => true
  | .planReset .. => true
  | .planResetHalted .. => true
  | .resetForced .. => true
  | .dieResetRelease => true
  | .imageSlotVerify .. => true
  | .coreReady .. => true
  | .coreReadyTimeout .. => true
  | .memoryReady _ _ lanes _ => lanes.all (fun x => decide (x.1 < 256) && decide (x.2 < 36))
  | .channelZeroed .. => true
  | .domainStart => true
  | .readyForPlan => true
  | .bootLate => true
  | .throttleUpdate .. => true
  | .overcurrentThrottle => true
  | .dieHotThrottle => true
  | .telemetryInterval tel => decide (tel.length = 100)
  | .clusterGate .. => true
  | .p1Entry => true
  | .p1Exit => true
  | .pstateDone => true
  | .claimAck .. => true
  | .coalesceExpiry => true
  | .queueEnable .. => true
  | .sqDoorbell .. => true
  | .cqHeadWrite .. => true
  | .queueNop .. => true
  | .planLoad .. => true
  | .routeLoad .. => true
  | .ruleLoad .. => true
  | .copyIn .. => true
  | .copyOut .. => true
  | .queueArm .. => true
  | .queueDisarm .. => true
  | .queueDetach .. => true
  | .fence .. => true
  | .writeReg .. => true
  | .readReg .. => true
  | .hostReadTimeout .. => true
  | .hostMemoryRequest write off len data _ => decide (off.toNat + (if write then data.length else len) ≤ 2 ^ 41) && (if write then decide (data.length ≤ 512) else decide (len ≤ 4096))
  | .configRequest .. => true
  | .d3hot => true
  | .linkDown => true
  | .hotReset => true
  | .flashRead => true
  | .flashProgram .. => true
  | .flashErase .. => true
  | .fuseKeyHash .. => true
  | .fuseRevoke .. => true
  | .fuseSvn .. => true
  | .flashOpDone => true
  | .identity => true
  | .status => true
  | .regRead .. => true
  | .regWrite .. => true
  | .mgtTelemetry .. => true
  | .fault .. => true
  | .flashBuf _ data _ _ => data == [] || decide (data.length = 16)
  | .flashCmd .. => true
  | .reset .. => true
  | .locate .. => true
  | .alert .. => true
  | .alertResponse => true
  | .clusterUngate .. => true
  | .hostLinkUp speed width => decide (1 ≤ speed.val) && decide (speed.val ≤ 5) && [1, 2, 4, 8, 16].contains width.val
  | .hostReadCompletion _ _ data => decide (data.length ≤ 4096)
  | .rampComplete => true
  | .alignTimeout .. => true
  | .measureTimeout .. => true
  | .dieHot => true

end Sys2Proof
end

