-- ==== Sys2Proof/Config.lean ====
section
/-! DEFINITION. What the spec leaves open, as constants without a body: nothing can evaluate them and no proof can
lean on a value of theirs. `freeValue` is applied to a counter of State that every use advances. -/

namespace Sys2Proof.Config

/-- The n-th free value: a value of an effect that goes on although the spec does not state it (assumption 3). -/
opaque freeValue : Nat → Nat

/-- A byte of a frame whose layout changed (R180): epoch of the frame, then address (assumption 4). -/
opaque freeMem : Nat → Nat → BitVec 8

/-- The receive space of a port for VC 0 packets, in 16-byte units, which the spec does not state (R72; assumption 22). -/
opaque vc0Space : Nat

/-- The credits of a virtual channel with which a port comes UP, in 16-byte units: the partner's receive space, which the spec
does not state (R72; assumption 22). -/
opaque vcCredits : Nat → Nat

/-- What a counter shows after a sum past its largest value, by the key of its field and the sum: for most counters the spec
states neither a wrap nor a stop (assumption 5). -/
opaque pastMax : Nat → Nat → Nat

/-- An entry of the polynomial table of Imken's default image, of which the spec states entry 0 (R410, R412; assumption 2). -/
opaque defaultTaps : Nat → BitVec 64

end Sys2Proof.Config
end

