-- ==== Sys2Proof/Machine/Crc.lean ====
section
/-! DEFINITION. The checksums of the node: CRC-32C (R27, R71, R97, R225) and the 16-bit CRC of capability pages
(R63). -/

namespace Sys2Proof.Machine

/-- `n` shifts of a reflected CRC-32C register. -/
def crc32cShift : Nat → Nat → Nat
  | 0, c => c
  | n + 1, c => crc32cShift n (if c % 2 = 1 then Nat.xor (c / 2) 0x82F63B78 else c / 2)

/-- CRC-32C (Castagnoli), reflected, initial value and final XOR all ones. -/
def crc32c (bs : List Byte) : Nat :=
  Nat.xor (bs.foldl (fun c b => crc32cShift 8 (Nat.xor c b.toNat)) 0xFFFFFFFF) 0xFFFFFFFF

/-- `n` shifts of the 16-bit CRC register with polynomial 0x1021, most significant bit first. -/
def crc16Shift : Nat → Nat → Nat
  | 0, c => c
  | n + 1, c => crc16Shift n (if 0x8000 ≤ c then Nat.xor (c * 2 % 65536) 0x1021 else c * 2 % 65536)

/-- The page CRC of R63: polynomial 0x1021, initial value 0xFFFF, bytes in order, most significant bit first
(DEDUCED: the spec names no bit order; assumption 12). -/
def crc16 (bs : List Byte) : Nat :=
  bs.foldl (fun c b => crc16Shift 8 (Nat.xor c (b.toNat * 256))) 0xFFFF

end Sys2Proof.Machine
end

