-- ==== Sys2Proof/Machine/Fld.lean ====
section
/-! DEFINITION. What a register field is: its place, its access code (R2), its reset value and its retention code
(R6, R7). -/

namespace Sys2Proof.Machine

/-- Access codes (R2). -/
inductive Acc where
  | ro | rw | w1c | wo | rc
  deriving DecidableEq, Repr

/-- Retention codes (R6): no reset, plan, compute and plan, all but module, all but power, everything. -/
inductive Kept where
  | none | pl | cp | md | pw | nv
  deriving DecidableEq, Repr

/-- One register field. -/
structure Fld where
  reg : Nat
  lsb : Nat
  width : Nat
  acc : Acc
  reset : Nat
  kept : Kept
  fb : Bool
  img : Bool
  deriving DecidableEq, Repr

/-- The field's key: its bit address, eight times the BAR0 offset plus the bit number. -/
def Fld.key (f : Fld) : Nat := 8 * f.reg + f.lsb

/-- A run of registers of one layout inside a block: the offset of the first, the size of each in bytes, how many,
the stride, and the fields of register `i`. -/
structure Span where
  off : Nat
  size : Nat
  cnt : Nat
  stride : Nat
  flds : Nat → List Fld

/-- The index of the register of this span that holds block offset `o`, if one does. -/
def Span.index (p : Span) (o : Nat) : Option Nat :=
  if p.off ≤ o ∧ (o - p.off) / p.stride < p.cnt ∧ (o - p.off) % p.stride < p.size
  then some ((o - p.off) / p.stride) else none

end Sys2Proof.Machine
end

