-- ==== Sys2Proof/Machine/RegMap.lean ====
section
/-! DEFINITION. Every register field of the register index (R616 to R618), one definition a field, from the register
tables of the chapters: its register's BAR0 offset, its lowest bit, its width, its access code (R2), its reset value,
its retention code (R6), whether it is fabric-derived (R7) and whether its reset value is the image's. A field whose
table says image or fuse holds 0 until the image is applied or the fuses are read (assumption 2). -/

namespace Sys2Proof.Machine

/-! Registers of the identity and status block (chapters 14, 15, 19). -/

def idUidUid : Fld := ⟨0x0, 0, 128, .ro, 0, .pw, false, false⟩
def idPartCode : Fld := ⟨0x10, 0, 64, .ro, 0x0000314D2D524453, .pw, false, false⟩
def idSteppingStep : Fld := ⟨0x18, 0, 8, .ro, 0x10, .pw, false, false⟩
def idBootStatPhase : Fld := ⟨0x1c, 0, 4, .ro, 0, .md, false, false⟩
def idBootStatWindow : Fld := ⟨0x1c, 4, 1, .ro, 1, .md, false, false⟩
def idBootStatLate : Fld := ⟨0x1c, 5, 1, .ro, 0, .md, false, false⟩
def idBootStatSlot : Fld := ⟨0x1c, 6, 1, .ro, 0, .md, false, false⟩
def idBootStatFallback : Fld := ⟨0x1c, 7, 1, .ro, 0, .md, false, false⟩
def idBootStatMemDegraded : Fld := ⟨0x1c, 8, 1, .ro, 0, .md, false, false⟩
def idBootStatStartedDomain : Fld := ⟨0x1c, 9, 1, .ro, 0, .md, false, false⟩
def idBootStatStarts : Fld := ⟨0x1c, 16, 16, .ro, 0, .pw, false, false⟩
def idBootErrAReason : Fld := ⟨0x20, 0, 8, .ro, 0, .md, false, false⟩
def idBootErrBReason : Fld := ⟨0x20, 8, 8, .ro, 0, .md, false, false⟩
def idBootErrSection : Fld := ⟨0x20, 16, 6, .ro, 0, .md, false, false⟩
def idBootDropsWrites : Fld := ⟨0x24, 0, 32, .rc, 0, .md, false, false⟩
def idImageVerVersion : Fld := ⟨0x28, 0, 32, .ro, 0, .md, false, false⟩
def idImageSvnImage : Fld := ⟨0x2c, 0, 6, .ro, 0, .md, false, false⟩
def idImageSvnFuse : Fld := ⟨0x2c, 8, 6, .ro, 0, .pw, false, false⟩
def idKeyStatPresent : Fld := ⟨0x30, 0, 4, .ro, 0, .pw, false, false⟩
def idKeyStatRevoked : Fld := ⟨0x30, 4, 4, .ro, 0, .pw, false, false⟩
def idKeyStatUsed : Fld := ⟨0x30, 8, 2, .ro, 0, .md, false, false⟩
def idFwVerVersion : Fld := ⟨0x34, 0, 32, .ro, 0, .md, false, false⟩
def idBootCtlSlotPref : Fld := ⟨0x38, 0, 2, .rw, 0, .pw, false, false⟩
def idBootTimeUs (i : Nat) : Fld := ⟨0x40 + i * 0x4, 0, 32, .ro, 0, .md, false, false⟩
def idModuleStatPres : Fld := ⟨0x100, 0, 1, .ro, 0, .none, false, false⟩
def idModuleStatEjectOpen : Fld := ⟨0x100, 1, 1, .ro, 0, .none, false, false⟩
def idModuleStatCoolOk : Fld := ⟨0x100, 2, 1, .ro, 0, .none, false, false⟩
def idModuleStatLeak : Fld := ⟨0x100, 3, 1, .ro, 0, .none, false, false⟩
def idModuleStatMgtAddr : Fld := ⟨0x100, 4, 3, .ro, 0, .pw, false, false⟩
def idModuleStatLastTrip : Fld := ⟨0x100, 7, 4, .ro, 0, .pw, false, false⟩
def idModuleEvtEjectOpened : Fld := ⟨0x104, 0, 1, .w1c, 0, .md, false, false⟩
def idModuleEvtEjectClosed : Fld := ⟨0x104, 1, 1, .w1c, 0, .md, false, false⟩
def idModuleEvtCoolLoss : Fld := ⟨0x104, 2, 1, .w1c, 0, .md, false, false⟩
def idModuleEvtLeak : Fld := ⟨0x104, 3, 1, .w1c, 0, .md, false, false⟩
def idModuleEvtVinLow : Fld := ⟨0x104, 4, 1, .w1c, 0, .md, false, false⟩
def idModuleEvtClkSwitch : Fld := ⟨0x104, 5, 1, .w1c, 0, .md, false, false⟩
def idVinVolts : Fld := ⟨0x108, 0, 16, .ro, 0, .none, false, false⟩
def idVinAmps : Fld := ⟨0x108, 16, 16, .ro, 0, .none, false, false⟩
def idCoolantInlet : Fld := ⟨0x10c, 0, 10, .ro, 0, .none, false, false⟩
def idCoolantOutlet : Fld := ⟨0x10c, 16, 10, .ro, 0, .none, false, false⟩
def idClkStatSource : Fld := ⟨0x110, 0, 2, .ro, 0, .md, true, false⟩
def idClkStatPort : Fld := ⟨0x110, 2, 4, .ro, 0, .md, true, false⟩
def idClkStatLocked : Fld := ⟨0x110, 6, 1, .ro, 0, .md, false, false⟩
def idClkStatSwitches : Fld := ⟨0x110, 16, 16, .rc, 0, .md, false, false⟩
def idLedCtlLocate : Fld := ⟨0x114, 0, 1, .rw, 0, .md, false, false⟩
def idLedCtlStatusShown : Fld := ⟨0x114, 1, 3, .ro, 0, .none, false, false⟩
def idLedCtlSafe : Fld := ⟨0x114, 4, 1, .ro, 0, .none, false, false⟩
def idFlashCtlOp : Fld := ⟨0x10000, 0, 3, .rw, 0, .none, false, false⟩
def idFlashCtlGo : Fld := ⟨0x10000, 3, 1, .wo, 0, .none, false, false⟩
def idFlashCtlKey : Fld := ⟨0x10000, 16, 16, .wo, 0, .none, false, false⟩
def idFlashAddrOffset : Fld := ⟨0x10004, 0, 28, .rw, 0, .none, false, false⟩
def idFlashLenBytes : Fld := ⟨0x10008, 0, 13, .rw, 0, .none, false, false⟩
def idFlashStatBusy : Fld := ⟨0x1000c, 0, 1, .ro, 0, .none, false, false⟩
def idFlashStatDone : Fld := ⟨0x1000c, 1, 1, .w1c, 0, .none, false, false⟩
def idFlashStatRefused : Fld := ⟨0x1000c, 2, 1, .w1c, 0, .none, false, false⟩
def idFlashStatReason : Fld := ⟨0x1000c, 4, 4, .ro, 0, .none, false, false⟩
def idFuseArgFuseOp : Fld := ⟨0x10010, 0, 2, .rw, 0, .none, false, false⟩
def idFuseArgSlot : Fld := ⟨0x10010, 2, 2, .rw, 0, .none, false, false⟩
def idFuseArgSvn : Fld := ⟨0x10010, 4, 6, .rw, 0, .none, false, false⟩
def idBootEvtWindowClosed : Fld := ⟨0x10014, 0, 1, .w1c, 0, .md, false, false⟩
def idBootEvtFailed : Fld := ⟨0x10014, 1, 1, .w1c, 0, .md, false, false⟩
def idMgtCtlAlertEn : Fld := ⟨0x10018, 0, 6, .rw, 0, .pw, false, false⟩

/-! Registers of the the fabric tick (chapter 01). -/

def tickStatusLock : Fld := ⟨0x100000, 0, 2, .ro, 0, .md, true, false⟩
def tickStatusTk : Fld := ⟨0x100000, 2, 1, .ro, 0, .md, true, false⟩
def tickStatusActiveBank : Fld := ⟨0x100000, 3, 1, .ro, 0, .none, false, false⟩
def tickStatusBankEmpty : Fld := ⟨0x100000, 4, 1, .ro, 1, .none, false, false⟩
def tickStatusMissed : Fld := ⟨0x100000, 5, 5, .ro, 0, .md, true, false⟩
def tickPeriodCycles : Fld := ⟨0x100004, 0, 21, .ro, 0, .md, true, true⟩
def tickCountCount : Fld := ⟨0x100008, 0, 64, .ro, 0, .md, true, false⟩
def tickPhaseErrErr : Fld := ⟨0x100010, 0, 32, .ro, 0, .md, true, false⟩
def tickTkNode : Fld := ⟨0x100014, 0, 12, .ro, 0, .md, true, false⟩
def tickTkRank : Fld := ⟨0x100014, 12, 3, .ro, 0, .md, true, false⟩
def tickTkEpoch : Fld := ⟨0x100014, 16, 16, .ro, 0, .md, true, false⟩
def tickRankRank : Fld := ⟨0x100018, 0, 4, .rw, 0, .md, false, true⟩
def tickBeaconPortUp : Fld := ⟨0x10001c, 0, 4, .ro, 0, .md, true, false⟩
def tickBeaconPortAlt : Fld := ⟨0x10001c, 4, 4, .ro, 0, .md, true, false⟩
def tickBeaconPortDown : Fld := ⟨0x10001c, 16, 16, .ro, 0, .md, true, false⟩
def tickHoldCtlAuto : Fld := ⟨0x100020, 0, 1, .rw, 0, .md, false, true⟩
def tickHoldStatGranted : Fld := ⟨0x100024, 0, 3, .ro, 0, .md, false, false⟩
def tickHoldStatRequests : Fld := ⟨0x100024, 16, 16, .rc, 0, .md, false, false⟩
def tickMarginDefaultPct : Fld := ⟨0x100028, 0, 8, .rw, 0, .md, false, true⟩
def tickPlanStatusReason : Fld := ⟨0x100030, 0, 8, .ro, 0, .none, false, false⟩
def tickPlanStatusSlot : Fld := ⟨0x100030, 8, 10, .ro, 0, .none, false, false⟩
def tickPlanIdId (i : Nat) : Fld := ⟨0x100034 + i * 0x4, 0, 32, .ro, 0, .none, false, false⟩
def tickSwitchAtAt : Fld := ⟨0x100040, 0, 64, .rw, 0, .none, false, false⟩
def tickSwitchPlanId : Fld := ⟨0x100048, 0, 32, .rw, 0, .none, false, false⟩
def tickSwitchCtlArm : Fld := ⟨0x10004c, 0, 1, .wo, 0, .none, false, false⟩
def tickSwitchCtlDisarm : Fld := ⟨0x10004c, 1, 1, .wo, 0, .none, false, false⟩
def tickSwitchCtlForce : Fld := ⟨0x10004c, 2, 1, .rw, 0, .none, false, false⟩
def tickSwitchCtlArmed : Fld := ⟨0x10004c, 3, 1, .ro, 0, .none, false, false⟩
def tickSwitchCtlCommitted : Fld := ⟨0x10004c, 4, 1, .ro, 0, .none, false, false⟩
def tickSwitchCtlRefused : Fld := ⟨0x10004c, 5, 1, .w1c, 0, .none, false, false⟩
def tickLateItems : Fld := ⟨0x100050, 0, 16, .rc, 0, .md, false, false⟩
def tickLateSlips : Fld := ⟨0x100050, 16, 16, .rc, 0, .md, false, false⟩
def tickDropWrites : Fld := ⟨0x100054, 0, 32, .rc, 0, .md, false, false⟩
def tickEvtLockLost : Fld := ⟨0x100058, 0, 1, .w1c, 0, .md, false, false⟩
def tickEvtSwitchMismatch : Fld := ⟨0x100058, 1, 1, .w1c, 0, .md, false, false⟩
def tickEvtTakeover : Fld := ⟨0x100058, 2, 1, .w1c, 0, .md, false, false⟩
def tickEvtLate : Fld := ⟨0x100058, 3, 1, .w1c, 0, .md, false, false⟩
def tickLinkDelayPs (i : Nat) : Fld := ⟨0x100100 + i * 0x4, 0, 32, .ro, 0, .md, true, false⟩

/-! Registers of the Elvuno port n (chapter 02). -/

def elvCfgEnable (n : Nat) : Fld := ⟨0x200000 + n * 0x10000, 0, 1, .rw, 0, .md, false, true⟩
def elvCfgModes (n : Nat) : Fld := ⟨0x200000 + n * 0x10000, 1, 12, .rw, 0, .md, false, true⟩
def elvCfgNofec (n : Nat) : Fld := ⟨0x200000 + n * 0x10000, 13, 1, .rw, 0, .md, false, true⟩
def elvCtlRetrain (n : Nat) : Fld := ⟨0x200004 + n * 0x10000, 0, 1, .wo, 0, .none, false, false⟩
def elvCtlUnfence (n : Nat) : Fld := ⟨0x200004 + n * 0x10000, 1, 1, .wo, 0, .none, false, false⟩
def elvCtlRenegotiate (n : Nat) : Fld := ⟨0x200004 + n * 0x10000, 2, 1, .wo, 0, .none, false, false⟩
def elvStatState (n : Nat) : Fld := ⟨0x200008 + n * 0x10000, 0, 4, .ro, 0, .md, true, false⟩
def elvStatRank (n : Nat) : Fld := ⟨0x200008 + n * 0x10000, 4, 4, .ro, 0, .md, true, false⟩
def elvStatFec (n : Nat) : Fld := ⟨0x200008 + n * 0x10000, 8, 1, .ro, 0, .md, true, false⟩
def elvStatFenced (n : Nat) : Fld := ⟨0x200008 + n * 0x10000, 9, 1, .ro, 0, .md, true, false⟩
def elvStatReversed (n : Nat) : Fld := ⟨0x200008 + n * 0x10000, 10, 1, .ro, 0, .md, true, false⟩
def elvStatBcnIneligible (n : Nat) : Fld := ⟨0x200008 + n * 0x10000, 11, 1, .ro, 0, .md, true, false⟩
def elvStatCause (n : Nat) : Fld := ⟨0x200008 + n * 0x10000, 12, 4, .ro, 0, .md, false, false⟩
def elvStatAttempt (n : Nat) : Fld := ⟨0x200008 + n * 0x10000, 16, 8, .ro, 0, .md, false, false⟩
def elvLanePol (n : Nat) : Fld := ⟨0x20000c + n * 0x10000, 0, 8, .ro, 0, .md, true, false⟩
def elvLaneFail (n : Nat) : Fld := ⟨0x20000c + n * 0x10000, 8, 8, .ro, 0, .md, true, false⟩
def elvLaneFailRates (n : Nat) : Fld := ⟨0x20000c + n * 0x10000, 16, 3, .ro, 0, .md, true, false⟩
def elvPartnerNode (n : Nat) : Fld := ⟨0x200010 + n * 0x10000, 0, 12, .ro, 0, .md, true, false⟩
def elvPartnerPort (n : Nat) : Fld := ⟨0x200010 + n * 0x10000, 12, 4, .ro, 0, .md, true, false⟩
def elvPartnerModes (n : Nat) : Fld := ⟨0x200010 + n * 0x10000, 16, 12, .ro, 0, .md, true, false⟩
def elvPartnerNofec (n : Nat) : Fld := ⟨0x200010 + n * 0x10000, 28, 1, .ro, 0, .md, true, false⟩
def elvRttPs (n : Nat) : Fld := ⟨0x200014 + n * 0x10000, 0, 32, .ro, 0, .md, true, false⟩
def elvReplayWcNs (n : Nat) : Fld := ⟨0x200018 + n * 0x10000, 0, 32, .ro, 1500, .md, false, false⟩
def elvEvtUp (n : Nat) : Fld := ⟨0x20001c + n * 0x10000, 0, 1, .w1c, 0, .md, false, false⟩
def elvEvtDown (n : Nat) : Fld := ⟨0x20001c + n * 0x10000, 1, 1, .w1c, 0, .md, false, false⟩
def elvEvtExhaust (n : Nat) : Fld := ⟨0x20001c + n * 0x10000, 2, 1, .w1c, 0, .md, false, false⟩
def elvEvtRetrainOk (n : Nat) : Fld := ⟨0x20001c + n * 0x10000, 3, 1, .w1c, 0, .md, false, false⟩
def elvEvtDegraded (n : Nat) : Fld := ⟨0x20001c + n * 0x10000, 4, 1, .w1c, 0, .md, false, false⟩
def elvFlitsTxCount (n : Nat) : Fld := ⟨0x200020 + n * 0x10000, 0, 64, .ro, 0, .md, false, false⟩
def elvFlitsRxCount (n : Nat) : Fld := ⟨0x200028 + n * 0x10000, 0, 64, .ro, 0, .md, false, false⟩
def elvErrCrc (n : Nat) : Fld := ⟨0x200030 + n * 0x10000, 0, 16, .rc, 0, .md, false, false⟩
def elvErrProto (n : Nat) : Fld := ⟨0x200030 + n * 0x10000, 16, 16, .rc, 0, .md, false, false⟩
def elvReplayReplays (n : Nat) : Fld := ⟨0x200034 + n * 0x10000, 0, 8, .rc, 0, .md, false, false⟩
def elvReplayExhausts (n : Nat) : Fld := ⟨0x200034 + n * 0x10000, 8, 8, .rc, 0, .md, false, false⟩
def elvReplayRetrains (n : Nat) : Fld := ⟨0x200034 + n * 0x10000, 16, 8, .rc, 0, .md, false, false⟩
def elvReplayAckTo (n : Nat) : Fld := ⟨0x200034 + n * 0x10000, 24, 8, .rc, 0, .md, false, false⟩
def elvDupCount (n : Nat) : Fld := ⟨0x200038 + n * 0x10000, 0, 32, .rc, 0, .md, false, false⟩
def elvDropFenced (n : Nat) : Fld := ⟨0x20003c + n * 0x10000, 0, 16, .rc, 0, .md, false, false⟩
def elvDropVc0 (n : Nat) : Fld := ⟨0x20003c + n * 0x10000, 16, 16, .rc, 0, .md, false, false⟩
def elvLaneFec0CorrCw (n : Nat) (i : Nat) : Fld := ⟨0x200100 + n * 0x10000 + i * 0x10, 0, 32, .rc, 0, .md, false, false⟩
def elvLaneFec4UncorrCw (n : Nat) (i : Nat) : Fld := ⟨0x200104 + n * 0x10000 + i * 0x10, 0, 32, .rc, 0, .md, false, false⟩
def elvLaneFec8CorrSym (n : Nat) (i : Nat) : Fld := ⟨0x200108 + n * 0x10000 + i * 0x10, 0, 32, .rc, 0, .md, false, false⟩
def elvFecHistCount (n : Nat) (i : Nat) : Fld := ⟨0x200200 + n * 0x10000 + i * 0x4, 0, 32, .rc, 0, .md, false, false⟩

/-! Registers of the fabric membership (chapter 03). -/

def fabNodeIdId : Fld := ⟨0x400000, 0, 12, .ro, 0, .md, true, true⟩
def fabNodeIdValid : Fld := ⟨0x400000, 12, 1, .ro, 0, .md, true, false⟩
def fabStatusJoin : Fld := ⟨0x400004, 0, 3, .ro, 0, .md, true, false⟩
def fabStatusActiveBank : Fld := ⟨0x400004, 3, 1, .ro, 0, .md, true, false⟩
def fabStatusRoutes : Fld := ⟨0x400004, 4, 1, .ro, 0, .md, true, false⟩
def fabRouteStatusReason : Fld := ⟨0x400008, 0, 8, .ro, 0, .none, false, false⟩
def fabRouteStatusDead : Fld := ⟨0x400008, 8, 13, .ro, 0, .none, false, false⟩
def fabRouteCtlCheck : Fld := ⟨0x40000c, 0, 1, .wo, 0, .none, false, false⟩
def fabRouteCtlAdoptNow : Fld := ⟨0x40000c, 1, 1, .wo, 0, .none, false, false⟩
def fabRouteIdId (i : Nat) : Fld := ⟨0x400010 + i * 0x4, 0, 32, .ro, 0, .md, true, false⟩
def fabMgmtNodeNode : Fld := ⟨0x400018, 0, 12, .rw, 0, .md, false, true⟩
def fabAdminNodeNode : Fld := ⟨0x40001c, 0, 12, .rw, 0, .md, false, true⟩
def fabRemoteCtlMemEn : Fld := ⟨0x400020, 0, 1, .rw, 0, .md, false, true⟩
def fabRemoteCtlPlanWin : Fld := ⟨0x400020, 1, 1, .rw, 0, .md, false, true⟩
def fabRemoteCtlRouteWin : Fld := ⟨0x400020, 2, 1, .rw, 0, .md, false, true⟩
def fabRemoteCtlAllRegs : Fld := ⟨0x400020, 3, 1, .rw, 0, .md, false, true⟩
def fabRemoteCtlFrstEn : Fld := ⟨0x400020, 4, 1, .rw, 0, .md, false, true⟩
def fabReqTimeoutUs : Fld := ⟨0x400024, 0, 32, .rw, 0, .md, false, true⟩
def fabDetachAtAt : Fld := ⟨0x400028, 0, 64, .rw, 0, .none, false, false⟩
def fabCtlLeafBeacons : Fld := ⟨0x400030, 0, 1, .rw, 0, .md, false, true⟩
def fabFrstCmdTarget : Fld := ⟨0x400034, 0, 12, .rw, 0, .none, false, false⟩
def fabFrstCmdGo : Fld := ⟨0x400034, 12, 1, .wo, 0, .none, false, false⟩
def fabEvtNeighbour : Fld := ⟨0x400038, 0, 1, .w1c, 0, .md, false, false⟩
def fabEvtMember : Fld := ⟨0x400038, 1, 1, .w1c, 0, .md, false, false⟩
def fabEvtRouteSwap : Fld := ⟨0x400038, 2, 1, .w1c, 0, .md, false, false⟩
def fabEvtTimeout : Fld := ⟨0x400038, 3, 1, .w1c, 0, .md, false, false⟩
def fabEvtRefused : Fld := ⟨0x400038, 4, 1, .w1c, 0, .md, false, false⟩
def fabReqStatOutstanding : Fld := ⟨0x40003c, 0, 11, .ro, 0, .none, false, false⟩
def fabReqStatTimeouts : Fld := ⟨0x40003c, 16, 16, .rc, 0, .md, false, false⟩
def fabDropNoRoute : Fld := ⟨0x400040, 0, 16, .rc, 0, .md, false, false⟩
def fabDropUnmatched : Fld := ⟨0x400040, 16, 16, .rc, 0, .md, false, false⟩

/-! Registers of the collectives (chapter 04). -/

def calStatusState : Fld := ⟨0x600000, 0, 2, .ro, 0, .md, false, false⟩
def calStatusOut : Fld := ⟨0x600000, 2, 1, .ro, 0, .md, false, false⟩
def calStatusGatherPending : Fld := ⟨0x600000, 3, 1, .ro, 0, .md, false, false⟩
def calStatusDescReason : Fld := ⟨0x600000, 4, 8, .ro, 0, .none, false, false⟩
def calCtlRetryMax : Fld := ⟨0x600004, 0, 4, .rw, 0, .md, false, true⟩
def calCtlAbortNonfinite : Fld := ⟨0x600004, 4, 1, .rw, 0, .md, false, true⟩
def calCtlResume : Fld := ⟨0x600004, 5, 1, .wo, 0, .none, false, false⟩
def calStepStep : Fld := ⟨0x600008, 0, 64, .rw, 0, .md, false, false⟩
def calTryTry : Fld := ⟨0x600010, 0, 4, .ro, 0, .md, false, false⟩
def calEvtAbort : Fld := ⟨0x600014, 0, 1, .w1c, 0, .md, false, false⟩
def calEvtVerdictLost : Fld := ⟨0x600014, 1, 1, .w1c, 0, .md, false, false⟩
def calEvtVerdictLate : Fld := ⟨0x600014, 2, 1, .w1c, 0, .md, false, false⟩
def calEvtGatherRepeat : Fld := ⟨0x600014, 3, 1, .w1c, 0, .md, false, false⟩
def calEvtGatherFailed : Fld := ⟨0x600014, 4, 1, .w1c, 0, .md, false, false⟩
def calEvtRetryExhausted : Fld := ⟨0x600014, 5, 1, .w1c, 0, .md, false, false⟩
def calEvtOverflow : Fld := ⟨0x600014, 6, 1, .w1c, 0, .md, false, false⟩
def calEvtNonfinite : Fld := ⟨0x600014, 7, 1, .w1c, 0, .md, false, false⟩
def calEvtPostcommitLate : Fld := ⟨0x600014, 8, 1, .w1c, 0, .md, false, false⟩
def calDropStale : Fld := ⟨0x600018, 0, 16, .rc, 0, .md, false, false⟩
def calDropMismatch : Fld := ⟨0x600018, 16, 16, .rc, 0, .md, false, false⟩
def calIncompleteWindows : Fld := ⟨0x60001c, 0, 32, .rc, 0, .md, false, false⟩
def calVerdictLast : Fld := ⟨0x600020, 0, 64, .ro, 0, .md, false, false⟩
def calResolveStep : Fld := ⟨0x600028, 0, 32, .rw, 0, .none, false, false⟩
def calResolveVerdict : Fld := ⟨0x600028, 32, 4, .rw, 0, .none, false, false⟩
def calResolveGo : Fld := ⟨0x600028, 63, 1, .wo, 0, .none, false, false⟩
def calVlogEntry (i : Nat) : Fld := ⟨0x600100 + i * 0x8, 0, 64, .ro, 0, .md, false, false⟩

/-! Registers of the memory (chapter 05). -/

def memStatusEnabled : Fld := ⟨0x800000, 0, 16, .ro, 0, .md, false, false⟩
def memStatusFlushing : Fld := ⟨0x800000, 16, 1, .ro, 0, .md, false, false⟩
def memStatusReady : Fld := ⟨0x800000, 17, 1, .ro, 0, .md, false, false⟩
def memCacheCtlKeepWays : Fld := ⟨0x800004, 0, 4, .rw, 0, .md, false, true⟩
def memEvtPartRefused : Fld := ⟨0x800008, 0, 1, .w1c, 0, .md, false, false⟩
def memEvtAtomicOvf : Fld := ⟨0x800008, 1, 1, .w1c, 0, .md, false, false⟩
def memEvtMapErr : Fld := ⟨0x800008, 2, 1, .w1c, 0, .md, false, false⟩
def memEvtFlushDone : Fld := ⟨0x800008, 3, 1, .w1c, 0, .md, false, false⟩
def memAtomicStatNan : Fld := ⟨0x80000c, 0, 16, .rc, 0, .md, false, false⟩
def memAtomicStatOvf : Fld := ⟨0x80000c, 16, 16, .rc, 0, .md, false, false⟩
def memMapErrAddr : Fld := ⟨0x800010, 0, 48, .ro, 0, .md, false, false⟩
def memMapErrCause : Fld := ⟨0x800010, 48, 2, .ro, 0, .md, false, false⟩
def memCacheHitsCount : Fld := ⟨0x800020, 0, 64, .ro, 0, .md, false, false⟩
def memCacheMissesCount : Fld := ⟨0x800028, 0, 64, .ro, 0, .md, false, false⟩
def memCacheDropsCount : Fld := ⟨0x800030, 0, 32, .rc, 0, .md, false, false⟩
def memPartCfgEnable (i : Nat) : Fld := ⟨0x800100 + i * 0x40, 0, 1, .rw, 0, .md, false, true⟩
def memPartCfgTier (i : Nat) : Fld := ⟨0x800100 + i * 0x40, 1, 1, .rw, 0, .md, false, true⟩
def memPartCfgMode (i : Nat) : Fld := ⟨0x800100 + i * 0x40, 2, 1, .rw, 0, .md, false, true⟩
def memPartCfgArb (i : Nat) : Fld := ⟨0x800100 + i * 0x40, 3, 1, .rw, 0, .md, false, true⟩
def memPartCfgRegEn (i : Nat) : Fld := ⟨0x800100 + i * 0x40, 4, 1, .rw, 0, .md, false, true⟩
def memPartCfgDraining (i : Nat) : Fld := ⟨0x800100 + i * 0x40, 5, 1, .ro, 0, .md, false, false⟩
def memPartCfgRefused (i : Nat) : Fld := ⟨0x800100 + i * 0x40, 6, 1, .w1c, 0, .md, false, false⟩
def memPartCfgCause (i : Nat) : Fld := ⟨0x800100 + i * 0x40, 7, 4, .ro, 0, .md, false, false⟩
def memPartRangeFirst (i : Nat) : Fld := ⟨0x800104 + i * 0x40, 0, 10, .rw, 0, .md, false, true⟩
def memPartRangeFrames (i : Nat) : Fld := ⟨0x800104 + i * 0x40, 16, 10, .rw, 0, .md, false, true⟩
def memPartRateRate (i : Nat) : Fld := ⟨0x800108 + i * 0x40, 0, 17, .rw, 0, .md, false, true⟩
def memPartBurstKib (i : Nat) : Fld := ⟨0x80010c + i * 0x40, 0, 16, .rw, 0, .md, false, true⟩
def memPartSplitReadPct (i : Nat) : Fld := ⟨0x800110 + i * 0x40, 0, 8, .rw, 0, .md, false, true⟩
def memPartSplitWritePct (i : Nat) : Fld := ⟨0x800110 + i * 0x40, 8, 8, .rw, 0, .md, false, true⟩
def memPartSplitRemotePct (i : Nat) : Fld := ⟨0x800110 + i * 0x40, 16, 8, .rw, 0, .md, false, true⟩
def memPartSlackCycles (i : Nat) : Fld := ⟨0x800114 + i * 0x40, 0, 24, .rw, 0, .md, false, true⟩
def memPartStallCycles (i : Nat) : Fld := ⟨0x800118 + i * 0x40, 0, 32, .rc, 0, .md, false, false⟩
def memPartBytesCount (i : Nat) : Fld := ⟨0x800120 + i * 0x40, 0, 64, .ro, 0, .md, false, false⟩
def memLossCount (i : Nat) : Fld := ⟨0x800600 + i * 0x4, 0, 32, .rc, 0, .md, false, false⟩

/-! Registers of the HBM stack s (chapter 06). -/

def hbmStatusTrained (s : Nat) : Fld := ⟨0xa00000 + s * 0x10000, 0, 1, .ro, 0, .md, false, false⟩
def hbmStatusRemaps (s : Nat) : Fld := ⟨0xa00000 + s * 0x10000, 1, 10, .ro, 0, .md, false, false⟩
def hbmCtlScrubEn (s : Nat) : Fld := ⟨0xa00004 + s * 0x10000, 0, 1, .rw, 0, .md, false, true⟩
def hbmCtlCeLimit (s : Nat) : Fld := ⟨0xa00004 + s * 0x10000, 1, 8, .rw, 0, .md, false, true⟩
def hbmScrubGapCycles (s : Nat) : Fld := ⟨0xa00008 + s * 0x10000, 0, 24, .rw, 0, .md, false, true⟩
def hbmTempDegC (s : Nat) : Fld := ⟨0xa0000c + s * 0x10000, 0, 8, .ro, 0, .md, false, false⟩
def hbmTempClass (s : Nat) : Fld := ⟨0xa0000c + s * 0x10000, 8, 2, .ro, 0, .md, false, false⟩
def hbmTempSensorFail (s : Nat) : Fld := ⟨0xa0000c + s * 0x10000, 10, 1, .ro, 0, .md, false, false⟩
def hbmTempMax (s : Nat) : Fld := ⟨0xa0000c + s * 0x10000, 16, 8, .rc, 0, .md, false, false⟩
def hbmEvtUe (s : Nat) : Fld := ⟨0xa00010 + s * 0x10000, 0, 1, .w1c, 0, .md, false, false⟩
def hbmEvtRemap (s : Nat) : Fld := ⟨0xa00010 + s * 0x10000, 1, 1, .w1c, 0, .md, false, false⟩
def hbmEvtSpareOut (s : Nat) : Fld := ⟨0xa00010 + s * 0x10000, 2, 1, .w1c, 0, .md, false, false⟩
def hbmEvtLaneSuspect (s : Nat) : Fld := ⟨0xa00010 + s * 0x10000, 3, 1, .w1c, 0, .md, false, false⟩
def hbmEvtLogFull (s : Nat) : Fld := ⟨0xa00010 + s * 0x10000, 4, 1, .w1c, 0, .md, false, false⟩
def hbmEvtClassChange (s : Nat) : Fld := ⟨0xa00010 + s * 0x10000, 5, 1, .w1c, 0, .md, false, false⟩
def hbmFailedPcMask (s : Nat) : Fld := ⟨0xa00014 + s * 0x10000, 0, 32, .ro, 0, .md, false, false⟩
def hbmUeAddrAddr (s : Nat) : Fld := ⟨0xa00018 + s * 0x10000, 0, 48, .ro, 0, .md, false, false⟩
def hbmRemapReqRow (s : Nat) : Fld := ⟨0xa00020 + s * 0x10000, 0, 16, .rw, 0, .none, false, false⟩
def hbmRemapReqPc (s : Nat) : Fld := ⟨0xa00020 + s * 0x10000, 16, 5, .rw, 0, .none, false, false⟩
def hbmRemapReqBank (s : Nat) : Fld := ⟨0xa00020 + s * 0x10000, 21, 4, .rw, 0, .none, false, false⟩
def hbmRemapReqGo (s : Nat) : Fld := ⟨0xa00020 + s * 0x10000, 25, 1, .wo, 0, .none, false, false⟩
def hbmPcErrCe (s : Nat) (i : Nat) : Fld := ⟨0xa00100 + s * 0x10000 + i * 0x40, 0, 16, .rc, 0, .md, false, false⟩
def hbmPcErrUe (s : Nat) (i : Nat) : Fld := ⟨0xa00100 + s * 0x10000 + i * 0x40, 16, 16, .rc, 0, .md, false, false⟩
def hbmPcLaneSpare0 (s : Nat) (i : Nat) : Fld := ⟨0xa00104 + s * 0x10000 + i * 0x40, 0, 6, .ro, 0x3F, .md, false, false⟩
def hbmPcLaneSpare1 (s : Nat) (i : Nat) : Fld := ⟨0xa00104 + s * 0x10000 + i * 0x40, 6, 6, .ro, 0x3F, .md, false, false⟩
def hbmPcLaneSuspect (s : Nat) (i : Nat) : Fld := ⟨0xa00104 + s * 0x10000 + i * 0x40, 12, 6, .ro, 0x3F, .md, false, false⟩
def hbmPcPassesCount (s : Nat) (i : Nat) : Fld := ⟨0xa00108 + s * 0x10000 + i * 0x40, 0, 32, .ro, 0, .md, false, false⟩
def hbmTgCtlStart (s : Nat) (i : Nat) : Fld := ⟨0xa0010c + s * 0x10000 + i * 0x40, 0, 1, .wo, 0, .none, false, false⟩
def hbmTgCtlStop (s : Nat) (i : Nat) : Fld := ⟨0xa0010c + s * 0x10000 + i * 0x40, 1, 1, .wo, 0, .none, false, false⟩
def hbmTgCtlBusy (s : Nat) (i : Nat) : Fld := ⟨0xa0010c + s * 0x10000 + i * 0x40, 2, 1, .ro, 0, .none, false, false⟩
def hbmTgCtlDone (s : Nat) (i : Nat) : Fld := ⟨0xa0010c + s * 0x10000 + i * 0x40, 3, 1, .w1c, 0, .none, false, false⟩
def hbmTgCtlRefused (s : Nat) (i : Nat) : Fld := ⟨0xa0010c + s * 0x10000 + i * 0x40, 4, 1, .w1c, 0, .none, false, false⟩
def hbmTgCtlAborted (s : Nat) (i : Nat) : Fld := ⟨0xa0010c + s * 0x10000 + i * 0x40, 5, 1, .w1c, 0, .none, false, false⟩
def hbmTgCtlMode (s : Nat) (i : Nat) : Fld := ⟨0xa0010c + s * 0x10000 + i * 0x40, 6, 2, .rw, 0, .none, false, false⟩
def hbmTgCtlOrder (s : Nat) (i : Nat) : Fld := ⟨0xa0010c + s * 0x10000 + i * 0x40, 8, 2, .rw, 0, .none, false, false⟩
def hbmTgCtlPattern (s : Nat) (i : Nat) : Fld := ⟨0xa0010c + s * 0x10000 + i * 0x40, 10, 2, .rw, 0, .none, false, false⟩
def hbmTgCtlGap (s : Nat) (i : Nat) : Fld := ⟨0xa0010c + s * 0x10000 + i * 0x40, 12, 16, .rw, 0, .none, false, false⟩
def hbmTgRangeFirst (s : Nat) (i : Nat) : Fld := ⟨0xa00110 + s * 0x10000 + i * 0x40, 0, 10, .rw, 0, .none, false, false⟩
def hbmTgRangeFrames (s : Nat) (i : Nat) : Fld := ⟨0xa00110 + s * 0x10000 + i * 0x40, 16, 10, .rw, 0, .none, false, false⟩
def hbmTgCountCount (s : Nat) (i : Nat) : Fld := ⟨0xa00114 + s * 0x10000 + i * 0x40, 0, 32, .rw, 0, .none, false, false⟩
def hbmTgSeedSeed (s : Nat) (i : Nat) : Fld := ⟨0xa00118 + s * 0x10000 + i * 0x40, 0, 32, .rw, 0, .none, false, false⟩
def hbmTgWordWord (s : Nat) (i : Nat) : Fld := ⟨0xa0011c + s * 0x10000 + i * 0x40, 0, 32, .rw, 0, .none, false, false⟩
def hbmTgResultMiscompares (s : Nat) (i : Nat) : Fld := ⟨0xa00120 + s * 0x10000 + i * 0x40, 0, 32, .ro, 0, .none, false, false⟩
def hbmTgLanesLanes (s : Nat) (i : Nat) : Fld := ⟨0xa00124 + s * 0x10000 + i * 0x40, 0, 32, .ro, 0, .none, false, false⟩
def hbmTgFailAddr (s : Nat) (i : Nat) : Fld := ⟨0xa00128 + s * 0x10000 + i * 0x40, 0, 48, .ro, 0, .none, false, false⟩
def hbmRemapRow (s : Nat) (i : Nat) : Fld := ⟨0xa01000 + s * 0x10000 + i * 0x8, 0, 16, .ro, 0, .nv, false, false⟩
def hbmRemapPc (s : Nat) (i : Nat) : Fld := ⟨0xa01000 + s * 0x10000 + i * 0x8, 16, 5, .ro, 0, .nv, false, false⟩
def hbmRemapBank (s : Nat) (i : Nat) : Fld := ⟨0xa01000 + s * 0x10000 + i * 0x8, 21, 4, .ro, 0, .nv, false, false⟩
def hbmRemapSpare (s : Nat) (i : Nat) : Fld := ⟨0xa01000 + s * 0x10000 + i * 0x8, 25, 1, .ro, 0, .nv, false, false⟩
def hbmRemapValid (s : Nat) (i : Nat) : Fld := ⟨0xa01000 + s * 0x10000 + i * 0x8, 26, 1, .ro, 0, .nv, false, false⟩

/-! Registers of the deep tier, by analogy with the stack (chapter 06). -/

def dtcStatusTrained : Fld := ⟨0xb00000, 0, 1, .ro, 0, .md, false, false⟩
def dtcStatusRemaps : Fld := ⟨0xb00000, 1, 10, .ro, 0, .md, false, false⟩
def dtcCtlScrubEn : Fld := ⟨0xb00004, 0, 1, .rw, 0, .md, false, true⟩
def dtcCtlCeLimit : Fld := ⟨0xb00004, 1, 8, .rw, 0, .md, false, true⟩
def dtcScrubGapCycles : Fld := ⟨0xb00008, 0, 24, .rw, 0, .md, false, true⟩
def dtcEvtUe : Fld := ⟨0xb00010, 0, 1, .w1c, 0, .md, false, false⟩
def dtcEvtRemap : Fld := ⟨0xb00010, 1, 1, .w1c, 0, .md, false, false⟩
def dtcEvtSpareOut : Fld := ⟨0xb00010, 2, 1, .w1c, 0, .md, false, false⟩
def dtcEvtLaneSuspect : Fld := ⟨0xb00010, 3, 1, .w1c, 0, .md, false, false⟩
def dtcEvtLogFull : Fld := ⟨0xb00010, 4, 1, .w1c, 0, .md, false, false⟩
def dtcEvtClassChange : Fld := ⟨0xb00010, 5, 1, .w1c, 0, .md, false, false⟩
def dtcFailedChMask : Fld := ⟨0xb00014, 0, 32, .ro, 0, .md, false, false⟩
def dtcUeAddrAddr : Fld := ⟨0xb00018, 0, 48, .ro, 0, .md, false, false⟩
def dtcRemapReqBlock : Fld := ⟨0xb00020, 0, 19, .rw, 0, .none, false, false⟩
def dtcRemapReqChannel : Fld := ⟨0xb00020, 19, 5, .rw, 0, .none, false, false⟩
def dtcRemapReqGo : Fld := ⟨0xb00020, 24, 1, .wo, 0, .none, false, false⟩
def dtcChErrCe (i : Nat) : Fld := ⟨0xb00100 + i * 0x40, 0, 16, .rc, 0, .md, false, false⟩
def dtcChErrUe (i : Nat) : Fld := ⟨0xb00100 + i * 0x40, 16, 16, .rc, 0, .md, false, false⟩
def dtcChPassesCount (i : Nat) : Fld := ⟨0xb00108 + i * 0x40, 0, 32, .ro, 0, .md, false, false⟩
def dtcTgCtlStart (i : Nat) : Fld := ⟨0xb0010c + i * 0x40, 0, 1, .wo, 0, .none, false, false⟩
def dtcTgCtlStop (i : Nat) : Fld := ⟨0xb0010c + i * 0x40, 1, 1, .wo, 0, .none, false, false⟩
def dtcTgCtlBusy (i : Nat) : Fld := ⟨0xb0010c + i * 0x40, 2, 1, .ro, 0, .none, false, false⟩
def dtcTgCtlDone (i : Nat) : Fld := ⟨0xb0010c + i * 0x40, 3, 1, .w1c, 0, .none, false, false⟩
def dtcTgCtlRefused (i : Nat) : Fld := ⟨0xb0010c + i * 0x40, 4, 1, .w1c, 0, .none, false, false⟩
def dtcTgCtlAborted (i : Nat) : Fld := ⟨0xb0010c + i * 0x40, 5, 1, .w1c, 0, .none, false, false⟩
def dtcTgCtlMode (i : Nat) : Fld := ⟨0xb0010c + i * 0x40, 6, 2, .rw, 0, .none, false, false⟩
def dtcTgCtlOrder (i : Nat) : Fld := ⟨0xb0010c + i * 0x40, 8, 2, .rw, 0, .none, false, false⟩
def dtcTgCtlPattern (i : Nat) : Fld := ⟨0xb0010c + i * 0x40, 10, 2, .rw, 0, .none, false, false⟩
def dtcTgCtlGap (i : Nat) : Fld := ⟨0xb0010c + i * 0x40, 12, 16, .rw, 0, .none, false, false⟩
def dtcTgRangeFirst (i : Nat) : Fld := ⟨0xb00110 + i * 0x40, 0, 10, .rw, 0, .none, false, false⟩
def dtcTgRangeFrames (i : Nat) : Fld := ⟨0xb00110 + i * 0x40, 16, 10, .rw, 0, .none, false, false⟩
def dtcTgCountCount (i : Nat) : Fld := ⟨0xb00114 + i * 0x40, 0, 32, .rw, 0, .none, false, false⟩
def dtcTgSeedSeed (i : Nat) : Fld := ⟨0xb00118 + i * 0x40, 0, 32, .rw, 0, .none, false, false⟩
def dtcTgWordWord (i : Nat) : Fld := ⟨0xb0011c + i * 0x40, 0, 32, .rw, 0, .none, false, false⟩
def dtcTgResultMiscompares (i : Nat) : Fld := ⟨0xb00120 + i * 0x40, 0, 32, .ro, 0, .none, false, false⟩
def dtcTgLanesLanes (i : Nat) : Fld := ⟨0xb00124 + i * 0x40, 0, 32, .ro, 0, .none, false, false⟩
def dtcTgFailAddr (i : Nat) : Fld := ⟨0xb00128 + i * 0x40, 0, 48, .ro, 0, .none, false, false⟩
def dtcRemapBlock (i : Nat) : Fld := ⟨0xb01000 + i * 0x8, 0, 32, .ro, 0, .nv, false, false⟩
def dtcRemapChannel (i : Nat) : Fld := ⟨0xb01000 + i * 0x8, 32, 5, .ro, 0, .nv, false, false⟩
def dtcRemapSpare (i : Nat) : Fld := ⟨0xb01000 + i * 0x8, 37, 6, .ro, 0, .nv, false, false⟩
def dtcRemapValid (i : Nat) : Fld := ⟨0xb01000 + i * 0x8, 43, 1, .ro, 0, .nv, false, false⟩

/-! Registers of the row logic (chapter 07). -/

def rlgStatusBusy : Fld := ⟨0xc00000, 0, 8, .ro, 0, .pl, false, false⟩
def rlgStatusSuspended : Fld := ⟨0xc00000, 8, 8, .ro, 0, .pl, false, false⟩
def rlgStatusFencePending : Fld := ⟨0xc00000, 16, 1, .ro, 0, .pl, false, false⟩
def rlgCtlEnable : Fld := ⟨0xc00004, 0, 1, .rw, 0, .md, false, true⟩
def rlgCtlYield : Fld := ⟨0xc00004, 1, 4, .rw, 0, .md, false, true⟩
def rlgPartEnMask : Fld := ⟨0xc00008, 0, 16, .rw, 0, .md, false, true⟩
def rlgEvtReject : Fld := ⟨0xc0000c, 0, 1, .w1c, 0, .md, false, false⟩
def rlgEvtGuard : Fld := ⟨0xc0000c, 1, 1, .w1c, 0, .md, false, false⟩
def rlgEvtPoison : Fld := ⟨0xc0000c, 2, 1, .w1c, 0, .md, false, false⟩
def rlgEvtSuspend : Fld := ⟨0xc0000c, 3, 1, .w1c, 0, .md, false, false⟩
def rlgEvtFenceDone : Fld := ⟨0xc0000c, 4, 1, .w1c, 0, .md, false, false⟩
def rlgFenceGo : Fld := ⟨0xc00010, 0, 1, .wo, 0, .none, false, false⟩
def rlgFenceDone : Fld := ⟨0xc00010, 1, 1, .w1c, 0, .none, false, false⟩
def rlgFenceAborted : Fld := ⟨0xc00010, 2, 1, .w1c, 0, .none, false, false⟩
def rlgGuardCount : Fld := ⟨0xc00014, 0, 32, .rc, 0, .md, false, false⟩
def rlgPoisonPoison : Fld := ⟨0xc00018, 0, 16, .rc, 0, .md, false, false⟩
def rlgPoisonNan : Fld := ⟨0xc00018, 16, 16, .rc, 0, .md, false, false⟩
def rlgRejectReason : Fld := ⟨0xc0001c, 0, 8, .ro, 0, .none, false, false⟩
def rlgRejectCmd : Fld := ⟨0xc0001c, 8, 12, .ro, 0, .none, false, false⟩
def rlgRejectStack : Fld := ⟨0xc0001c, 20, 3, .ro, 0, .none, false, false⟩
def rlgStackStatNext (i : Nat) : Fld := ⟨0xc00100 + i * 0x20, 0, 12, .ro, 0, .pl, false, false⟩
def rlgStackStatSubmitRefused (i : Nat) : Fld := ⟨0xc00100 + i * 0x20, 12, 1, .w1c, 0, .none, false, false⟩
def rlgStackCmdsCount (i : Nat) : Fld := ⟨0xc00108 + i * 0x20, 0, 64, .ro, 0, .md, false, false⟩
def rlgStackSubmitAddr (i : Nat) : Fld := ⟨0xc00110 + i * 0x20, 0, 48, .rw, 0, .none, false, false⟩
def rlgStackSubmitGo (i : Nat) : Fld := ⟨0xc00110 + i * 0x20, 63, 1, .wo, 0, .none, false, false⟩

/-! Registers of the stream context c (chapter 08). -/

def strCtlHalt (c : Nat) : Fld := ⟨0xd00000 + c * 0x400, 0, 1, .wo, 0, .none, false, false⟩
def strCtlStreamResume (c : Nat) : Fld := ⟨0xd00000 + c * 0x400, 1, 1, .wo, 0, .none, false, false⟩
def strCtlSave (c : Nat) : Fld := ⟨0xd00000 + c * 0x400, 2, 1, .wo, 0, .none, false, false⟩
def strCtlRestore (c : Nat) : Fld := ⟨0xd00000 + c * 0x400, 3, 1, .wo, 0, .none, false, false⟩
def strStatState (c : Nat) : Fld := ⟨0xd00004 + c * 0x400, 0, 4, .ro, 0, .pl, false, false⟩
def strStatPc (c : Nat) : Fld := ⟨0xd00004 + c * 0x400, 4, 6, .ro, 0, .pl, false, false⟩
def strStatReason (c : Nat) : Fld := ⟨0xd00004 + c * 0x400, 10, 8, .ro, 0, .none, false, false⟩
def strWaitforCtx (c : Nat) : Fld := ⟨0xd00008 + c * 0x400, 0, 9, .ro, 0, .none, false, false⟩
def strWaitforValid (c : Nat) : Fld := ⟨0xd00008 + c * 0x400, 9, 1, .ro, 0, .none, false, false⟩
def strWaitforKind (c : Nat) : Fld := ⟨0xd00008 + c * 0x400, 10, 2, .ro, 0, .none, false, false⟩
def strSlotsReserved (c : Nat) : Fld := ⟨0xd0000c + c * 0x400, 0, 13, .ro, 0, .none, false, false⟩
def strSlotsShared (c : Nat) : Fld := ⟨0xd0000c + c * 0x400, 13, 13, .ro, 0, .none, false, false⟩
def strFloorFloor (c : Nat) : Fld := ⟨0xd00010 + c * 0x400, 0, 13, .rw, 0, .md, false, true⟩
def strFloorShareMax (c : Nat) : Fld := ⟨0xd00010 + c * 0x400, 16, 13, .rw, 0, .md, false, true⟩
def strFloorRefused (c : Nat) : Fld := ⟨0xd00010 + c * 0x400, 31, 1, .w1c, 0, .md, false, false⟩
def strEvtFault (c : Nat) : Fld := ⟨0xd00014 + c * 0x400, 0, 1, .w1c, 0, .md, false, false⟩
def strEvtVictim (c : Nat) : Fld := ⟨0xd00014 + c * 0x400, 1, 1, .w1c, 0, .md, false, false⟩
def strEvtDone (c : Nat) : Fld := ⟨0xd00014 + c * 0x400, 2, 1, .w1c, 0, .md, false, false⟩
def strEvtSaveDone (c : Nat) : Fld := ⟨0xd00014 + c * 0x400, 3, 1, .w1c, 0, .md, false, false⟩
def strEvtStall (c : Nat) : Fld := ⟨0xd00014 + c * 0x400, 4, 1, .w1c, 0, .md, false, false⟩
def strFaultVaAddr (c : Nat) : Fld := ⟨0xd00018 + c * 0x400, 0, 64, .ro, 0, .pl, false, false⟩
def strFaultKind (c : Nat) : Fld := ⟨0xd00020 + c * 0x400, 0, 4, .ro, 0, .pl, false, false⟩
def strSaveAddrAddr (c : Nat) : Fld := ⟨0xd00028 + c * 0x400, 0, 64, .rw, 0, .md, false, false⟩
def strEmittedIndex (c : Nat) : Fld := ⟨0xd00030 + c * 0x400, 0, 32, .ro, 0, .pl, false, false⟩
def strConsumedCount (c : Nat) : Fld := ⟨0xd00034 + c * 0x400, 0, 32, .ro, 0, .pl, false, false⟩
def strDiscardsCount (c : Nat) : Fld := ⟨0xd00038 + c * 0x400, 0, 32, .rc, 0, .md, false, false⟩
def strProgInsn (c : Nat) (i : Nat) : Fld := ⟨0xd00200 + c * 0x400 + i * 0x8, 0, 64, .ro, 0, .pl, false, false⟩

/-! Registers of the stream globals (chapter 08). -/

def strMigBaseAddr : Fld := ⟨0xd80000, 0, 64, .rw, 0, .md, false, false⟩
def strMigCtlEntries : Fld := ⟨0xd80008, 0, 16, .rw, 0, .md, false, false⟩
def strMigCtlSize : Fld := ⟨0xd80008, 16, 1, .rw, 0, .md, false, false⟩
def strMigHeadIndex : Fld := ⟨0xd8000c, 0, 16, .rw, 0, .md, false, false⟩
def strMigTailIndex : Fld := ⟨0xd80010, 0, 16, .ro, 0, .md, false, false⟩

/-! Registers of the Glade (chapter 08). -/

def gldStatusSharedFree : Fld := ⟨0xe00000, 0, 13, .ro, 0, .none, false, false⟩
def gldStatusFloorSum : Fld := ⟨0xe00000, 13, 13, .ro, 0, .md, false, true⟩
def gldCtlWatch : Fld := ⟨0xe00004, 0, 24, .rw, 0, .md, false, true⟩
def gldEvtDeadlock : Fld := ⟨0xe00008, 0, 1, .w1c, 0, .md, false, false⟩
def gldEvtStall : Fld := ⟨0xe00008, 1, 1, .w1c, 0, .md, false, false⟩
def gldEvtPoison : Fld := ⟨0xe00008, 2, 1, .w1c, 0, .md, false, false⟩
def gldDeadlocksCount : Fld := ⟨0xe0000c, 0, 32, .rc, 0, .md, false, false⟩
def gldLastVictim : Fld := ⟨0xe00010, 0, 9, .ro, 0, .md, false, false⟩
def gldLastLength : Fld := ⟨0xe00010, 9, 10, .ro, 0, .md, false, false⟩
def gldDiscardsCount : Fld := ⟨0xe00014, 0, 32, .rc, 0, .md, false, false⟩
def gldGroupCfgLookahead (i : Nat) : Fld := ⟨0xe00100 + i * 0x10, 0, 9, .rw, 0, .md, false, true⟩
def gldGroupCfgLaEn (i : Nat) : Fld := ⟨0xe00100 + i * 0x10, 9, 1, .rw, 0, .md, false, true⟩
def gldGroupStatLayer (i : Nat) : Fld := ⟨0xe00104 + i * 0x10, 0, 16, .ro, 0, .pl, false, false⟩
def gldGroupStatDraining (i : Nat) : Fld := ⟨0xe00104 + i * 0x10, 16, 1, .ro, 0, .none, false, false⟩

/-! Registers of the update engine e (chapter 09). -/

def upeStatState (e : Nat) : Fld := ⟨0x1000000 + e * 0x10000, 0, 3, .ro, 0, .pl, false, false⟩
def upeStatStallPort (e : Nat) : Fld := ⟨0x1000000 + e * 0x10000, 3, 3, .ro, 0, .none, false, false⟩
def upeStatStallValid (e : Nat) : Fld := ⟨0x1000000 + e * 0x10000, 6, 1, .ro, 0, .none, false, false⟩
def upeStatDeriveValid (e : Nat) : Fld := ⟨0x1000000 + e * 0x10000, 7, 1, .ro, 0, .pl, false, false⟩
def upeCtlHalt (e : Nat) : Fld := ⟨0x1000004 + e * 0x10000, 0, 1, .wo, 0, .none, false, false⟩
def upeCtlSave (e : Nat) : Fld := ⟨0x1000004 + e * 0x10000, 1, 1, .wo, 0, .none, false, false⟩
def upeCtlRestore (e : Nat) : Fld := ⟨0x1000004 + e * 0x10000, 2, 1, .wo, 0, .none, false, false⟩
def upeEvtReject (e : Nat) : Fld := ⟨0x1000008 + e * 0x10000, 0, 1, .w1c, 0, .md, false, false⟩
def upeEvtPoison (e : Nat) : Fld := ⟨0x1000008 + e * 0x10000, 1, 1, .w1c, 0, .md, false, false⟩
def upeEvtDone (e : Nat) : Fld := ⟨0x1000008 + e * 0x10000, 2, 1, .w1c, 0, .md, false, false⟩
def upeEvtSaveDone (e : Nat) : Fld := ⟨0x1000008 + e * 0x10000, 3, 1, .w1c, 0, .md, false, false⟩
def upeEvtSubmitRefused (e : Nat) : Fld := ⟨0x1000008 + e * 0x10000, 4, 1, .w1c, 0, .md, false, false⟩
def upeEvtRuleDrop (e : Nat) : Fld := ⟨0x1000008 + e * 0x10000, 5, 1, .w1c, 0, .md, false, false⟩
def upeEvtDerive (e : Nat) : Fld := ⟨0x1000008 + e * 0x10000, 6, 1, .w1c, 0, .md, false, false⟩
def upeRejectReason (e : Nat) : Fld := ⟨0x100000c + e * 0x10000, 0, 8, .ro, 0, .none, false, false⟩
def upeRejectInsn (e : Nat) : Fld := ⟨0x100000c + e * 0x10000, 8, 10, .ro, 0, .none, false, false⟩
def upeQuadsCount (e : Nat) : Fld := ⟨0x1000010 + e * 0x10000, 0, 64, .ro, 0, .pl, false, false⟩
def upeFetchCycCount (e : Nat) : Fld := ⟨0x1000018 + e * 0x10000, 0, 64, .ro, 0, .md, false, false⟩
def upeComputeCycCount (e : Nat) : Fld := ⟨0x1000020 + e * 0x10000, 0, 64, .ro, 0, .md, false, false⟩
def upeWaitCycCount (e : Nat) : Fld := ⟨0x1000028 + e * 0x10000, 0, 64, .ro, 0, .md, false, false⟩
def upePoisonLanes (e : Nat) : Fld := ⟨0x1000030 + e * 0x10000, 0, 32, .rc, 0, .md, false, false⟩
def upeNanLanes (e : Nat) : Fld := ⟨0x1000034 + e * 0x10000, 0, 32, .rc, 0, .md, false, false⟩
def upeSaveAddrAddr (e : Nat) : Fld := ⟨0x1000038 + e * 0x10000, 0, 64, .rw, 0, .md, false, false⟩
def upeSubmitAddr (e : Nat) : Fld := ⟨0x1000040 + e * 0x10000, 0, 48, .rw, 0, .none, false, false⟩
def upeSubmitGo (e : Nat) : Fld := ⟨0x1000040 + e * 0x10000, 63, 1, .wo, 0, .none, false, false⟩
def upeRuleInsn (e : Nat) (i : Nat) : Fld := ⟨0x1001000 + e * 0x10000 + i * 0x4, 0, 32, .rw, 0, .md, false, false⟩
def upeConstValue (e : Nat) (i : Nat) : Fld := ⟨0x1002000 + e * 0x10000 + i * 0x4, 0, 32, .ro, 0, .none, false, false⟩

/-! Registers of the matrix array (chapter 10). -/

def mxaStatusBusy : Fld := ⟨0x1400000, 0, 1, .ro, 0, .pl, false, false⟩
def mxaStatusSource : Fld := ⟨0x1400000, 1, 2, .ro, 0, .pl, false, false⟩
def mxaEvtReject : Fld := ⟨0x1400004, 0, 1, .w1c, 0, .md, false, false⟩
def mxaEvtPoison : Fld := ⟨0x1400004, 1, 1, .w1c, 0, .md, false, false⟩
def mxaEvtDone : Fld := ⟨0x1400004, 2, 1, .w1c, 0, .md, false, false⟩
def mxaEvtSubmitRefused : Fld := ⟨0x1400004, 3, 1, .w1c, 0, .md, false, false⟩
def mxaEvtAbandoned : Fld := ⟨0x1400004, 4, 1, .w1c, 0, .md, false, false⟩
def mxaRejectReason : Fld := ⟨0x1400008, 0, 8, .ro, 0, .none, false, false⟩
def mxaRejectSource : Fld := ⟨0x1400008, 8, 2, .ro, 0, .none, false, false⟩
def mxaProgressPasses : Fld := ⟨0x140000c, 0, 32, .ro, 0, .pl, false, false⟩
def mxaJobsCount : Fld := ⟨0x1400010, 0, 64, .ro, 0, .md, false, false⟩
def mxaMacsCount : Fld := ⟨0x1400018, 0, 64, .ro, 0, .md, false, false⟩
def mxaBusyCycCount : Fld := ⟨0x1400020, 0, 64, .ro, 0, .md, false, false⟩
def mxaWaitCycCount : Fld := ⟨0x1400028, 0, 64, .ro, 0, .md, false, false⟩
def mxaPoisonCount : Fld := ⟨0x1400030, 0, 32, .rc, 0, .md, false, false⟩
def mxaNanCount : Fld := ⟨0x1400034, 0, 32, .rc, 0, .md, false, false⟩
def mxaRangeCount : Fld := ⟨0x1400038, 0, 32, .rc, 0, .md, false, false⟩
def mxaSubmitAddr : Fld := ⟨0x1400040, 0, 48, .rw, 0, .none, false, false⟩
def mxaSubmitGo : Fld := ⟨0x1400040, 63, 1, .wo, 0, .none, false, false⟩

/-! Registers of the KV service (chapter 11). -/

def kvsStatusLoaded : Fld := ⟨0x1500000, 0, 8, .ro, 0, .cp, false, false⟩
def kvsStatusWindow : Fld := ⟨0x1500000, 8, 8, .ro, 0, .none, false, false⟩
def kvsEvtCpl : Fld := ⟨0x1500004, 0, 1, .w1c, 0, .md, false, false⟩
def kvsEvtDrop : Fld := ⟨0x1500004, 1, 1, .w1c, 0, .md, false, false⟩
def kvsEvtFull : Fld := ⟨0x1500004, 2, 1, .w1c, 0, .md, false, false⟩
def kvsEvtLoadRefused : Fld := ⟨0x1500004, 3, 1, .w1c, 0, .md, false, false⟩
def kvsEvtPoison : Fld := ⟨0x1500004, 4, 1, .w1c, 0, .md, false, false⟩
def kvsEvtWinReject : Fld := ⟨0x1500004, 5, 1, .w1c, 0, .md, false, false⟩
def kvsLabHits : Fld := ⟨0x1500008, 0, 16, .rc, 0, .md, false, false⟩
def kvsLabMisses : Fld := ⟨0x1500008, 16, 16, .rc, 0, .md, false, false⟩
def kvsPoolDescAddr (i : Nat) : Fld := ⟨0x1500100 + i * 0x40, 0, 48, .rw, 0, .cp, false, false⟩
def kvsPoolCtlLoad (i : Nat) : Fld := ⟨0x1500108 + i * 0x40, 0, 1, .wo, 0, .none, false, false⟩
def kvsPoolCtlUnload (i : Nat) : Fld := ⟨0x1500108 + i * 0x40, 1, 1, .wo, 0, .none, false, false⟩
def kvsPoolCtlLabFlush (i : Nat) : Fld := ⟨0x1500108 + i * 0x40, 2, 1, .wo, 0, .none, false, false⟩
def kvsPoolStatLoadReason (i : Nat) : Fld := ⟨0x150010c + i * 0x40, 0, 8, .ro, 0, .none, false, false⟩
def kvsPoolStatWinReason (i : Nat) : Fld := ⟨0x150010c + i * 0x40, 8, 8, .ro, 0, .none, false, false⟩
def kvsPoolHeadIndex (i : Nat) : Fld := ⟨0x1500110 + i * 0x40, 0, 16, .rw, 0, .cp, false, false⟩
def kvsPoolTailIndex (i : Nat) : Fld := ⟨0x1500114 + i * 0x40, 0, 16, .ro, 0, .cp, false, false⟩
def kvsPoolDoneIndex (i : Nat) : Fld := ⟨0x1500118 + i * 0x40, 0, 16, .ro, 0, .cp, false, false⟩
def kvsPoolFreePages (i : Nat) : Fld := ⟨0x150011c + i * 0x40, 0, 32, .ro, 0, .cp, false, false⟩
def kvsPoolDropsCount (i : Nat) : Fld := ⟨0x1500120 + i * 0x40, 0, 32, .rc, 0, .md, false, false⟩
def kvsPoolCountsGroveMiss (i : Nat) : Fld := ⟨0x1500124 + i * 0x40, 0, 16, .rc, 0, .md, false, false⟩
def kvsPoolCountsSplits (i : Nat) : Fld := ⟨0x1500124 + i * 0x40, 16, 16, .rc, 0, .md, false, false⟩

/-! Registers of the random numbers (chapter 12). -/

def rngStatusReady : Fld := ⟨0x1600000, 0, 1, .ro, 0, .md, false, false⟩
def rngStatusFailed : Fld := ⟨0x1600000, 1, 1, .ro, 0, .md, false, false⟩
def rngStatusSeedValid : Fld := ⟨0x1600000, 2, 1, .ro, 0, .none, false, false⟩
def rngStatusSeeding : Fld := ⟨0x1600000, 3, 1, .ro, 0, .none, false, false⟩
def rngStatusPolyBad : Fld := ⟨0x1600000, 4, 1, .ro, 0, .md, false, false⟩
def rngCtlSourceEn : Fld := ⟨0x1600004, 0, 1, .rw, 0, .md, false, true⟩
def rngCtlRetest : Fld := ⟨0x1600004, 1, 1, .wo, 0, .none, false, false⟩
def rngSeedWord : Fld := ⟨0x1600008, 0, 64, .rc, 0, .none, false, false⟩
def rngKeyKey : Fld := ⟨0x1600010, 0, 64, .rw, 0, .md, false, true⟩
def rngLfsrKeyKey : Fld := ⟨0x1600018, 0, 64, .rw, 0, .md, false, true⟩
def rngLfsrMaskEngines : Fld := ⟨0x1600020, 0, 64, .rw, 0, .none, false, false⟩
def rngLfsrCmdGo : Fld := ⟨0x1600028, 0, 1, .wo, 0, .none, false, false⟩
def rngLfsrCmdMode : Fld := ⟨0x1600028, 1, 1, .rw, 0, .none, false, false⟩
def rngSkippedEngines : Fld := ⟨0x1600030, 0, 64, .ro, 0, .none, false, false⟩
def rngHealthRctFail : Fld := ⟨0x1600038, 0, 16, .rc, 0, .md, false, false⟩
def rngHealthAptFail : Fld := ⟨0x1600038, 16, 16, .rc, 0, .md, false, false⟩
def rngEvtFail : Fld := ⟨0x160003c, 0, 1, .w1c, 0, .md, false, false⟩
def rngEvtSeedDone : Fld := ⟨0x160003c, 1, 1, .w1c, 0, .md, false, false⟩
def rngPolyTaps (i : Nat) : Fld := ⟨0x1600100 + i * 0x8, 0, 64, .ro, 0, .md, false, true⟩

/-! Registers of the coherence (chapter 13). -/

def cohStatusPending : Fld := ⟨0x1700000, 0, 7, .ro, 0, .none, false, false⟩
def cohStatusFenceBusy : Fld := ⟨0x1700000, 7, 1, .ro, 0, .none, false, false⟩
def cohFenceGo : Fld := ⟨0x1700004, 0, 1, .wo, 0, .none, false, false⟩
def cohFenceKind : Fld := ⟨0x1700004, 1, 2, .rw, 0, .none, false, false⟩
def cohFenceBusy : Fld := ⟨0x1700004, 3, 1, .ro, 0, .none, false, false⟩
def cohFenceDone : Fld := ⟨0x1700004, 4, 1, .w1c, 0, .none, false, false⟩
def cohFenceTimeout : Fld := ⟨0x1700004, 5, 1, .w1c, 0, .none, false, false⟩
def cohFenceRefused : Fld := ⟨0x1700004, 6, 1, .w1c, 0, .none, false, false⟩
def cohFenceAborted : Fld := ⟨0x1700004, 7, 1, .w1c, 0, .none, false, false⟩
def cohFenceMaskEngines : Fld := ⟨0x1700008, 0, 64, .rw, 0, .none, false, false⟩
def cohEvtNcHit : Fld := ⟨0x1700010, 0, 1, .w1c, 0, .md, false, false⟩
def cohEvtQueueFull : Fld := ⟨0x1700010, 1, 1, .w1c, 0, .md, false, false⟩
def cohEvtFenceDone : Fld := ⟨0x1700010, 2, 1, .w1c, 0, .md, false, false⟩
def cohEvtProtocol : Fld := ⟨0x1700010, 3, 1, .w1c, 0, .md, false, false⟩
def cohNcHitCount : Fld := ⟨0x1700014, 0, 32, .rc, 0, .md, false, false⟩
def cohCrossClean : Fld := ⟨0x1700018, 0, 16, .rc, 0, .md, false, false⟩
def cohCrossDirty : Fld := ⟨0x1700018, 16, 16, .rc, 0, .md, false, false⟩
def cohQueueHigh : Fld := ⟨0x170001c, 0, 7, .rc, 0, .md, false, false⟩
def cohQueueFull : Fld := ⟨0x170001c, 16, 16, .rc, 0, .md, false, false⟩
def cohSnoopsCount : Fld := ⟨0x1700020, 0, 64, .ro, 0, .md, false, false⟩
def cohFaultAddr : Fld := ⟨0x1700028, 0, 48, .ro, 0, .md, false, false⟩
def cohFaultEngine : Fld := ⟨0x1700028, 48, 6, .ro, 0, .md, false, false⟩
def cohFaultCause : Fld := ⟨0x1700028, 54, 2, .ro, 0, .md, false, false⟩

/-! Registers of the Fumarole (chapter 16). -/

def fumStatusState : Fld := ⟨0x1800000, 0, 2, .ro, 0, .md, false, false⟩
def fumStatusLevel : Fld := ⟨0x1800000, 2, 4, .ro, 0, .md, false, false⟩
def fumStatusOut : Fld := ⟨0x1800000, 6, 1, .ro, 0, .md, false, false⟩
def fumStatusCoolLimit : Fld := ⟨0x1800000, 7, 1, .ro, 0, .md, false, false⟩
def fumStatusHot : Fld := ⟨0x1800000, 8, 8, .ro, 0, .md, false, false⟩
def fumStatusSelfRefresh : Fld := ⟨0x1800000, 16, 8, .ro, 0, .md, false, false⟩
def fumCtlA1En : Fld := ⟨0x1800004, 0, 1, .rw, 0, .md, false, true⟩
def fumCtlP1Autowake : Fld := ⟨0x1800004, 1, 1, .rw, 0, .md, false, true⟩
def fumPstateReq : Fld := ⟨0x1800008, 0, 2, .rw, 0, .none, false, false⟩
def fumPstateGo : Fld := ⟨0x1800008, 2, 1, .wo, 0, .none, false, false⟩
def fumPstateBusy : Fld := ⟨0x1800008, 3, 1, .ro, 0, .none, false, false⟩
def fumPstateRefused : Fld := ⟨0x1800008, 4, 1, .w1c, 0, .none, false, false⟩
def fumBudgetWatts : Fld := ⟨0x180000c, 0, 11, .ro, 0, .none, false, true⟩
def fumBudgetNextWatts : Fld := ⟨0x1800010, 0, 11, .rw, 0, .none, false, false⟩
def fumBudgetNextValid : Fld := ⟨0x1800010, 15, 1, .rw, 0, .none, false, false⟩
def fumBudgetDefaultWatts : Fld := ⟨0x1800014, 0, 11, .rw, 0, .md, false, true⟩
def fumHotShare : Fld := ⟨0x1800018, 0, 7, .rw, 0, .md, false, true⟩
def fumCoolWatts : Fld := ⟨0x180001c, 0, 11, .rw, 0, .md, false, true⟩
def fumEvtHot : Fld := ⟨0x1800020, 0, 1, .w1c, 0, .md, false, false⟩
def fumEvtCritical : Fld := ⟨0x1800020, 1, 1, .w1c, 0, .md, false, false⟩
def fumEvtRejoinReady : Fld := ⟨0x1800020, 2, 1, .w1c, 0, .md, false, false⟩
def fumEvtLevel15 : Fld := ⟨0x1800020, 3, 1, .w1c, 0, .md, false, false⟩
def fumEvtOver : Fld := ⟨0x1800020, 4, 1, .w1c, 0, .md, false, false⟩
def fumEvtDieHot : Fld := ⟨0x1800020, 5, 1, .w1c, 0, .md, false, false⟩
def fumEvtPstateDone : Fld := ⟨0x1800020, 6, 1, .w1c, 0, .md, false, false⟩
def fumCountLate : Fld := ⟨0x1800024, 0, 16, .rc, 0, .md, false, false⟩
def fumCountHolds : Fld := ⟨0x1800024, 16, 16, .rc, 0, .md, false, false⟩
def fumCapCycCount : Fld := ⟨0x1800028, 0, 64, .rc, 0, .md, false, false⟩
def fumEnergyUj : Fld := ⟨0x1800030, 0, 64, .ro, 0, .md, false, false⟩

/-! Registers of the resets (chapter 17). -/

def rstCtlModule : Fld := ⟨0x1900000, 0, 1, .wo, 0, .none, false, false⟩
def rstCtlCompute : Fld := ⟨0x1900000, 1, 1, .wo, 0, .none, false, false⟩
def rstCtlPlan : Fld := ⟨0x1900000, 2, 1, .wo, 0, .none, false, false⟩
def rstCtlKey : Fld := ⟨0x1900000, 16, 16, .wo, 0, .none, false, false⟩
def rstStatusLast : Fld := ⟨0x1900004, 0, 3, .ro, 1, .pw, false, false⟩
def rstStatusSource : Fld := ⟨0x1900004, 3, 3, .ro, 0, .pw, false, false⟩
def rstStatusBusy : Fld := ⟨0x1900004, 6, 1, .ro, 0, .none, false, false⟩
def rstStatusHalting : Fld := ⟨0x1900004, 7, 1, .ro, 0, .none, false, false⟩
def rstStatusForced : Fld := ⟨0x1900004, 8, 1, .ro, 0, .pw, false, false⟩
def rstStatusZeroed : Fld := ⟨0x1900004, 9, 1, .ro, 0, .pw, false, false⟩
def rstEvtDone : Fld := ⟨0x1900008, 0, 1, .w1c, 0, .md, false, false⟩
def rstEvtRefused : Fld := ⟨0x1900008, 1, 1, .w1c, 0, .md, false, false⟩
def rstEvtFabric : Fld := ⟨0x1900008, 2, 1, .w1c, 0, .md, false, false⟩
def rstCountModule : Fld := ⟨0x190000c, 0, 8, .ro, 0, .pw, false, false⟩
def rstCountFabric : Fld := ⟨0x190000c, 8, 8, .ro, 0, .md, false, false⟩
def rstCountCompute : Fld := ⟨0x190000c, 16, 8, .ro, 0, .md, false, false⟩
def rstCountPlan : Fld := ⟨0x190000c, 24, 8, .ro, 0, .md, false, false⟩
def rstTimeNs : Fld := ⟨0x1900010, 0, 32, .ro, 0, .md, false, false⟩

/-! Registers of the host port (chapter 19). -/

def hstStatusSpeed : Fld := ⟨0x1a00000, 0, 4, .ro, 0, .md, false, false⟩
def hstStatusWidth : Fld := ⟨0x1a00000, 4, 5, .ro, 0, .md, false, false⟩
def hstStatusUp : Fld := ⟨0x1a00000, 9, 1, .ro, 0, .md, false, false⟩
def hstCtlHint : Fld := ⟨0x1a00004, 0, 1, .rw, 0, .md, false, false⟩
def hstEvtLinkDown : Fld := ⟨0x1a00008, 0, 1, .w1c, 0, .md, false, false⟩
def hstEvtQerr : Fld := ⟨0x1a00008, 1, 1, .w1c, 0, .md, false, false⟩
def hstErrBar0Drop : Fld := ⟨0x1a0000c, 0, 8, .rc, 0, .md, false, false⟩
def hstErrPoisonTx : Fld := ⟨0x1a0000c, 8, 8, .rc, 0, .md, false, false⟩
def hstErrPoisonRx : Fld := ⟨0x1a0000c, 16, 8, .rc, 0, .md, false, false⟩
def hstErrCplTimeout : Fld := ⟨0x1a0000c, 24, 8, .rc, 0, .md, false, false⟩
def hstIrqEnVectors : Fld := ⟨0x1a00010, 0, 64, .rw, 0x1, .md, false, false⟩
def hstSummaryPorts : Fld := ⟨0x1a00018, 0, 16, .ro, 0, .none, false, false⟩
def hstSummaryStacks : Fld := ⟨0x1a00018, 16, 8, .ro, 0, .none, false, false⟩
def hstSummaryDeep : Fld := ⟨0x1a00018, 24, 1, .ro, 0, .none, false, false⟩
def hstStrSummaryCtx (i : Nat) : Fld := ⟨0x1a00020 + i * 0x8, 0, 64, .ro, 0, .none, false, false⟩
def hstQSqBaseAddr (i : Nat) : Fld := ⟨0x1a00100 + i * 0x40, 0, 64, .rw, 0, .md, false, false⟩
def hstQCqBaseAddr (i : Nat) : Fld := ⟨0x1a00108 + i * 0x40, 0, 64, .rw, 0, .md, false, false⟩
def hstQCfgEnable (i : Nat) : Fld := ⟨0x1a00110 + i * 0x40, 0, 1, .rw, 0, .md, false, false⟩
def hstQCfgEntries (i : Nat) : Fld := ⟨0x1a00110 + i * 0x40, 1, 4, .rw, 0, .md, false, false⟩
def hstQSqTailIndex (i : Nat) : Fld := ⟨0x1a00114 + i * 0x40, 0, 12, .rw, 0, .md, false, false⟩
def hstQSqHeadIndex (i : Nat) : Fld := ⟨0x1a00118 + i * 0x40, 0, 12, .ro, 0, .md, false, false⟩
def hstQCqHeadIndex (i : Nat) : Fld := ⟨0x1a0011c + i * 0x40, 0, 12, .rw, 0, .md, false, false⟩
def hstQCqTailIndex (i : Nat) : Fld := ⟨0x1a00120 + i * 0x40, 0, 12, .ro, 0, .md, false, false⟩

/-! Registers of the general MMU (chapter 11). -/

def mmuCtlEnable : Fld := ⟨0x1b00000, 0, 1, .rw, 0, .md, false, false⟩
def mmuStatFaults : Fld := ⟨0x1b00004, 0, 16, .rc, 0, .md, false, false⟩
def mmuRootAddr : Fld := ⟨0x1b00008, 0, 48, .rw, 0, .md, false, false⟩
def mmuInvalAsid : Fld := ⟨0x1b00010, 0, 16, .rw, 0, .none, false, false⟩
def mmuInvalScope : Fld := ⟨0x1b00010, 16, 2, .rw, 0, .none, false, false⟩
def mmuInvalGo : Fld := ⟨0x1b00010, 18, 1, .wo, 0, .none, false, false⟩
def mmuInvalDone : Fld := ⟨0x1b00010, 19, 1, .ro, 0, .none, false, false⟩
def mmuInvalVa : Fld := ⟨0x1b00010, 32, 32, .rw, 0, .none, false, false⟩

/-! Registers of the telemetry and faults (chapters 16, 18). -/

def telCtlEvery : Fld := ⟨0x1c00000, 0, 16, .rw, 0, .md, false, true⟩
def telCtlDestSel : Fld := ⟨0x1c00000, 16, 2, .rw, 0, .md, false, true⟩
def telDestNode : Fld := ⟨0x1c00004, 0, 12, .rw, 0, .md, false, true⟩
def telRingBaseAddr : Fld := ⟨0x1c00008, 0, 48, .rw, 0, .md, false, false⟩
def telRingCtlEntries : Fld := ⟨0x1c00010, 0, 16, .rw, 0, .md, false, false⟩
def telRingHeadIndex : Fld := ⟨0x1c00014, 0, 32, .ro, 0, .md, false, false⟩
def telStatSent : Fld := ⟨0x1c00018, 0, 16, .rc, 0, .md, false, false⟩
def telStatDropped : Fld := ⟨0x1c00018, 16, 16, .rc, 0, .md, false, false⟩
def telClaimState (i : Nat) : Fld := ⟨0x1c01000 + i * 0x8, 0, 2, .ro, 0, .md, true, false⟩
def telClaimCause (i : Nat) : Fld := ⟨0x1c01000 + i * 0x8, 2, 3, .ro, 0, .md, true, false⟩
def telClaimRepeats (i : Nat) : Fld := ⟨0x1c01000 + i * 0x8, 8, 8, .ro, 0, .md, true, false⟩
def telClaimId (i : Nat) : Fld := ⟨0x1c01000 + i * 0x8, 16, 16, .ro, 0, .md, true, false⟩
def telClaimTick (i : Nat) : Fld := ⟨0x1c01000 + i * 0x8, 32, 32, .ro, 0, .md, true, false⟩
def telClaimAckPort : Fld := ⟨0x1c01080, 0, 4, .wo, 0, .none, false, false⟩
def telClaimAckId : Fld := ⟨0x1c01080, 16, 16, .wo, 0, .none, false, false⟩
def telFaultRingBaseAddr : Fld := ⟨0x1c01088, 0, 48, .rw, 0, .pw, false, false⟩
def telFaultRingCtlEntries : Fld := ⟨0x1c01090, 0, 16, .rw, 0, .pw, false, false⟩
def telFaultHeadIndex : Fld := ⟨0x1c01094, 0, 32, .ro, 0, .pw, false, false⟩
def telFaultTailIndex : Fld := ⟨0x1c01098, 0, 32, .rw, 0, .pw, false, false⟩
def telFaultStatLost : Fld := ⟨0x1c0109c, 0, 16, .rc, 0, .pw, false, false⟩
def telFaultStatCoalesced : Fld := ⟨0x1c0109c, 16, 16, .rc, 0, .md, false, false⟩
def telFaultEvtRecord : Fld := ⟨0x1c010a0, 0, 1, .w1c, 0, .md, false, false⟩
def telFaultEvtAckRefused : Fld := ⟨0x1c010a0, 1, 1, .w1c, 0, .md, false, false⟩
def telFaultEvtRingErr : Fld := ⟨0x1c010a0, 2, 1, .w1c, 0, .md, false, false⟩
def telFaultSeqSeq : Fld := ⟨0x1c010a4, 0, 32, .ro, 0, .pw, false, false⟩

/-! ## The register spans of each block (R616, R618) -/

/-- Spans of the identity and status block (chapters 14, 15, 19). -/
def idSpans : List Span := [
  ⟨0x0, 16, 1, 0x10, fun _ => [idUidUid]⟩,
  ⟨0x10, 8, 1, 0x8, fun _ => [idPartCode]⟩,
  ⟨0x18, 4, 1, 0x4, fun _ => [idSteppingStep]⟩,
  ⟨0x1c, 4, 1, 0x4, fun _ => [idBootStatPhase, idBootStatWindow, idBootStatLate, idBootStatSlot, idBootStatFallback, idBootStatMemDegraded, idBootStatStartedDomain, idBootStatStarts]⟩,
  ⟨0x20, 4, 1, 0x4, fun _ => [idBootErrAReason, idBootErrBReason, idBootErrSection]⟩,
  ⟨0x24, 4, 1, 0x4, fun _ => [idBootDropsWrites]⟩,
  ⟨0x28, 4, 1, 0x4, fun _ => [idImageVerVersion]⟩,
  ⟨0x2c, 4, 1, 0x4, fun _ => [idImageSvnImage, idImageSvnFuse]⟩,
  ⟨0x30, 4, 1, 0x4, fun _ => [idKeyStatPresent, idKeyStatRevoked, idKeyStatUsed]⟩,
  ⟨0x34, 4, 1, 0x4, fun _ => [idFwVerVersion]⟩,
  ⟨0x38, 4, 1, 0x4, fun _ => [idBootCtlSlotPref]⟩,
  ⟨0x40, 4, 8, 0x4, fun i => [idBootTimeUs i]⟩,
  ⟨0x100, 4, 1, 0x4, fun _ => [idModuleStatPres, idModuleStatEjectOpen, idModuleStatCoolOk, idModuleStatLeak, idModuleStatMgtAddr, idModuleStatLastTrip]⟩,
  ⟨0x104, 4, 1, 0x4, fun _ => [idModuleEvtEjectOpened, idModuleEvtEjectClosed, idModuleEvtCoolLoss, idModuleEvtLeak, idModuleEvtVinLow, idModuleEvtClkSwitch]⟩,
  ⟨0x108, 4, 1, 0x4, fun _ => [idVinVolts, idVinAmps]⟩,
  ⟨0x10c, 4, 1, 0x4, fun _ => [idCoolantInlet, idCoolantOutlet]⟩,
  ⟨0x110, 4, 1, 0x4, fun _ => [idClkStatSource, idClkStatPort, idClkStatLocked, idClkStatSwitches]⟩,
  ⟨0x114, 4, 1, 0x4, fun _ => [idLedCtlLocate, idLedCtlStatusShown, idLedCtlSafe]⟩,
  ⟨0x10000, 4, 1, 0x4, fun _ => [idFlashCtlOp, idFlashCtlGo, idFlashCtlKey]⟩,
  ⟨0x10004, 4, 1, 0x4, fun _ => [idFlashAddrOffset]⟩,
  ⟨0x10008, 4, 1, 0x4, fun _ => [idFlashLenBytes]⟩,
  ⟨0x1000c, 4, 1, 0x4, fun _ => [idFlashStatBusy, idFlashStatDone, idFlashStatRefused, idFlashStatReason]⟩,
  ⟨0x10010, 4, 1, 0x4, fun _ => [idFuseArgFuseOp, idFuseArgSlot, idFuseArgSvn]⟩,
  ⟨0x10014, 4, 1, 0x4, fun _ => [idBootEvtWindowClosed, idBootEvtFailed]⟩,
  ⟨0x10018, 4, 1, 0x4, fun _ => [idMgtCtlAlertEn]⟩]

/-- Spans of the the fabric tick (chapter 01). -/
def tickSpans : List Span := [
  ⟨0x0, 4, 1, 0x4, fun _ => [tickStatusLock, tickStatusTk, tickStatusActiveBank, tickStatusBankEmpty, tickStatusMissed]⟩,
  ⟨0x4, 4, 1, 0x4, fun _ => [tickPeriodCycles]⟩,
  ⟨0x8, 8, 1, 0x8, fun _ => [tickCountCount]⟩,
  ⟨0x10, 4, 1, 0x4, fun _ => [tickPhaseErrErr]⟩,
  ⟨0x14, 4, 1, 0x4, fun _ => [tickTkNode, tickTkRank, tickTkEpoch]⟩,
  ⟨0x18, 4, 1, 0x4, fun _ => [tickRankRank]⟩,
  ⟨0x1c, 4, 1, 0x4, fun _ => [tickBeaconPortUp, tickBeaconPortAlt, tickBeaconPortDown]⟩,
  ⟨0x20, 4, 1, 0x4, fun _ => [tickHoldCtlAuto]⟩,
  ⟨0x24, 4, 1, 0x4, fun _ => [tickHoldStatGranted, tickHoldStatRequests]⟩,
  ⟨0x28, 4, 1, 0x4, fun _ => [tickMarginDefaultPct]⟩,
  ⟨0x30, 4, 1, 0x4, fun _ => [tickPlanStatusReason, tickPlanStatusSlot]⟩,
  ⟨0x34, 4, 2, 0x4, fun i => [tickPlanIdId i]⟩,
  ⟨0x40, 8, 1, 0x8, fun _ => [tickSwitchAtAt]⟩,
  ⟨0x48, 4, 1, 0x4, fun _ => [tickSwitchPlanId]⟩,
  ⟨0x4c, 4, 1, 0x4, fun _ => [tickSwitchCtlArm, tickSwitchCtlDisarm, tickSwitchCtlForce, tickSwitchCtlArmed, tickSwitchCtlCommitted, tickSwitchCtlRefused]⟩,
  ⟨0x50, 4, 1, 0x4, fun _ => [tickLateItems, tickLateSlips]⟩,
  ⟨0x54, 4, 1, 0x4, fun _ => [tickDropWrites]⟩,
  ⟨0x58, 4, 1, 0x4, fun _ => [tickEvtLockLost, tickEvtSwitchMismatch, tickEvtTakeover, tickEvtLate]⟩,
  ⟨0x100, 4, 16, 0x4, fun i => [tickLinkDelayPs i]⟩]

/-- Spans of the Elvuno port n (chapter 02). -/
def elvSpans (n : Nat) : List Span := [
  ⟨0x0, 4, 1, 0x4, fun _ => [elvCfgEnable n, elvCfgModes n, elvCfgNofec n]⟩,
  ⟨0x4, 4, 1, 0x4, fun _ => [elvCtlRetrain n, elvCtlUnfence n, elvCtlRenegotiate n]⟩,
  ⟨0x8, 4, 1, 0x4, fun _ => [elvStatState n, elvStatRank n, elvStatFec n, elvStatFenced n, elvStatReversed n, elvStatBcnIneligible n, elvStatCause n, elvStatAttempt n]⟩,
  ⟨0xc, 4, 1, 0x4, fun _ => [elvLanePol n, elvLaneFail n, elvLaneFailRates n]⟩,
  ⟨0x10, 4, 1, 0x4, fun _ => [elvPartnerNode n, elvPartnerPort n, elvPartnerModes n, elvPartnerNofec n]⟩,
  ⟨0x14, 4, 1, 0x4, fun _ => [elvRttPs n]⟩,
  ⟨0x18, 4, 1, 0x4, fun _ => [elvReplayWcNs n]⟩,
  ⟨0x1c, 4, 1, 0x4, fun _ => [elvEvtUp n, elvEvtDown n, elvEvtExhaust n, elvEvtRetrainOk n, elvEvtDegraded n]⟩,
  ⟨0x20, 8, 1, 0x8, fun _ => [elvFlitsTxCount n]⟩,
  ⟨0x28, 8, 1, 0x8, fun _ => [elvFlitsRxCount n]⟩,
  ⟨0x30, 4, 1, 0x4, fun _ => [elvErrCrc n, elvErrProto n]⟩,
  ⟨0x34, 4, 1, 0x4, fun _ => [elvReplayReplays n, elvReplayExhausts n, elvReplayRetrains n, elvReplayAckTo n]⟩,
  ⟨0x38, 4, 1, 0x4, fun _ => [elvDupCount n]⟩,
  ⟨0x3c, 4, 1, 0x4, fun _ => [elvDropFenced n, elvDropVc0 n]⟩,
  ⟨0x100, 4, 8, 0x10, fun i => [elvLaneFec0CorrCw n i]⟩,
  ⟨0x104, 4, 8, 0x10, fun i => [elvLaneFec4UncorrCw n i]⟩,
  ⟨0x108, 4, 8, 0x10, fun i => [elvLaneFec8CorrSym n i]⟩,
  ⟨0x200, 4, 16, 0x4, fun i => [elvFecHistCount n i]⟩]

/-- Spans of the fabric membership (chapter 03). -/
def fabSpans : List Span := [
  ⟨0x0, 4, 1, 0x4, fun _ => [fabNodeIdId, fabNodeIdValid]⟩,
  ⟨0x4, 4, 1, 0x4, fun _ => [fabStatusJoin, fabStatusActiveBank, fabStatusRoutes]⟩,
  ⟨0x8, 4, 1, 0x4, fun _ => [fabRouteStatusReason, fabRouteStatusDead]⟩,
  ⟨0xc, 4, 1, 0x4, fun _ => [fabRouteCtlCheck, fabRouteCtlAdoptNow]⟩,
  ⟨0x10, 4, 2, 0x4, fun i => [fabRouteIdId i]⟩,
  ⟨0x18, 4, 1, 0x4, fun _ => [fabMgmtNodeNode]⟩,
  ⟨0x1c, 4, 1, 0x4, fun _ => [fabAdminNodeNode]⟩,
  ⟨0x20, 4, 1, 0x4, fun _ => [fabRemoteCtlMemEn, fabRemoteCtlPlanWin, fabRemoteCtlRouteWin, fabRemoteCtlAllRegs, fabRemoteCtlFrstEn]⟩,
  ⟨0x24, 4, 1, 0x4, fun _ => [fabReqTimeoutUs]⟩,
  ⟨0x28, 8, 1, 0x8, fun _ => [fabDetachAtAt]⟩,
  ⟨0x30, 4, 1, 0x4, fun _ => [fabCtlLeafBeacons]⟩,
  ⟨0x34, 4, 1, 0x4, fun _ => [fabFrstCmdTarget, fabFrstCmdGo]⟩,
  ⟨0x38, 4, 1, 0x4, fun _ => [fabEvtNeighbour, fabEvtMember, fabEvtRouteSwap, fabEvtTimeout, fabEvtRefused]⟩,
  ⟨0x3c, 4, 1, 0x4, fun _ => [fabReqStatOutstanding, fabReqStatTimeouts]⟩,
  ⟨0x40, 4, 1, 0x4, fun _ => [fabDropNoRoute, fabDropUnmatched]⟩]

/-- Spans of the collectives (chapter 04). -/
def calSpans : List Span := [
  ⟨0x0, 4, 1, 0x4, fun _ => [calStatusState, calStatusOut, calStatusGatherPending, calStatusDescReason]⟩,
  ⟨0x4, 4, 1, 0x4, fun _ => [calCtlRetryMax, calCtlAbortNonfinite, calCtlResume]⟩,
  ⟨0x8, 8, 1, 0x8, fun _ => [calStepStep]⟩,
  ⟨0x10, 4, 1, 0x4, fun _ => [calTryTry]⟩,
  ⟨0x14, 4, 1, 0x4, fun _ => [calEvtAbort, calEvtVerdictLost, calEvtVerdictLate, calEvtGatherRepeat, calEvtGatherFailed, calEvtRetryExhausted, calEvtOverflow, calEvtNonfinite, calEvtPostcommitLate]⟩,
  ⟨0x18, 4, 1, 0x4, fun _ => [calDropStale, calDropMismatch]⟩,
  ⟨0x1c, 4, 1, 0x4, fun _ => [calIncompleteWindows]⟩,
  ⟨0x20, 8, 1, 0x8, fun _ => [calVerdictLast]⟩,
  ⟨0x28, 8, 1, 0x8, fun _ => [calResolveStep, calResolveVerdict, calResolveGo]⟩,
  ⟨0x100, 8, 16, 0x8, fun i => [calVlogEntry i]⟩]

/-- Spans of the memory (chapter 05). -/
def memSpans : List Span := [
  ⟨0x0, 4, 1, 0x4, fun _ => [memStatusEnabled, memStatusFlushing, memStatusReady]⟩,
  ⟨0x4, 4, 1, 0x4, fun _ => [memCacheCtlKeepWays]⟩,
  ⟨0x8, 4, 1, 0x4, fun _ => [memEvtPartRefused, memEvtAtomicOvf, memEvtMapErr, memEvtFlushDone]⟩,
  ⟨0xc, 4, 1, 0x4, fun _ => [memAtomicStatNan, memAtomicStatOvf]⟩,
  ⟨0x10, 8, 1, 0x8, fun _ => [memMapErrAddr, memMapErrCause]⟩,
  ⟨0x20, 8, 1, 0x8, fun _ => [memCacheHitsCount]⟩,
  ⟨0x28, 8, 1, 0x8, fun _ => [memCacheMissesCount]⟩,
  ⟨0x30, 4, 1, 0x4, fun _ => [memCacheDropsCount]⟩,
  ⟨0x100, 4, 16, 0x40, fun i => [memPartCfgEnable i, memPartCfgTier i, memPartCfgMode i, memPartCfgArb i, memPartCfgRegEn i, memPartCfgDraining i, memPartCfgRefused i, memPartCfgCause i]⟩,
  ⟨0x104, 4, 16, 0x40, fun i => [memPartRangeFirst i, memPartRangeFrames i]⟩,
  ⟨0x108, 4, 16, 0x40, fun i => [memPartRateRate i]⟩,
  ⟨0x10c, 4, 16, 0x40, fun i => [memPartBurstKib i]⟩,
  ⟨0x110, 4, 16, 0x40, fun i => [memPartSplitReadPct i, memPartSplitWritePct i, memPartSplitRemotePct i]⟩,
  ⟨0x114, 4, 16, 0x40, fun i => [memPartSlackCycles i]⟩,
  ⟨0x118, 4, 16, 0x40, fun i => [memPartStallCycles i]⟩,
  ⟨0x120, 8, 16, 0x40, fun i => [memPartBytesCount i]⟩,
  ⟨0x600, 4, 16, 0x4, fun i => [memLossCount i]⟩]

/-- Spans of the HBM stack s (chapter 06). -/
def hbmSpans (s : Nat) : List Span := [
  ⟨0x0, 4, 1, 0x4, fun _ => [hbmStatusTrained s, hbmStatusRemaps s]⟩,
  ⟨0x4, 4, 1, 0x4, fun _ => [hbmCtlScrubEn s, hbmCtlCeLimit s]⟩,
  ⟨0x8, 4, 1, 0x4, fun _ => [hbmScrubGapCycles s]⟩,
  ⟨0xc, 4, 1, 0x4, fun _ => [hbmTempDegC s, hbmTempClass s, hbmTempSensorFail s, hbmTempMax s]⟩,
  ⟨0x10, 4, 1, 0x4, fun _ => [hbmEvtUe s, hbmEvtRemap s, hbmEvtSpareOut s, hbmEvtLaneSuspect s, hbmEvtLogFull s, hbmEvtClassChange s]⟩,
  ⟨0x14, 4, 1, 0x4, fun _ => [hbmFailedPcMask s]⟩,
  ⟨0x18, 8, 1, 0x8, fun _ => [hbmUeAddrAddr s]⟩,
  ⟨0x20, 4, 1, 0x4, fun _ => [hbmRemapReqRow s, hbmRemapReqPc s, hbmRemapReqBank s, hbmRemapReqGo s]⟩,
  ⟨0x100, 4, 32, 0x40, fun i => [hbmPcErrCe s i, hbmPcErrUe s i]⟩,
  ⟨0x104, 4, 32, 0x40, fun i => [hbmPcLaneSpare0 s i, hbmPcLaneSpare1 s i, hbmPcLaneSuspect s i]⟩,
  ⟨0x108, 4, 32, 0x40, fun i => [hbmPcPassesCount s i]⟩,
  ⟨0x10c, 4, 32, 0x40, fun i => [hbmTgCtlStart s i, hbmTgCtlStop s i, hbmTgCtlBusy s i, hbmTgCtlDone s i, hbmTgCtlRefused s i, hbmTgCtlAborted s i, hbmTgCtlMode s i, hbmTgCtlOrder s i, hbmTgCtlPattern s i, hbmTgCtlGap s i]⟩,
  ⟨0x110, 4, 32, 0x40, fun i => [hbmTgRangeFirst s i, hbmTgRangeFrames s i]⟩,
  ⟨0x114, 4, 32, 0x40, fun i => [hbmTgCountCount s i]⟩,
  ⟨0x118, 4, 32, 0x40, fun i => [hbmTgSeedSeed s i]⟩,
  ⟨0x11c, 4, 32, 0x40, fun i => [hbmTgWordWord s i]⟩,
  ⟨0x120, 4, 32, 0x40, fun i => [hbmTgResultMiscompares s i]⟩,
  ⟨0x124, 4, 32, 0x40, fun i => [hbmTgLanesLanes s i]⟩,
  ⟨0x128, 8, 32, 0x40, fun i => [hbmTgFailAddr s i]⟩,
  ⟨0x1000, 8, 512, 0x8, fun i => [hbmRemapRow s i, hbmRemapPc s i, hbmRemapBank s i, hbmRemapSpare s i, hbmRemapValid s i]⟩]

/-- Spans of the deep tier, by analogy with the stack (chapter 06). -/
def dtcSpans : List Span := [
  ⟨0x0, 4, 1, 0x4, fun _ => [dtcStatusTrained, dtcStatusRemaps]⟩,
  ⟨0x4, 4, 1, 0x4, fun _ => [dtcCtlScrubEn, dtcCtlCeLimit]⟩,
  ⟨0x8, 4, 1, 0x4, fun _ => [dtcScrubGapCycles]⟩,
  ⟨0x10, 4, 1, 0x4, fun _ => [dtcEvtUe, dtcEvtRemap, dtcEvtSpareOut, dtcEvtLaneSuspect, dtcEvtLogFull, dtcEvtClassChange]⟩,
  ⟨0x14, 4, 1, 0x4, fun _ => [dtcFailedChMask]⟩,
  ⟨0x18, 8, 1, 0x8, fun _ => [dtcUeAddrAddr]⟩,
  ⟨0x20, 4, 1, 0x4, fun _ => [dtcRemapReqBlock, dtcRemapReqChannel, dtcRemapReqGo]⟩,
  ⟨0x100, 4, 32, 0x40, fun i => [dtcChErrCe i, dtcChErrUe i]⟩,
  ⟨0x108, 4, 32, 0x40, fun i => [dtcChPassesCount i]⟩,
  ⟨0x10c, 4, 32, 0x40, fun i => [dtcTgCtlStart i, dtcTgCtlStop i, dtcTgCtlBusy i, dtcTgCtlDone i, dtcTgCtlRefused i, dtcTgCtlAborted i, dtcTgCtlMode i, dtcTgCtlOrder i, dtcTgCtlPattern i, dtcTgCtlGap i]⟩,
  ⟨0x110, 4, 32, 0x40, fun i => [dtcTgRangeFirst i, dtcTgRangeFrames i]⟩,
  ⟨0x114, 4, 32, 0x40, fun i => [dtcTgCountCount i]⟩,
  ⟨0x118, 4, 32, 0x40, fun i => [dtcTgSeedSeed i]⟩,
  ⟨0x11c, 4, 32, 0x40, fun i => [dtcTgWordWord i]⟩,
  ⟨0x120, 4, 32, 0x40, fun i => [dtcTgResultMiscompares i]⟩,
  ⟨0x124, 4, 32, 0x40, fun i => [dtcTgLanesLanes i]⟩,
  ⟨0x128, 8, 32, 0x40, fun i => [dtcTgFailAddr i]⟩,
  ⟨0x1000, 8, 2048, 0x8, fun i => [dtcRemapBlock i, dtcRemapChannel i, dtcRemapSpare i, dtcRemapValid i]⟩]

/-- Spans of the row logic (chapter 07). -/
def rlgSpans : List Span := [
  ⟨0x0, 4, 1, 0x4, fun _ => [rlgStatusBusy, rlgStatusSuspended, rlgStatusFencePending]⟩,
  ⟨0x4, 4, 1, 0x4, fun _ => [rlgCtlEnable, rlgCtlYield]⟩,
  ⟨0x8, 4, 1, 0x4, fun _ => [rlgPartEnMask]⟩,
  ⟨0xc, 4, 1, 0x4, fun _ => [rlgEvtReject, rlgEvtGuard, rlgEvtPoison, rlgEvtSuspend, rlgEvtFenceDone]⟩,
  ⟨0x10, 4, 1, 0x4, fun _ => [rlgFenceGo, rlgFenceDone, rlgFenceAborted]⟩,
  ⟨0x14, 4, 1, 0x4, fun _ => [rlgGuardCount]⟩,
  ⟨0x18, 4, 1, 0x4, fun _ => [rlgPoisonPoison, rlgPoisonNan]⟩,
  ⟨0x1c, 4, 1, 0x4, fun _ => [rlgRejectReason, rlgRejectCmd, rlgRejectStack]⟩,
  ⟨0x100, 4, 8, 0x20, fun i => [rlgStackStatNext i, rlgStackStatSubmitRefused i]⟩,
  ⟨0x108, 8, 8, 0x20, fun i => [rlgStackCmdsCount i]⟩,
  ⟨0x110, 8, 8, 0x20, fun i => [rlgStackSubmitAddr i, rlgStackSubmitGo i]⟩]

/-- Spans of the stream context c (chapter 08). -/
def strSpans (c : Nat) : List Span := [
  ⟨0x0, 4, 1, 0x4, fun _ => [strCtlHalt c, strCtlStreamResume c, strCtlSave c, strCtlRestore c]⟩,
  ⟨0x4, 4, 1, 0x4, fun _ => [strStatState c, strStatPc c, strStatReason c]⟩,
  ⟨0x8, 4, 1, 0x4, fun _ => [strWaitforCtx c, strWaitforValid c, strWaitforKind c]⟩,
  ⟨0xc, 4, 1, 0x4, fun _ => [strSlotsReserved c, strSlotsShared c]⟩,
  ⟨0x10, 4, 1, 0x4, fun _ => [strFloorFloor c, strFloorShareMax c, strFloorRefused c]⟩,
  ⟨0x14, 4, 1, 0x4, fun _ => [strEvtFault c, strEvtVictim c, strEvtDone c, strEvtSaveDone c, strEvtStall c]⟩,
  ⟨0x18, 8, 1, 0x8, fun _ => [strFaultVaAddr c]⟩,
  ⟨0x20, 4, 1, 0x4, fun _ => [strFaultKind c]⟩,
  ⟨0x28, 8, 1, 0x8, fun _ => [strSaveAddrAddr c]⟩,
  ⟨0x30, 4, 1, 0x4, fun _ => [strEmittedIndex c]⟩,
  ⟨0x34, 4, 1, 0x4, fun _ => [strConsumedCount c]⟩,
  ⟨0x38, 4, 1, 0x4, fun _ => [strDiscardsCount c]⟩,
  ⟨0x200, 8, 64, 0x8, fun i => [strProgInsn c i]⟩]

/-- Spans of the stream globals (chapter 08). -/
def strgSpans : List Span := [
  ⟨0x0, 8, 1, 0x8, fun _ => [strMigBaseAddr]⟩,
  ⟨0x8, 4, 1, 0x4, fun _ => [strMigCtlEntries, strMigCtlSize]⟩,
  ⟨0xc, 4, 1, 0x4, fun _ => [strMigHeadIndex]⟩,
  ⟨0x10, 4, 1, 0x4, fun _ => [strMigTailIndex]⟩]

/-- Spans of the Glade (chapter 08). -/
def gldSpans : List Span := [
  ⟨0x0, 4, 1, 0x4, fun _ => [gldStatusSharedFree, gldStatusFloorSum]⟩,
  ⟨0x4, 4, 1, 0x4, fun _ => [gldCtlWatch]⟩,
  ⟨0x8, 4, 1, 0x4, fun _ => [gldEvtDeadlock, gldEvtStall, gldEvtPoison]⟩,
  ⟨0xc, 4, 1, 0x4, fun _ => [gldDeadlocksCount]⟩,
  ⟨0x10, 4, 1, 0x4, fun _ => [gldLastVictim, gldLastLength]⟩,
  ⟨0x14, 4, 1, 0x4, fun _ => [gldDiscardsCount]⟩,
  ⟨0x100, 4, 16, 0x10, fun i => [gldGroupCfgLookahead i, gldGroupCfgLaEn i]⟩,
  ⟨0x104, 4, 16, 0x10, fun i => [gldGroupStatLayer i, gldGroupStatDraining i]⟩]

/-- Spans of the update engine e (chapter 09). -/
def upeSpans (e : Nat) : List Span := [
  ⟨0x0, 4, 1, 0x4, fun _ => [upeStatState e, upeStatStallPort e, upeStatStallValid e, upeStatDeriveValid e]⟩,
  ⟨0x4, 4, 1, 0x4, fun _ => [upeCtlHalt e, upeCtlSave e, upeCtlRestore e]⟩,
  ⟨0x8, 4, 1, 0x4, fun _ => [upeEvtReject e, upeEvtPoison e, upeEvtDone e, upeEvtSaveDone e, upeEvtSubmitRefused e, upeEvtRuleDrop e, upeEvtDerive e]⟩,
  ⟨0xc, 4, 1, 0x4, fun _ => [upeRejectReason e, upeRejectInsn e]⟩,
  ⟨0x10, 8, 1, 0x8, fun _ => [upeQuadsCount e]⟩,
  ⟨0x18, 8, 1, 0x8, fun _ => [upeFetchCycCount e]⟩,
  ⟨0x20, 8, 1, 0x8, fun _ => [upeComputeCycCount e]⟩,
  ⟨0x28, 8, 1, 0x8, fun _ => [upeWaitCycCount e]⟩,
  ⟨0x30, 4, 1, 0x4, fun _ => [upePoisonLanes e]⟩,
  ⟨0x34, 4, 1, 0x4, fun _ => [upeNanLanes e]⟩,
  ⟨0x38, 8, 1, 0x8, fun _ => [upeSaveAddrAddr e]⟩,
  ⟨0x40, 8, 1, 0x8, fun _ => [upeSubmitAddr e, upeSubmitGo e]⟩,
  ⟨0x1000, 4, 1024, 0x4, fun i => [upeRuleInsn e i]⟩,
  ⟨0x2000, 4, 64, 0x4, fun i => [upeConstValue e i]⟩]

/-- Spans of the matrix array (chapter 10). -/
def mxaSpans : List Span := [
  ⟨0x0, 4, 1, 0x4, fun _ => [mxaStatusBusy, mxaStatusSource]⟩,
  ⟨0x4, 4, 1, 0x4, fun _ => [mxaEvtReject, mxaEvtPoison, mxaEvtDone, mxaEvtSubmitRefused, mxaEvtAbandoned]⟩,
  ⟨0x8, 4, 1, 0x4, fun _ => [mxaRejectReason, mxaRejectSource]⟩,
  ⟨0xc, 4, 1, 0x4, fun _ => [mxaProgressPasses]⟩,
  ⟨0x10, 8, 1, 0x8, fun _ => [mxaJobsCount]⟩,
  ⟨0x18, 8, 1, 0x8, fun _ => [mxaMacsCount]⟩,
  ⟨0x20, 8, 1, 0x8, fun _ => [mxaBusyCycCount]⟩,
  ⟨0x28, 8, 1, 0x8, fun _ => [mxaWaitCycCount]⟩,
  ⟨0x30, 4, 1, 0x4, fun _ => [mxaPoisonCount]⟩,
  ⟨0x34, 4, 1, 0x4, fun _ => [mxaNanCount]⟩,
  ⟨0x38, 4, 1, 0x4, fun _ => [mxaRangeCount]⟩,
  ⟨0x40, 8, 1, 0x8, fun _ => [mxaSubmitAddr, mxaSubmitGo]⟩]

/-- Spans of the KV service (chapter 11). -/
def kvsSpans : List Span := [
  ⟨0x0, 4, 1, 0x4, fun _ => [kvsStatusLoaded, kvsStatusWindow]⟩,
  ⟨0x4, 4, 1, 0x4, fun _ => [kvsEvtCpl, kvsEvtDrop, kvsEvtFull, kvsEvtLoadRefused, kvsEvtPoison, kvsEvtWinReject]⟩,
  ⟨0x8, 4, 1, 0x4, fun _ => [kvsLabHits, kvsLabMisses]⟩,
  ⟨0x100, 8, 8, 0x40, fun i => [kvsPoolDescAddr i]⟩,
  ⟨0x108, 4, 8, 0x40, fun i => [kvsPoolCtlLoad i, kvsPoolCtlUnload i, kvsPoolCtlLabFlush i]⟩,
  ⟨0x10c, 4, 8, 0x40, fun i => [kvsPoolStatLoadReason i, kvsPoolStatWinReason i]⟩,
  ⟨0x110, 4, 8, 0x40, fun i => [kvsPoolHeadIndex i]⟩,
  ⟨0x114, 4, 8, 0x40, fun i => [kvsPoolTailIndex i]⟩,
  ⟨0x118, 4, 8, 0x40, fun i => [kvsPoolDoneIndex i]⟩,
  ⟨0x11c, 4, 8, 0x40, fun i => [kvsPoolFreePages i]⟩,
  ⟨0x120, 4, 8, 0x40, fun i => [kvsPoolDropsCount i]⟩,
  ⟨0x124, 4, 8, 0x40, fun i => [kvsPoolCountsGroveMiss i, kvsPoolCountsSplits i]⟩]

/-- Spans of the random numbers (chapter 12). -/
def rngSpans : List Span := [
  ⟨0x0, 4, 1, 0x4, fun _ => [rngStatusReady, rngStatusFailed, rngStatusSeedValid, rngStatusSeeding, rngStatusPolyBad]⟩,
  ⟨0x4, 4, 1, 0x4, fun _ => [rngCtlSourceEn, rngCtlRetest]⟩,
  ⟨0x8, 8, 1, 0x8, fun _ => [rngSeedWord]⟩,
  ⟨0x10, 8, 1, 0x8, fun _ => [rngKeyKey]⟩,
  ⟨0x18, 8, 1, 0x8, fun _ => [rngLfsrKeyKey]⟩,
  ⟨0x20, 8, 1, 0x8, fun _ => [rngLfsrMaskEngines]⟩,
  ⟨0x28, 4, 1, 0x4, fun _ => [rngLfsrCmdGo, rngLfsrCmdMode]⟩,
  ⟨0x30, 8, 1, 0x8, fun _ => [rngSkippedEngines]⟩,
  ⟨0x38, 4, 1, 0x4, fun _ => [rngHealthRctFail, rngHealthAptFail]⟩,
  ⟨0x3c, 4, 1, 0x4, fun _ => [rngEvtFail, rngEvtSeedDone]⟩,
  ⟨0x100, 8, 64, 0x8, fun i => [rngPolyTaps i]⟩]

/-- Spans of the coherence (chapter 13). -/
def cohSpans : List Span := [
  ⟨0x0, 4, 1, 0x4, fun _ => [cohStatusPending, cohStatusFenceBusy]⟩,
  ⟨0x4, 4, 1, 0x4, fun _ => [cohFenceGo, cohFenceKind, cohFenceBusy, cohFenceDone, cohFenceTimeout, cohFenceRefused, cohFenceAborted]⟩,
  ⟨0x8, 8, 1, 0x8, fun _ => [cohFenceMaskEngines]⟩,
  ⟨0x10, 4, 1, 0x4, fun _ => [cohEvtNcHit, cohEvtQueueFull, cohEvtFenceDone, cohEvtProtocol]⟩,
  ⟨0x14, 4, 1, 0x4, fun _ => [cohNcHitCount]⟩,
  ⟨0x18, 4, 1, 0x4, fun _ => [cohCrossClean, cohCrossDirty]⟩,
  ⟨0x1c, 4, 1, 0x4, fun _ => [cohQueueHigh, cohQueueFull]⟩,
  ⟨0x20, 8, 1, 0x8, fun _ => [cohSnoopsCount]⟩,
  ⟨0x28, 8, 1, 0x8, fun _ => [cohFaultAddr, cohFaultEngine, cohFaultCause]⟩]

/-- Spans of the Fumarole (chapter 16). -/
def fumSpans : List Span := [
  ⟨0x0, 4, 1, 0x4, fun _ => [fumStatusState, fumStatusLevel, fumStatusOut, fumStatusCoolLimit, fumStatusHot, fumStatusSelfRefresh]⟩,
  ⟨0x4, 4, 1, 0x4, fun _ => [fumCtlA1En, fumCtlP1Autowake]⟩,
  ⟨0x8, 4, 1, 0x4, fun _ => [fumPstateReq, fumPstateGo, fumPstateBusy, fumPstateRefused]⟩,
  ⟨0xc, 4, 1, 0x4, fun _ => [fumBudgetWatts]⟩,
  ⟨0x10, 4, 1, 0x4, fun _ => [fumBudgetNextWatts, fumBudgetNextValid]⟩,
  ⟨0x14, 4, 1, 0x4, fun _ => [fumBudgetDefaultWatts]⟩,
  ⟨0x18, 4, 1, 0x4, fun _ => [fumHotShare]⟩,
  ⟨0x1c, 4, 1, 0x4, fun _ => [fumCoolWatts]⟩,
  ⟨0x20, 4, 1, 0x4, fun _ => [fumEvtHot, fumEvtCritical, fumEvtRejoinReady, fumEvtLevel15, fumEvtOver, fumEvtDieHot, fumEvtPstateDone]⟩,
  ⟨0x24, 4, 1, 0x4, fun _ => [fumCountLate, fumCountHolds]⟩,
  ⟨0x28, 8, 1, 0x8, fun _ => [fumCapCycCount]⟩,
  ⟨0x30, 8, 1, 0x8, fun _ => [fumEnergyUj]⟩]

/-- Spans of the resets (chapter 17). -/
def rstSpans : List Span := [
  ⟨0x0, 4, 1, 0x4, fun _ => [rstCtlModule, rstCtlCompute, rstCtlPlan, rstCtlKey]⟩,
  ⟨0x4, 4, 1, 0x4, fun _ => [rstStatusLast, rstStatusSource, rstStatusBusy, rstStatusHalting, rstStatusForced, rstStatusZeroed]⟩,
  ⟨0x8, 4, 1, 0x4, fun _ => [rstEvtDone, rstEvtRefused, rstEvtFabric]⟩,
  ⟨0xc, 4, 1, 0x4, fun _ => [rstCountModule, rstCountFabric, rstCountCompute, rstCountPlan]⟩,
  ⟨0x10, 4, 1, 0x4, fun _ => [rstTimeNs]⟩]

/-- Spans of the host port (chapter 19). -/
def hstSpans : List Span := [
  ⟨0x0, 4, 1, 0x4, fun _ => [hstStatusSpeed, hstStatusWidth, hstStatusUp]⟩,
  ⟨0x4, 4, 1, 0x4, fun _ => [hstCtlHint]⟩,
  ⟨0x8, 4, 1, 0x4, fun _ => [hstEvtLinkDown, hstEvtQerr]⟩,
  ⟨0xc, 4, 1, 0x4, fun _ => [hstErrBar0Drop, hstErrPoisonTx, hstErrPoisonRx, hstErrCplTimeout]⟩,
  ⟨0x10, 8, 1, 0x8, fun _ => [hstIrqEnVectors]⟩,
  ⟨0x18, 8, 1, 0x8, fun _ => [hstSummaryPorts, hstSummaryStacks, hstSummaryDeep]⟩,
  ⟨0x20, 8, 8, 0x8, fun i => [hstStrSummaryCtx i]⟩,
  ⟨0x100, 8, 16, 0x40, fun i => [hstQSqBaseAddr i]⟩,
  ⟨0x108, 8, 16, 0x40, fun i => [hstQCqBaseAddr i]⟩,
  ⟨0x110, 4, 16, 0x40, fun i => [hstQCfgEnable i, hstQCfgEntries i]⟩,
  ⟨0x114, 4, 16, 0x40, fun i => [hstQSqTailIndex i]⟩,
  ⟨0x118, 4, 16, 0x40, fun i => [hstQSqHeadIndex i]⟩,
  ⟨0x11c, 4, 16, 0x40, fun i => [hstQCqHeadIndex i]⟩,
  ⟨0x120, 4, 16, 0x40, fun i => [hstQCqTailIndex i]⟩]

/-- Spans of the general MMU (chapter 11). -/
def mmuSpans : List Span := [
  ⟨0x0, 4, 1, 0x4, fun _ => [mmuCtlEnable]⟩,
  ⟨0x4, 4, 1, 0x4, fun _ => [mmuStatFaults]⟩,
  ⟨0x8, 8, 1, 0x8, fun _ => [mmuRootAddr]⟩,
  ⟨0x10, 8, 1, 0x8, fun _ => [mmuInvalAsid, mmuInvalScope, mmuInvalGo, mmuInvalDone, mmuInvalVa]⟩]

/-- Spans of the telemetry and faults (chapters 16, 18). -/
def telSpans : List Span := [
  ⟨0x0, 4, 1, 0x4, fun _ => [telCtlEvery, telCtlDestSel]⟩,
  ⟨0x4, 4, 1, 0x4, fun _ => [telDestNode]⟩,
  ⟨0x8, 8, 1, 0x8, fun _ => [telRingBaseAddr]⟩,
  ⟨0x10, 4, 1, 0x4, fun _ => [telRingCtlEntries]⟩,
  ⟨0x14, 4, 1, 0x4, fun _ => [telRingHeadIndex]⟩,
  ⟨0x18, 4, 1, 0x4, fun _ => [telStatSent, telStatDropped]⟩,
  ⟨0x1000, 8, 16, 0x8, fun i => [telClaimState i, telClaimCause i, telClaimRepeats i, telClaimId i, telClaimTick i]⟩,
  ⟨0x1080, 4, 1, 0x4, fun _ => [telClaimAckPort, telClaimAckId]⟩,
  ⟨0x1088, 8, 1, 0x8, fun _ => [telFaultRingBaseAddr]⟩,
  ⟨0x1090, 4, 1, 0x4, fun _ => [telFaultRingCtlEntries]⟩,
  ⟨0x1094, 4, 1, 0x4, fun _ => [telFaultHeadIndex]⟩,
  ⟨0x1098, 4, 1, 0x4, fun _ => [telFaultTailIndex]⟩,
  ⟨0x109c, 4, 1, 0x4, fun _ => [telFaultStatLost, telFaultStatCoalesced]⟩,
  ⟨0x10a0, 4, 1, 0x4, fun _ => [telFaultEvtRecord, telFaultEvtAckRefused, telFaultEvtRingErr]⟩,
  ⟨0x10a4, 4, 1, 0x4, fun _ => [telFaultSeqSeq]⟩]

end Sys2Proof.Machine
end

