-- ==== Sys2Proof/Machine/Float.lean ====
section
/-! DEFINITION. Exact arithmetic on the number formats of the node: a value is a NaN, an infinity, or an integer times
a power of two; a format rounds it once, to nearest, ties to even. Every rounding rule of the chapters (R144, R147,
R150, R200, R326, R330) is one of these operations. -/

namespace Sys2Proof.Machine

/-- A floating-point value: a NaN, an infinity, or `m * 2 ^ e` with a sign. -/
inductive Fp where
  | nan
  | inf (neg : Bool)
  | fin (neg : Bool) (m : Nat) (e : Int)
  deriving DecidableEq, Repr

/-- A binary format: exponent bits, stored fraction bits, and whether its top exponent holds infinities. -/
structure Fmt where
  eb : Nat
  fb : Nat
  hasInf : Bool
  deriving DecidableEq, Repr

def fmtFp32 : Fmt := ⟨8, 23, true⟩
def fmtBf16 : Fmt := ⟨8, 7, true⟩
def fmtFp16 : Fmt := ⟨5, 10, true⟩
def fmtE4m3 : Fmt := ⟨4, 3, false⟩
def fmtE5m2 : Fmt := ⟨5, 2, true⟩

def Fmt.bias (f : Fmt) : Nat := 2 ^ (f.eb - 1) - 1
/-- Bits of an infinity of positive sign, in a format that has one. -/
def Fmt.infBits (f : Fmt) : Nat := (2 ^ f.eb - 1) * 2 ^ f.fb
def Fmt.signBit (f : Fmt) : Nat := 2 ^ (f.eb + f.fb)
/-- The canonical NaN: quiet, positive, the rest of the fraction 0 (0x7FC0_0000 in FP32); E4M3 has 0x7F only. -/
def Fmt.nanBits (f : Fmt) : Nat :=
  if f.hasInf then f.infBits + 2 ^ (f.fb - 1) else f.infBits + (2 ^ f.fb - 1)

/-- The value that bits of a format spell. -/
def Fmt.decode (f : Fmt) (b : Nat) : Fp :=
  let neg := bitOf b (f.eb + f.fb)
  let ex := bits b f.fb f.eb
  let fr := bits b 0 f.fb
  if ex = 2 ^ f.eb - 1 ∧ f.hasInf then (if fr = 0 then .inf neg else .nan)
  else if ex = 2 ^ f.eb - 1 ∧ fr = 2 ^ f.fb - 1 then .nan
  else if ex = 0 then .fin neg fr (1 - (f.bias : Int) - (f.fb : Int))
  else .fin neg (fr + 2 ^ f.fb) ((ex : Int) - (f.bias : Int) - (f.fb : Int))

/-- `m / 2 ^ s`, to nearest, ties to even. -/
def rneShift (m s : Nat) : Nat :=
  let q := m / 2 ^ s
  let r := m % 2 ^ s
  if 2 * r > 2 ^ s ∨ (2 * r = 2 ^ s ∧ q % 2 = 1) then q + 1 else q

/-- The integer nearest `m * 2 ^ e`, ties to even. -/
def rneScale (m : Nat) (e : Int) : Nat :=
  if 0 ≤ e then m * 2 ^ e.toNat else rneShift m (-e).toNat

/-- Largest magnitude bits of a format that are not an infinity or a NaN. -/
def Fmt.maxBits (f : Fmt) : Nat := if f.hasInf then f.infBits - 1 else f.infBits + 2 ^ f.fb - 2

/-- The magnitude bits of `m * 2 ^ e` rounded once to the format; past the largest finite value it is `infBits`, or the
NaN of a format without infinities. -/
def Fmt.roundMag (f : Fmt) (m : Nat) (e : Int) : Nat :=
  if m = 0 then 0 else
    let top : Int := (Nat.log2 m : Int) + e
    let lo : Int := 1 - (f.bias : Int) - (f.fb : Int)
    let q : Int := max (top - (f.fb : Int)) lo
    let mant := rneScale m (e - q)
    let b := (q - lo).toNat * 2 ^ f.fb + mant
    if b > f.maxBits then (if f.hasInf then f.infBits else f.nanBits) else b

/-- Bits of a value rounded once to the format; every NaN is the canonical one. -/
def Fmt.encode (f : Fmt) (v : Fp) : Nat :=
  match v with
  | .nan => f.nanBits
  | .inf neg => (if f.hasInf then f.infBits else f.nanBits) + (if neg then f.signBit else 0)
  | .fin neg m e => f.roundMag m e + (if neg then f.signBit else 0)

/-- Whether rounding a finite value to the format went past its largest finite value. -/
def Fmt.overflows (f : Fmt) (v : Fp) : Bool :=
  match v with
  | .fin _ m e => decide (f.roundMag m e > f.maxBits)
  | _ => false

def Fp.isNan : Fp → Bool
  | .nan => true
  | _ => false

def Fp.isZero : Fp → Bool
  | .fin _ m _ => m == 0
  | _ => false

def Fp.isNeg : Fp → Bool
  | .nan => false
  | .inf n => n
  | .fin n _ _ => n

def Fp.neg : Fp → Fp
  | .nan => .nan
  | .inf n => .inf (!n)
  | .fin n m e => .fin (!n) m e

def Fp.abs : Fp → Fp
  | .nan => .nan
  | .inf _ => .inf false
  | .fin _ m e => .fin false m e

/-- The signed integer of a finite value on the grid `2 ^ g`, exact when `g` is at most its exponent. -/
def gridInt (neg : Bool) (m : Nat) (e g : Int) : Int :=
  let a : Int := ((m * 2 ^ (e - g).toNat : Nat) : Int)
  if neg then -a else a

/-- The value of an integer on the grid `2 ^ g`; a zero takes the sign `z`. -/
def Fp.ofGrid (z : Bool) (n : Int) (g : Int) : Fp :=
  if n = 0 then .fin z 0 g else .fin (decide (n < 0)) n.natAbs g

/-- Exact sum. Infinities of opposite sign give a NaN; an exact zero sum is `+0`, except that `-0` plus `-0` is
`-0` (R200). -/
def Fp.add (a b : Fp) : Fp :=
  match a, b with
  | .nan, _ => .nan
  | _, .nan => .nan
  | .inf x, .inf y => if x = y then .inf x else .nan
  | .inf x, _ => .inf x
  | _, .inf y => .inf y
  | .fin x m e, .fin y n d =>
    let g := min e d
    Fp.ofGrid (x && y && decide (m = 0) && decide (n = 0)) (gridInt x m e g + gridInt y n d g) g

def Fp.sub (a b : Fp) : Fp := Fp.add a b.neg

/-- Exact product; infinity times zero is a NaN. -/
def Fp.mul (a b : Fp) : Fp :=
  match a, b with
  | .nan, _ => .nan
  | _, .nan => .nan
  | .inf x, .inf y => .inf (x != y)
  | .inf x, .fin y m _ => if m = 0 then .nan else .inf (x != y)
  | .fin x m _, .inf y => if m = 0 then .nan else .inf (x != y)
  | .fin x m e, .fin y n d => .fin (x != y) (m * n) (e + d)

/-- A quotient with 80 bits and a sticky bit: rounding it to any format of the node gives the correctly rounded
quotient. -/
def Fp.div (a b : Fp) : Fp :=
  match a, b with
  | .nan, _ => .nan
  | _, .nan => .nan
  | .inf _, .inf _ => .nan
  | .inf x, .fin y _ _ => .inf (x != y)
  | .fin x _ _, .inf y => .fin (x != y) 0 0
  | .fin x m e, .fin y n d =>
    if n = 0 then (if m = 0 then .nan else .inf (x != y))
    else
      let k := 80 + Nat.log2 n
      let q := m * 2 ^ k / n
      let r := m * 2 ^ k % n
      .fin (x != y) (2 * q + (if r = 0 then 0 else 1)) (e - d - (k : Int) - 1)

/-- The integer square root, bit by bit from bit `k - 1` down. -/
def isqrtFrom : Nat → Nat → Nat → Nat
  | 0, _, r => r
  | k + 1, n, r =>
    let t := r + 2 ^ k
    isqrtFrom k n (if t * t ≤ n then t else r)

def isqrt (n : Nat) : Nat := isqrtFrom (Nat.log2 n / 2 + 1) n 0

/-- A square root with at least 64 bits and a sticky bit. A negative non-zero operand gives a NaN. -/
def Fp.sqrt (a : Fp) : Fp :=
  match a with
  | .nan => .nan
  | .inf n => if n then .nan else .inf false
  | .fin neg m e =>
    if m = 0 then .fin neg 0 0
    else if neg then .nan
    else
      let sh : Nat := 160 + (if (e % 2) = 0 then 0 else 1)
      let x := m * 2 ^ sh
      let r := isqrt x
      .fin false (2 * r + (if r * r = x then 0 else 1)) ((e - (sh : Int)) / 2 - 1)

/-- Order of two values that are not NaN, zeros equal. -/
def Fp.lt (a b : Fp) : Bool :=
  match a, b with
  | .nan, _ => false
  | _, .nan => false
  | .inf x, .inf y => x && !y
  | .inf x, .fin _ _ _ => x
  | .fin _ _ _, .inf y => !y
  | .fin x m e, .fin y n d =>
    let g := min e d
    decide (gridInt x m e g < gridInt y n d g)

/-- The exponential (R391): a value within 2^-160 of the exact one, relative, with a sticky bit, so that rounding it to
FP32 gives the correctly rounded result; 1 exactly at zero, +0 and +infinity at the infinities. Arguments beyond ±256
round to +0 or +infinity in FP32, and those below 2^-40 to 1. -/
def Fp.exp (a : Fp) : Fp :=
  match a with
  | .nan => .nan
  | .inf n => if n then .fin false 0 0 else .inf false
  | .fin neg m e =>
    if m = 0 then .fin false 1 0
    else
      let top : Int := (Nat.log2 m : Int) + e
      if 8 ≤ top then (if neg then .fin false 1 (-400) else .fin false 1 400)
      else if top < -40 then .fin false 1 0
      else
        let p : Nat := 400
        let y : Int := (if neg then -(m : Int) else (m : Int)) * (2 : Int) ^ ((p : Int) + e - 9).toNat
        let r := (List.range 70).foldl (fun (acc : Int × Int) n =>
          let t := acc.2 * y / ((n + 1 : Nat) : Int) / (2 : Int) ^ p
          (acc.1 + t, t)) ((2 : Int) ^ p, (2 : Int) ^ p)
        let v := (List.range 9).foldl (fun (v : Nat) _ => v * v / 2 ^ p) r.1.toNat
        .fin false (2 * v + 1) (-((p : Int) + 1))

/-- FP32 bits of a value. -/
def f32 (v : Fp) : Nat := fmtFp32.encode v
/-- The value of FP32 bits. -/
def ofF32 (b : Nat) : Fp := fmtFp32.decode b
/-- FP32 addition, multiplication and fused multiply-add, each rounded once. -/
def f32Add (a b : Nat) : Nat := f32 ((ofF32 a).add (ofF32 b))
def f32Mul (a b : Nat) : Nat := f32 ((ofF32 a).mul (ofF32 b))
def f32Fma (a b c : Nat) : Nat := f32 (((ofF32 a).mul (ofF32 b)).add (ofF32 c))

/-- The element formats FP32, BF16 and FP16 of descriptors, by their codes 0, 1 and 2. -/
def fmtOf (c : Nat) : Fmt := if c = 1 then fmtBf16 else if c = 2 then fmtFp16 else fmtFp32
/-- Bytes of an element of those formats. -/
def fmtBytes (c : Nat) : Nat := if c = 1 ∨ c = 2 then 2 else 4

end Sys2Proof.Machine
end

