-- ==== Sys2Proof/Machine/State.lean ====
section
/-! DEFINITION. The state of one Sedracor M1 node, as plain data: every register field (a sparse table over the bit
addresses of the register map), every memory and store, every queue, timer and latch the chapters name, the commands
that wait, and the model's own log of what the node sent. -/

namespace Sys2Proof.Machine

/-- Why a step may stop with a fault. No command of this block stops with one: every behaviour of the node that the
chapters call a fault is a recorded state change (R573). The constructor names the one outcome kept for a reader who
would add a stop; raised by no meaning, and safe. -/
inductive Fault where
  /-- Raised by no meaning. Safe: a step that stopped would only make claims unprovable. -/
  | unreachable
  deriving DecidableEq, Repr

/-- Why a step may refuse. -/
inductive Refusal where
  /-- Raised by an arm of the dispatch whose command has no meaning yet. Safe. -/
  | notModelled (mnemonic : String)
  deriving DecidableEq, Repr

/-- What the node sent or answered, the model's own log (newest first). -/
inductive Out where
  /-- A 256-byte flit on a port (R71). -/
  | flit (port : Nat) (bytes : List Byte)
  /-- A negotiation page on a port (R63): sync pattern, 64-bit body and CRC. -/
  | page (port lane sync body crc : Nat)
  /-- An MSI-X message of a vector: address and data of its table entry (R598). -/
  | msix (vector addr data : Nat)
  /-- A write to host memory. -/
  | hostWrite (addr : Nat) (bytes : List Byte) (ep : Bool)
  /-- A read of host memory that the node issued: address, length, tag. -/
  | hostRead (addr len tag : Nat)
  /-- The value a register read returned. -/
  | value (v : Nat)
  /-- The answer to a host memory request: bytes and the EP bit (R588). -/
  | hostData (bytes : List Byte) (ep : Bool)
  /-- Unsupported Request, or configuration retry status. -/
  | hostStatus (code : Nat)
  /-- The answer of a memory-side cache access: requester, bytes, POISON, and the status by R109's codes. -/
  | memData (req : Nat) (bytes : List Byte) (poison : Bool) (status : Nat)
  /-- A coherence message: kind, engine or slice, line, tag (R428). -/
  | coh (kind : Nat) (dst line tag : Nat) (data : List Byte)
  /-- A packet handed to the software of this node, or the result of one of its remote requests. -/
  | message (pkt : List Byte)
  /-- A block read of the management port: STATUS and the bytes after it (R608). -/
  | mgmt (status : Nat) (bytes : List Byte)
  deriving DecidableEq, Repr

/-- Where a slot instance stands (R31, R45): not issued, waiting, running, completed, cancelled, ended late; `aborted`: ended
so that what depends on it is cancelled (R45, R162, R165); `skipped`: a confirm completed by SKIP (R333). -/
inductive SlotSt where
  | idle | sched | running | done | cancelled | late | aborted | skipped
  deriving DecidableEq, Repr

/-- One slot of a plan (R28). -/
structure Slot where
  start : Nat
  cls : Nat
  margin : Nat
  duration : Nat
  first : Nat
  count : Nat
  dep : Option Nat
  unit : Nat
  desc : Nat
  phase : Nat
  deriving DecidableEq, Repr

/-- The tick timer, the lock counters, the plan banks and the sequencer (chapter 01). Times are in ps. -/
structure TickState where
  /-- The local timer makes edges. -/
  running : Bool
  /-- Time of the edge that began the current tick. -/
  edge : Nat
  /-- Units granted in this tick (EXT_TOTAL). -/
  ext : Nat
  /-- Largest total forwarded upstream for this tick (R41, R48). -/
  sentTotal : Nat
  /-- At the timekeeper: largest total that arrived before the current round's deadline, and the largest after it. -/
  arrived : Nat
  arrivedNext : Nat
  /-- The round in progress (R40), and whether a round has ended after which no further units are granted. -/
  round : Nat
  roundsOver : Bool
  /-- Hold reach of the last accepted beacon: ACC_DELAY in ps and HOPS. -/
  accDelay : Nat
  hops : Nat
  /-- Consecutive beacons within 1 ns, and consecutive beacons outside 2 ns. -/
  inPhase : Nat
  outPhase : Nat
  /-- Acquisition port (R26) and the hop count of its beacon. -/
  acqPort : Option Nat
  acqHops : Nat
  /-- 1 plus the last tick whose beacon was accepted or counted as missed. -/
  seen : Nat
  /-- A source of beacons has been accepted (R16). -/
  heard : Bool
  /-- Units granted when this node last asked for a hold in this tick, plus 1; 0 for none (one request a round, R38). -/
  asked : Nat
  /-- A timekeeper that accepted another source stops at its next edge (R18). -/
  yielding : Bool
  /-- Tick in which this node took over (R50). -/
  tookOver : Option Nat
  /-- Cycle position of the current tick in the active plan. -/
  pos : Nat
  /-- The plan banks: byte `b * 65536 + off`. -/
  banks : Tab Byte
  /-- The banks hold accepted plans. -/
  ok : Tab Bool
  /-- Slot instances by slot number: the index for a slot of the active plan, 1,024 more for each switchover since. -/
  slots : Tab SlotSt
  /-- Slots of earlier plans whose items still run or wait, by slot number (R37, R45). -/
  old : Tab Slot
  /-- Slots whose item runs on past its tick, and slots deferred behind them, in order (R45). -/
  overrun : List Nat
  deferred : List Nat
  /-- The last rank whose beacon entry was loaded into TICK_BEACON_PORT (R99). -/
  bcnRank : Option Nat
  /-- Its UP port, and its ALT port, is an upstream port of this node (R98, R99). -/
  upOk : Bool
  altOk : Bool
  /-- Units granted in the ticks already closed, the last first (R53). -/
  past : List Nat
  deriving DecidableEq, Repr

/-- One Elvuno port (chapter 02). Sequence numbers are modulo 4,096. -/
structure Port where
  /-- Signal on a receive lane. -/
  signal : Bool
  /-- Last page body received on each lane and how many identical ones in a row. -/
  pages : Tab (Nat × Nat)
  /-- Time of the first valid lane of this exchange. -/
  firstValid : Option Nat
  /-- The partner's last ACK, PROPOSED, failed lanes and failed rates. -/
  partnerAck : Bool
  partnerProp : Nat
  partnerFail : Nat
  partnerRates : Nat
  /-- Consecutive DOWNs. -/
  downs : Nat
  /-- Probes answered; those answered in time for the mean, and the sum of their round trips in ps (R67, R77). -/
  probes : Nat
  rttCount : Nat
  rttSum : Nat
  /-- Logical lanes of the group in use (R61), and MODES and NOFEC as the last EXCHANGE took them (R91). -/
  lanes : Nat
  modes : Nat
  nofec : Bool
  /-- Next numbers to send and expected numbers, DATA and CTRL. -/
  txD : Nat
  txC : Nat
  rxD : Nat
  rxC : Nat
  /-- Sent and unacknowledged flits, oldest first, and flits waiting for replay-buffer space. -/
  bufD : List (List Byte)
  bufC : List (List Byte)
  waitD : List (List Byte)
  waitC : List (List Byte)
  /-- A flit of the space has been accepted since the port came UP (DACK_V, CACK_V). -/
  seenD : Bool
  seenC : Bool
  /-- A NAK is outstanding in a space. -/
  nakD : Bool
  nakC : Bool
  /-- Accepted flits not yet acknowledged to the partner. -/
  owed : Nat
  /-- The replay episode: open, when it opened, replays in it, unacknowledged flits outstanding at the first replay. -/
  epOpen : Bool
  epStart : Nat
  epReplays : Nat
  epOutD : Nat
  epOutC : Nat
  /-- An LP request is waiting to be answered, or an LP request of ours is delayed (R89). -/
  lpOwed : Bool
  lpWanted : Bool
  /-- Credits returned by the partner for VC 0 to 3, those spent on packets sent, and credits of ours still to be returned, in
  16-byte units (R72). -/
  credits : Tab Nat
  spent : Tab Nat
  crdOwed : Tab Nat
  /-- Packets of VC 1 to 3 that wait for credits, oldest first. -/
  held : List (List Byte)
  /-- Body units of a packet that is still arriving, and packets and control messages accepted and not yet taken. -/
  asm : List Byte
  asmOpen : Bool
  delivered : List (List Byte)
  deriving DecidableEq, Repr

/-- A remote request this node has outstanding (R112). -/
structure RemReq where
  tag : Nat
  op : Nat
  dst : Nat
  addr : Nat
  port : Nat
  issued : Nat
  /-- Issued before the running FABRIC_FENCE (R441). -/
  fenced : Bool
  deriving DecidableEq, Repr

/-- Fabric membership state (chapter 03). -/
structure FabState where
  /-- Route banks: byte `b * 16384 + off`, and whether each holds an accepted table. -/
  banks : Tab Byte
  ok : Tab Bool
  /-- Windows opened by JOIN_ACCEPT, [0] memory, [1] plan, [2] route, [3] all. -/
  windows : Nat
  reqs : List RemReq
  /-- Tags timed out and not yet free, with the time they become free. -/
  retired : List (Nat × Nat)
  /-- Ticks since the last JOIN_ANNOUNCE. -/
  sinceAnnounce : Nat
  /-- The detach edge has passed and its requests are draining (R123). -/
  detaching : Bool
  /-- Packets delivered locally (R104 step 1) and not yet taken. -/
  inbox : List (List Byte)
  /-- Transit requests that passed while no route bank was active: source, tag and the port each arrived on (R104 step 5). -/
  transit : List (Nat × Nat × Nat)
  deriving DecidableEq, Repr

/-- One open part in the Caldera store (R139): its slot, window and part, whether it holds the local input, and the
inputs in order of arrival as (port, contributions, flags, elements). -/
structure CalEntry where
  slot : Nat
  window : Nat
  part : Nat
  inputs : List (Nat × Nat × Nat × List Nat)
  deriving DecidableEq, Repr

/-- One window that a running slot owns: status bits gathered and the parts held until the window is whole (R142). -/
structure CalWin where
  flags : Nat
  parts : List (Nat × List Byte)
  deriving DecidableEq, Repr

/-- Collective state (chapter 04). -/
structure CalState where
  /-- Accumulator store by first entry index. -/
  store : Tab CalEntry
  /-- Descriptor bytes and segment-table bytes of each running collective slot. -/
  descs : Tab (List Byte)
  segs : Tab (List Byte)
  /-- Open windows of running slots, by `slot * 2^32 + window`. -/
  wins : Tab CalWin
  /-- Owned windows a slot has finished with, by the same key: 1 written, 2 INCOMPLETE. -/
  ended : Tab Nat
  /-- Parts and windows a running slot has done, by slot. -/
  progress : Tab Nat
  /-- Before the commit point: for owned windows that lacked inputs, the ports they lacked them on (each mask once), and a
  phase of this node that failed (R155). -/
  missing : List Nat
  failPeer : Bool
  nonfinite : Bool
  /-- The same for the gather of the step before. -/
  gMissing : List Nat
  gFail : Bool
  /-- The reduced shard is valid (R160). -/
  shardValid : Bool
  /-- Epoch under which the step's reduce-scatter began (R52), and the step-and-try it began in. -/
  startEpoch : Option Nat
  /-- At the timekeeper: a late notice for the step has arrived, and one after its COMMIT. -/
  notice : Bool
  noticeGather : Bool
  /-- Confirm slots whose verdict has been launched or accepted since they were scheduled (R157). -/
  launched : List Nat
  /-- Verdicts launched, modulo 2^32, the count of CAL_VLOG. -/
  vlogCount : Nat
  /-- The gather verdict of the last settled step: 0 none, 1 done, 2 repeat. -/
  gather : Nat
  /-- The confirm of the present step was sent with FAIL_LINK (R576). -/
  sentFailLink : Bool
  /-- The gather verdict that ended each gather-confirm slot of the step: 1 done, 2 repeat (R161, R167). -/
  gverd : Tab Nat
  /-- Repeat slots that wait for their working copy to be derived again (R167). -/
  derive : List Nat
  /-- Confirm slots of a later tick that a verdict has settled already (R157, R162). -/
  settled : List Nat
  /-- Collective slots of an aborted try that still run: how they end says nothing of the next try (R155, R162). -/
  passed : List Nat
  deriving DecidableEq, Repr

/-- One line of the memory-side cache with its directory entry (R192 to R196, R426). -/
structure CLine where
  data : List Byte
  /-- Poisoned 32-byte quarters of the line. -/
  poison : Nat
  dirty : Bool
  keep : Bool
  /-- Use count of DROP_AFTER_LAST, 0 for none. -/
  uses : Nat
  age : Nat
  /-- Engines whose L1 holds the line; OWNED when `owned`. -/
  holders : Nat
  owned : Bool
  deriving DecidableEq, Repr

/-- A request at a memory-side cache slice. `kind` 0 read, 1 write, 2 atomic; from an engine L1: 3 RD_S, 4 RD_X,
5 UPG. -/
structure MReq where
  req : Nat
  kind : Nat
  addr : Nat
  len : Nat
  data : List Byte
  /-- 0 STREAM, 1 KEEP, 2 DROP_AFTER_LAST (R107, R193). -/
  hint : Nat
  uses : Nat
  /-- The deadline a stream context gives its request (R285), and the core cycle of the request's arrival (R189). -/
  deadline : Option Nat
  arrived : Nat
  fmt : Nat
  fetch : Bool
  tag : Nat
  deriving DecidableEq, Repr

/-- Memory as the node sees it (chapters 05 and 06). -/
structure MemState where
  /-- Tier contents by local address; an unlisted byte of a frame that was never laid out anew reads 0 (R549). A
  listed byte is held as the difference from what its address would read unlisted. -/
  cells : Tab Byte
  /-- Poisoned ECC granules, by the address of their first byte. -/
  poison : Tab Bool
  /-- Frames laid out anew since their contents were last defined (R180): the free-value epoch, 0 for none. -/
  epoch : Tab Nat
  /-- The layout each frame was last enabled with: TIER, MODE and RANGE as one number plus 1, 0 for none. -/
  layout : Tab Nat
  /-- The memory-side cache, by line number. -/
  lines : Tab CLine
  /-- Age counter of the cache. -/
  clock : Nat
  /-- Bucket levels in 1/8 bytes, and FIXED_SPLIT credits (READ, WRITE, REMOTE), by partition. -/
  bucket : Tab Nat
  credit : Tab (Nat × Nat × Nat)
  /-- Miss queues, and granted requests that wait for bucket level, by partition. -/
  queue : Tab (List MReq)
  granted : Tab (List MReq)
  /-- Lines with an operation outstanding at the tier: the operation first, then the accesses held behind it. -/
  busy : Tab (List MReq)
  /-- Lines whose operation has issued to its channel. -/
  flying : List Nat
  /-- Layout changes so far (the epochs given out). -/
  epochs : Nat
  /-- Channels still being zeroed after power-on: HBM stack * 32 + pseudo-channel, 256 + deep channel. -/
  zeroing : Tab Bool
  /-- By partition: the core cycle at which the bucket level was last settled, and that up to which the waits of granted
  requests are counted (R185). -/
  bucketAt : Tab Nat
  stallAt : Tab Nat
  /-- The partition each channel controller served last (R190); before any, 15, so that partition 0 comes first. -/
  turn : Tab Nat
  /-- Accesses made whole within a step that met a channel which does not serve, so far (R521, R528). -/
  heldUp : Nat
  deriving DecidableEq, Repr

/-- One entry of a row tracker (R222). -/
structure Track where
  unit : Nat
  count : Nat
  deriving DecidableEq, Repr

/-- A soft remap in progress or waiting for its log entry (R223 to R225). -/
structure Remap where
  /-- Channel number: HBM stack * 32 + pseudo-channel, or 256 + deep channel. -/
  chan : Nat
  /-- HBM bank * 65536 + row, or deep block. -/
  unit : Nat
  count : Nat
  /-- 1 CE_LIMIT, 2 UNCORRECTABLE, 3 REQUEST, 4 TRAINING. -/
  cause : Nat
  /-- 1 HBM_ROW, 2 DEEP_BLOCK, 3 LANE, 4 EXHAUSTED. -/
  kind : Nat
  spare : Nat
  tick : Nat
  deriving DecidableEq, Repr

/-- Reliability state (chapter 06). -/
structure CareState where
  /-- Row trackers by channel, 64 entries each. -/
  track : Tab (List Track)
  /-- Scrub position by channel: the granule index. -/
  scrub : Tab Nat
  /-- Corrected symbols per lane in this pass, by channel * 64 + lane. -/
  lanes : Tab Nat
  /-- Soft remaps started and not done, and remaps waiting to be logged. -/
  active : List Remap
  unlogged : List Remap
  /-- Spares used: by channel, the list of (subarray or 0, spare). -/
  spares : Tab (List (Nat × Nat))
  /-- Next sequence number of the remap log. -/
  logSeq : Nat
  /-- Silent sensor reads in a row, by stack. -/
  silent : Tab Nat
  /-- Highest temperature since the last read is in the register; the generator's accesses done, by channel. -/
  tgDone : Tab Nat
  /-- Errors that stored data holds until it is written or repaired, by place: what every decode of the place finds (R211). A
  place is a local address, plus 2^48 in the memory-side cache, plus (2 + e) * 2^48 in the L1 of engine e. -/
  latent : Tab Ecc
  /-- Corrections of the on-die code that a stack reported to the controller of a pseudo-channel (R211). -/
  onDie : Tab Nat
  /-- Remaps that decodes of this step have called for: channel, unit, count and cause (R223, R240, R241). -/
  due : List (Nat × Nat × Nat × Nat)
  /-- The lane of each pseudo-channel recorded as suspect, plus 1, for the next training (R219). -/
  suspect : Tab Nat
  deriving DecidableEq, Repr

/-- MESI states of an L1 line (R427). -/
inductive Mesi where
  | s | e | m
  deriving DecidableEq, Repr

/-- One line of an engine L1. -/
structure L1Line where
  st : Mesi
  data : List Byte
  poison : Nat
  age : Nat
  deriving DecidableEq, Repr

/-- An open request of an L1: tag, line, kind (0 RD_S, 1 RD_X, 2 UPG, 3 EVICT), and the access that caused it. -/
structure L1Req where
  tag : Nat
  line : Nat
  kind : Nat
  off : Nat
  data : List Byte
  deriving DecidableEq, Repr

/-- One engine L1 with its write-back buffer (R425, R433). -/
structure L1 where
  lines : Tab L1Line
  wb : List (Nat × List Byte × Nat)
  reqs : List L1Req
  clock : Nat
  deriving DecidableEq, Repr

/-- An open snoop of a slice: its tag, engine and line, whether EVICT answered it (STALE, R432), when it was sent. -/
structure Snoop where
  slice : Nat
  tag : Nat
  eng : Nat
  line : Nat
  stale : Bool
  sent : Nat
  deriving DecidableEq, Repr

/-- The transaction open on a line (R429): its request and its phase: 0 waits for snoop answers, 1 the grant is sent,
2 the requester has its grant or its access is performed. -/
structure Txn where
  line : Nat
  req : MReq
  phase : Nat
  deriving DecidableEq, Repr

/-- The message kinds of R428. -/
inductive MsgKind where
  | dataS | dataE | dataX | upgAck | evictAck | wbAck | wbSuperseded | snpShare | snpInv | snpDiscard | rspGone | rspInv
  | rspInvS | rspData | rspDataS
  deriving DecidableEq, Repr

/-- A coherence message on its way between an L1 and a slice. -/
structure CMsg where
  kind : MsgKind
  eng : Nat
  slice : Nat
  tag : Nat
  line : Nat
  data : List Byte
  poison : Nat
  deriving DecidableEq, Repr

/-- Coherence state (chapter 13): the L1s, the slices and the messages between them. -/
structure CohState where
  l1 : Tab L1
  txns : List Txn
  /-- Pending queues by slice, and requests that wait at their requesters because the queue is full. -/
  queue : Tab (List MReq)
  waiting : Tab (List MReq)
  snoops : List Snoop
  /-- Write-backs held for WB_SUPERSEDED: engine and line. -/
  heldWb : List (Nat × Nat)
  /-- Messages sent and not yet received, oldest first. -/
  net : List CMsg
  /-- Engines of the running ENGINE_FENCE, and whether it invalidates. -/
  fenceEngines : Nat
  fenceInv : Bool
  /-- Engines whose batch has issued its own fence (R440). -/
  batchFence : Nat
  /-- Fences of COH_FENCE started so far, and whether a request that the running one covers has timed out (R441). -/
  fenceSeq : Nat
  fenceTimeout : Bool
  deriving DecidableEq, Repr

/-- A row-logic batch that runs on a stack (R258). -/
structure RlgBatch where
  id : Nat
  cmds : List (List Byte)
  masks : List (Nat × Nat)
  next : Nat
  fence : Bool
  submitted : Bool
  slot : Nat
  deriving DecidableEq, Repr

/-- A batch that no completed fence has covered (R265): its ranges as base, bytes, DEST; `over` once its last row is
written. -/
structure RlgCover where
  id : Nat
  ranges : List (Nat × Nat × Bool)
  ended : Bool
  deriving DecidableEq, Repr

/-- An outstanding RL_FENCE: the batches it covers, and who issued it: 0 the register, 1 a slot batch (with its slot),
2 a submitted batch, 3 a stream context, 4 a host queue, 5 an engine or the KV service. -/
structure RlgFence where
  covers : List Nat
  by_ : Nat
  who : Nat
  deriving DecidableEq, Repr

/-- Row-logic state (chapter 07). -/
structure RlgState where
  batches : Tab (Option RlgBatch)
  cover : List RlgCover
  fences : List RlgFence
  /-- Accumulators, 1 KiB, by channel * 16 + bank ([] is all zeros), and their poison flags per 64-byte granule. -/
  acc : Tab (List Byte)
  accPoison : Tab Nat
  /-- Save rows: accumulator and flags. -/
  save : Tab (List Byte × Nat)
  nextId : Nat
  /-- Row activations so far (R251). -/
  acts : Nat
  deriving DecidableEq, Repr

/-- A translation in the TLB of the general MMU (R366): address space, first virtual address and size of the page, its
local address and the leaf's WRITE and MIGRATE. -/
structure TlbEntry where
  asid : Nat
  va : Nat
  size : Nat
  pa : Nat
  write : Bool
  migrate : Bool
  deriving DecidableEq, Repr

/-- An input tile in a context's queue (R283, R288): its base and tag, the slots it holds (none while it is not
allocated), when they were allocated, its bytes once ready, its poisoned lines, and whether it is to be discarded when
its last line arrives (R301). -/
structure InTile where
  base : Nat
  tag : Nat
  reserved : Nat
  shared : Nat
  stamp : Nat
  ready : Bool
  data : List Byte
  poison : List Nat
  drop : Bool
  deriving DecidableEq, Repr

/-- An output tile (R287): its base and slots, the bytes filled so far, its poisoned 32-byte parts, marked full, the core cycle at
which it was emitted (R285). -/
structure OutTile where
  base : Nat
  reserved : Nat
  data : List Byte
  poison : List Nat
  full : Bool
  emitted : Nat
  deriving DecidableEq, Repr

/-- A stream context (R276). -/
structure StrCtx where
  /-- The 96 bytes of the batch descriptor in force, [] before the first batch, and its address (the saved DESC). -/
  desc : List Byte
  at_ : Nat
  /-- A batch runs, and the slot it belongs to, if any. -/
  active : Bool
  slot : Nat
  a : Tab Nat
  l : Tab Nat
  inq : List InTile
  outq : List OutTile
  /-- The program has run past its last instruction; END has been executed. -/
  past : Bool
  ended : Bool
  /-- The look-ahead tag (R292). -/
  tag : Nat
  halting : Bool
  /-- What a waiting context waits for: 0 nothing, 1 the consumer (R283), 2 input slots, 3 output slots, 4 RL_FENCE. -/
  wait : Nat
  /-- When the wait began, and how many times it has been traced (R300). -/
  since : Nat
  traces : Nat
  /-- A victim that takes no shared slot until a release (R302). -/
  barred : Bool
  /-- Admitted while its group drained (R305). -/
  held : Bool
  /-- A refused line of an emitted tile: the address to fault at the next instruction (R295). -/
  refused : Option Nat
  /-- The tile that the consumer began last, and the core cycle at which it did; before its first tile 0 and the cycle at which
  the slot started (R285). -/
  tileNow : Nat
  began : Nat
  /-- When the context began to wait for shared slots (R288). -/
  space : Nat
  /-- The cycle members that are still to get a slot of this victim's tiles in flight (R302). -/
  heirs : List Nat
  deriving DecidableEq, Repr

/-- Streams and Glade (chapter 08): the contexts, and the allocations so far. -/
structure StrState where
  ctx : Tab StrCtx
  stamp : Nat
  deriving DecidableEq, Repr

/-- The record a batch with DERIVE keeps (R335): planes, working copy, elements, key, stream, index of the first
element, elements of the tensor, and step. -/
structure DeriveRec where
  hi : Nat
  ext : Nat
  wc : Nat
  elems : Nat
  key : Nat
  stream : Nat
  index0 : Nat
  n : Nat
  step : Nat
  deriving DecidableEq, Repr

/-- An update engine (R310). A lane of a vector register is held as its 32 bits plus 2^32 for its poison mark (R323). -/
structure Eng where
  /-- The 256 bytes of the batch descriptor in force, [] before the first batch, and its address (the saved DESC). -/
  desc : List Byte
  at_ : Nat
  /-- A batch runs; the slot it belongs to, or a submission. -/
  active : Bool
  slot : Nat
  submitted : Bool
  /-- ENTRY and LEN of the program, the step S in force and the key (R332, R407). -/
  entry : Nat
  len : Nat
  step : Nat
  key : Nat
  /-- A quad is computed and its outputs are not written yet; the next instruction of the program. -/
  pend : Bool
  pc : Nat
  halting : Bool
  /-- When the wait in FETCH began. -/
  since : Nat
  /-- EXP and WSTAT bytes of the quad's window, and the poison marks of the status port's lanes by batch lane. -/
  exp : Nat
  wstat : Nat
  mark : Nat
  /-- Registers by bank * 16 + number, 64 lanes each, [] for all zero. -/
  v : Tab (List Nat)
  /-- Generator lanes: LFSR state and draws since the last seeding (R412, R415). -/
  gen : Tab (Nat × Nat)
  /-- The lanes have been seeded since the last reset that cleared them (R414). -/
  seeded : Bool
  derive_ : Option DeriveRec
  deriving DecidableEq, Repr

/-- The job that the matrix array runs (R348, R355): its descriptor, source (0 plan slot, 1 KV service, 2 host), slot,
passes done, the accumulator store of the (m, n) tile in progress by rows (FP32 bits plus 2^32 for poison), and when it
began. -/
structure MxaJob where
  desc : List Byte
  source : Nat
  slot : Nat
  pass : Nat
  acc : List (List Nat)
  since : Nat
  deriving DecidableEq, Repr

/-- A KV-service window (R384, R385): its slot, the engines of its mask and those borrowed, MATRIX, ACCEPT, whether it has
stopped accepting, and the accepted requests, oldest first. -/
structure KvWin where
  slot : Nat
  mask : Nat
  borrowed : Nat
  matrix : Bool
  accept : Nat
  ended : Bool
  queue : List (List Byte)
  deriving DecidableEq, Repr

/-- The KV service (chapter 11): descriptors of loaded pools, open windows, and the look-aside buffer as (pool, record,
logical page, page), most recently used first. -/
structure KvState where
  pools : Tab (List Byte)
  wins : Tab (Option KvWin)
  lab : List (Nat × Nat × Nat × Nat)
  deriving DecidableEq, Repr

/-- The noise source (chapter 12): seed words held, health failures in consecutive blocks, a start-up test in progress, the
continuous tests (last sample and its run; first sample of the window, samples taken and matches), and the lanes that a
NOISE seeding still has to seed, as engine * 64 + lane. -/
structure RngState where
  words : List Nat
  fails : Nat
  testing : Bool
  last : Option Nat
  run : Nat
  first : Nat
  taken : Nat
  same : Nat
  lanes : List Nat
  deriving DecidableEq, Repr

/-- Fumarole's own state (chapter 16). -/
structure FumState where
  /-- Transition that runs: 0 none, 1 into P1, 2 out of P1. -/
  transition : Nat
  /-- Level 15 is held for over-current, or for a hot die (R513). -/
  ocHold : Bool
  dieHold : Bool
  /-- A1 takes effect at the next edge; units gated in A1: engine clusters by bit, bit 16 the matrix array. -/
  gated : Nat
  /-- Fumarole requested a hold, or sent a late notice, in the tick (R510). -/
  heldTick : Bool
  lateTick : Bool
  /-- Counter totals at the last telemetry record, and what reads of clearing counters have taken from them, by index of
  the counter in the record. -/
  prev : Tab Nat
  lost : Tab Nat
  /-- Milliseconds for which P_S has exceeded the applied budget. -/
  overMs : Nat
  /-- The last telemetry record, the TEL_LAST window. -/
  last : Tab Byte
  /-- REJOIN_READY has been set since OUT was; a switchover was committed after that (R522). -/
  rejoin : Bool
  clearOut : Bool
  deriving DecidableEq, Repr

/-- One entry of the coalescing table (R572). -/
structure Coal where
  cls : Nat
  code : Nat
  unit : Nat
  info : Nat
  expire : Nat
  count : Nat
  tick : Nat
  action : Nat
  claim : Option Nat
  deriving DecidableEq, Repr

/-- Fault records (chapter 18). -/
structure FltState where
  /-- TEL_FAULT_BUF, 512 bytes, and how many of its records this start has written. -/
  buf : Tab Byte
  fresh : Nat
  coal : List Coal
  /-- Ports whose claim became RECOVERED before the present step's confirm slot started (R566). -/
  cleared : Nat
  deriving DecidableEq, Repr

/-- One MSI-X table entry; `ctrl` bit 0 masks the vector. -/
structure Msix where
  addr : Nat
  data : Nat
  ctrl : Nat
  deriving DecidableEq, Repr

/-- One host queue (R589 to R593). -/
structure HQueue where
  /-- PHASE of the next completion. -/
  phase : Bool
  /-- SQ slots whose entries are being fetched or wait to run, oldest first, and the entries that have arrived, by slot: 64
  bytes, or one byte that says why the read failed. -/
  order : List Nat
  cmds : Tab (List Byte)
  /-- The command that runs, and how far it is: 0 not begun, else 1 plus the number of its fence. -/
  running : Option (List Byte)
  step : Nat
  /-- Bytes of its host data asked for and still to come, the pieces received by offset, and why a read of it failed. -/
  asked : Nat
  need : Nat
  got : Tab (List Byte)
  err : Nat
  /-- A completion held for a full CQ, with its QUIET. -/
  held : Option (List Byte × Bool)
  deriving DecidableEq, Repr

/-- Host port, mailbox and management port (chapter 19). -/
structure HostState where
  msix : Tab Msix
  msixPend : Nat
  /-- MSI-X Enable and Function Mask, memory decoding, bus mastering, D3hot. -/
  msixEn : Bool
  msixMask : Bool
  memEn : Bool
  busMaster : Bool
  d3 : Bool
  /-- Other writable configuration dwords. -/
  cfg : Tab Nat
  /-- AER: correctable and uncorrectable events logged, as the base specification numbers their bits. -/
  aer : Nat
  queues : Tab HQueue
  /-- Outstanding host reads: tag, queue, purpose (0 SQ entry, 1 data), slot or offset, length. -/
  reads : List (Nat × Nat × Nat × Nat × Nat)
  /-- Entries fetched, as (queue, slot), in order of fetch: those on their way, and the loads, armings and detaches that have not
  completed (R592). -/
  serial : List (Nat × Nat)
  /-- Configuration requests are answered with retry status until the ID block answers. -/
  answers : Bool
  /-- The DETACH completion has been written (R606). -/
  quiet : Bool
  /-- Mailbox: the 4 KiB buffer, and the operation in progress: OP, offset or fuse argument, bytes or the fuse value before
  it, and the REASON it will report. -/
  flashBuf : Tab Byte
  mbox : Option (Nat × Nat × Nat × Nat)
  /-- Management alerts pending, SMB_ALERT_N driven low, and a PEC error to report. -/
  alerts : Nat
  alertLow : Bool
  pecErr : Bool
  /-- The upper halves latched by 32-bit reads of low words (R5), by register. -/
  latch : Tab Nat
  deriving DecidableEq, Repr

/-- The module in its slot (chapter 14): the power sequencer's place (0 switch off, 1 ramp, 2 to 7 waiting for rail step
1 to 6, 8 the die is powered), input power applied, PRES_N low, a trip latched and when; the lever open, COOL_OK high, the
leak sensor wet; COOL_LEAK_N driven low. -/
structure ModState where
  seq : Nat
  vin : Bool
  present : Bool
  tripped : Bool
  tripAt : Nat
  ejectOpen : Bool
  coolOk : Bool
  leak : Bool
  leakLow : Bool
  deriving DecidableEq, Repr

/-- The three lights of the front edge (R469): POWER 0 off, 1 steady, 2 blink 1 Hz; STATUS as LED_CTL.STATUS_SHOWN numbers
it; SAFE 0 off, 1 steady, 2 blink 1 Hz. -/
structure Lights where
  power : Nat
  status : Nat
  safe : Nat
  deriving DecidableEq, Repr

/-- Start-up (chapter 15): the fuses (R478), the time of die reset release, the slots tried and the one that passed, the
partitions its image enables, the Narup cores that have reported ready and their local stores by core * 2^20 + offset, and of the NODE section LISTEN and
the eight RANKING words. -/
structure BootState where
  uid : Nat
  keyHash : Tab Nat
  revoked : Nat
  svn : Nat
  release : Nat
  tried : List Nat
  slot : Option Nat
  parts : Nat
  ready : Nat
  narup : Tab Byte
  listen : Nat
  ranking : List Nat
  deriving DecidableEq, Repr

/-- The reset in progress (chapter 17): 0 none, 2 module, 3 fabric, 4 compute, 5 plan; when it was triggered; engines whose
L1 write-back, and whether the cache write-back, did not end within its bound; the internal reset is asserted; a forced end left
a memory fault to report at the next ready-for-plan (R560). -/
structure RstState where
  kind : Nat
  since : Nat
  late : Nat
  cacheLate : Bool
  held : Bool
  report : Bool
  deriving DecidableEq, Repr

/-- The node. -/
structure State where
  /-- Commands that wait, first in first out (the block's queue). -/
  pending : List Instr
  /-- Register fields by bit address; a field that is not listed reads its reset value. -/
  regs : Tab Nat
  /-- Time since power-on, in ps. -/
  now : Nat
  /-- Free values taken so far (the model's own field). -/
  free : Nat
  /-- What the node sent and answered, newest first (the model's own field). -/
  sent : List Out
  tick : TickState
  ports : Tab Port
  fab : FabState
  cal : CalState
  mem : MemState
  care : CareState
  coh : CohState
  rlg : RlgState
  tlb : List TlbEntry
  str : StrState
  upe : Tab Eng
  mxa : Option MxaJob
  kvs : KvState
  rng : RngState
  fum : FumState
  flt : FltState
  host : HostState
  mod : ModState
  lights : Lights
  boot : BootState
  rst : RstState
  /-- The 256 MiB NOR flash, by offset; an unlisted byte reads 0xFF (erased). -/
  flash : Tab Byte
  deriving DecidableEq, Repr

/-! ## Reset -/

def TickState.reset : TickState :=
  ⟨false, 0, 0, 0, 0, 0, 0, false, 0, 0, 0, 0, none, 0, 0, false, 0, false, none, 0, [], [], [], [], [], [], none, false, false, []⟩

def FabState.reset : FabState := ⟨[], [], 0, [], [], 0, false, [], []⟩

def CalState.reset : CalState :=
  ⟨[], [], [], [], [], [], [], false, false, [], false, false, none, false, false, [], 0, 0, false, [], [], [], []⟩

def MemState.reset : MemState := ⟨[], [], [], [], [], 0, [], [], [], [], [], [], 0, [], [], [], [], 0⟩

def CareState.reset : CareState := ⟨[], [], [], [], [], [], 0, [], [], [], [], [], []⟩

def CohState.reset : CohState := ⟨[], [], [], [], [], [], [], 0, false, 0, 0, false⟩

def RlgState.reset : RlgState := ⟨[], [], [], [], [], [], 0, 0⟩

def StrState.reset : StrState := ⟨[], 0⟩

def KvState.reset : KvState := ⟨[], [], []⟩

def RngState.reset : RngState := ⟨[], 0, false, none, 0, 0, 0, 0, []⟩

def FumState.reset : FumState := ⟨0, false, false, 0, false, false, [], [], 0, [], false, false⟩

def FltState.reset : FltState := ⟨[], 0, [], 0⟩

def HostState.reset : HostState :=
  ⟨[], 0, false, false, false, false, false, [], 0, [], [], [], false, false, [], none, 0, false, false, []⟩

/-- A module seated with every rail good, the die still in reset (DESIGN CHOICE, assumption 16). -/
def ModState.reset : ModState := ⟨8, true, true, false, 0, false, true, false, false⟩

/-- Fuses with no key programmed (DESIGN CHOICE, assumption 17). -/
def BootState.reset : BootState := ⟨0, [], 0, 0, 0, [], none, 0, 0, [], 0, []⟩

def RstState.reset : RstState := ⟨0, 0, 0, false, true, false⟩

/-- The node at power-on, at the moment before die reset release: every register field at its reset value, nothing in
memory, no command waiting. -/
def State.reset : State :=
  { pending := [], regs := [], now := 0, free := 0, sent := []
    tick := TickState.reset, ports := [], fab := FabState.reset, cal := CalState.reset, mem := MemState.reset
    care := CareState.reset, coh := CohState.reset, rlg := RlgState.reset, tlb := [], str := StrState.reset, upe := []
    mxa := none, kvs := KvState.reset, rng := RngState.reset, fum := FumState.reset, flt := FltState.reset
    host := HostState.reset, mod := ModState.reset, lights := ⟨1, 0, 0⟩, boot := BootState.reset, rst := RstState.reset
    flash := [] }

end Sys2Proof.Machine
end

