-- ==== Sys2Proof/Machine/Ops.lean ====
section
/-! DEFINITION. The named operations over the state: register fields, what the node sends, MSI-X messages, the map of
the memory region, memory contents, free values, and fault records. -/

namespace Sys2Proof.Machine

/-! ## Register fields -/

/-- The value of a register field: its listed value, or its reset value. -/
def State.get (s : State) (f : Fld) : Nat := Tab.get f.reset s.regs f.key

/-- The state in which a field holds `v`, cut to its width. -/
def State.set (f : Fld) (v : Nat) (s : State) : State :=
  { s with regs := Tab.set f.reset s.regs f.key (v % 2 ^ f.width) }

/-- Whether a one-bit field is 1. -/
def State.flag (s : State) (f : Fld) : Bool := s.get f == 1

/-- The counters that the spec calls saturating (R563, register tables of chapters 02, 17 and 18). -/
def saturates (f : Fld) : Bool :=
  [rstCountModule, rstCountFabric, rstCountCompute, rstCountPlan].contains f ||
    (List.range 16).any (fun p => f == elvReplayReplays p || f == telClaimRepeats p)

/-- A count in a counter: past the largest value it stays there or, where the spec does not say so, is a free value
(assumption 5). -/
def counted (f : Fld) (v : Nat) : Nat :=
  if v < 2 ^ f.width then v else if saturates f then 2 ^ f.width - 1 else Config.pastMax f.key v

/-- A counter plus `n`. -/
def State.bump (f : Fld) (n : Nat) (s : State) : State := s.set f (counted f (s.get f + n))

/-- The field's reset value. -/
def State.clear (f : Fld) (s : State) : State := s.set f f.reset

/-- An element put before the first one that it may precede. -/
def insertBy {α : Type} (le : α → α → Bool) (x : α) : List α → List α
  | [] => [x]
  | y :: l => if le x y then x :: y :: l else y :: insertBy le x l

/-- A list in order. -/
def sortBy {α : Type} (le : α → α → Bool) (l : List α) : List α := l.foldr (insertBy le) []

/-- A function applied to each element in turn. -/
def State.each {α : Type} (l : List α) (f : α → State → State) (s : State) : State :=
  l.foldl (fun t a => f a t) s

/-- One more entry in the log of what the node sent. -/
def State.emit (o : Out) (s : State) : State := { s with sent := o :: s.sent }

/-- `f` when `b` holds. -/
def State.on (b : Bool) (f : State → State) (s : State) : State := if b then f s else s

/-- A free value, and the counter advanced (assumption 3). -/
def State.takeFree (s : State) : Nat × State := (Config.freeValue s.free, { s with free := s.free + 1 })

/-- The bits of `x` that are not in `m`. -/
def clearBits (x m : Nat) : Nat := Nat.xor x (Nat.land x m)

/-! ## Places of the state -/

/-- A line of the memory-side cache written. -/
def State.setLine (line : Nat) (l : CLine) (s : State) : State :=
  { s with mem := { s.mem with lines := Tab.set ⟨[], 0, false, false, 0, 0, 0, false⟩ s.mem.lines line l } }

/-- The empty L1. -/
def l1Empty : L1 := ⟨[], [], [], 0⟩

/-- An engine's L1 written. -/
def State.setL1 (e : Nat) (x : L1) (s : State) : State :=
  { s with coh := { s.coh with l1 := Tab.set l1Empty s.coh.l1 e x } }

/-- An engine's L1. -/
def State.l1 (s : State) (e : Nat) : L1 := Tab.get l1Empty s.coh.l1 e

/-- Poison of a granule in the tier. -/
def State.setPoison (a : Nat) (v : Bool) (s : State) : State :=
  { s with mem := { s.mem with poison := Tab.set false s.mem.poison a v } }

/-! ## Interrupt messages (R597, R598) -/

/-- The vector of an event register, by its BAR0 offset (R597). -/
def vectorOf (reg : Nat) : Nat :=
  if reg < 0x100000 then (if reg = 0x1000c then 15 else 0)
  else if reg < 0x200000 then 3
  else if reg < 0x300000 then 4
  else if reg < 0x600000 then 5
  else if reg < 0x800000 then 6
  else if reg < 0xc00000 then 7
  else if reg < 0xd00000 then 8
  else if reg < 0x1000000 then 9
  else if reg < 0x1400000 then 10
  else if reg < 0x1500000 then 11
  else if reg < 0x1600000 then 12
  else if reg < 0x1800000 then 13
  else if reg < 0x1900000 then 14
  else if reg < 0x1a00000 then 2
  else if reg < 0x1b00000 then 0
  else 1

/-- Whether a register's W1C bits are a source of a vector (R597): the event registers and the mailbox's DONE. -/
def isEventField (f : Fld) : Bool :=
  f.acc == .w1c &&
    (let r := f.reg
     r == 0x104 || r == 0x10014 || r == 0x1a00008 || r == 0x1c010a0 || r == 0x1900008 || r == 0x100058 ||
     (0x200000 ≤ r && r < 0x300000 && r % 0x10000 == 0x1c) || r == 0x400038 || r == 0x600014 || r == 0x800008 ||
     (0xa00000 ≤ r && r < 0xb00000 && r % 0x10000 == 0x10) || r == 0xb00010 || r == 0xc0000c ||
     (0xd00000 ≤ r && r < 0xd80000 && r % 0x400 == 0x14) || r == 0xe00008 ||
     (0x1000000 ≤ r && r < 0x1400000 && r % 0x10000 == 8) || r == 0x1400004 || r == 0x1500004 || r == 0x160003c ||
     r == 0x1700010 || r == 0x1800020 || (r == 0x1000c && f.lsb == 1))

/-- An MSI-X table entry after a hot reset: masked. -/
def msixReset : Msix := ⟨0, 0, 1⟩

/-- The message of a vector leaves, or its pending bit is set while the function or the vector is masked, or while the
message cannot leave; in the bring-up window, in P2 and after the DETACH completion no message is sent (R501, R598, R606). -/
def sendVector (v : Nat) (s : State) : State :=
  let e := Tab.get msixReset s.host.msix v
  if s.host.quiet || s.flag idBootStatWindow then s
  else if s.host.msixEn && !s.host.msixMask && s.flag hstStatusUp && !s.host.d3 && e.ctrl % 2 == 0 then
    s.emit (.msix v e.addr e.data)
  else { s with host := { s.host with msixPend := Nat.lor s.host.msixPend (2 ^ v) } }

/-- Whether a vector is enabled; vector 0 always is (R598). -/
def vectorEnabled (v : Nat) (s : State) : Bool := v == 0 || bitOf (s.get hstIrqEnVectors) v

/-- A W1C bit is set by hardware. Going from 0 to 1 it sends its vector's message (R11, R598). -/
def raise (f : Fld) (s : State) : State :=
  if s.get f = 1 then s
  else
    let s := s.set f 1
    let v := vectorOf f.reg
    if isEventField f && vectorEnabled v s then sendVector v s else s

/-! ## The tick and the node (chapters 01, 03) -/

/-- In tick lock: LOCKED or HOLDOVER, or timekeeper (R22; DEDUCED, assumption 6). -/
def inLock (s : State) : Bool := s.get tickStatusLock == 2 || s.get tickStatusLock == 3 || s.flag tickStatusTk

/-- TICK_COUNT for a record, or 0 when the node is not in tick lock (R573). -/
def lockTick (s : State) : Nat := if inLock s then s.get tickCountCount else 0

/-- The node's own ID. -/
def ownId (s : State) : Nat := s.get fabNodeIdId

/-- The period in force, in ps. -/
def periodPs (s : State) : Nat := s.get tickPeriodCycles * 625

/-- One extension unit, 12.5 % of the period, in ps. -/
def unitPs (s : State) : Nat := periodPs s / 8

/-- The pending edge: one period after the last, plus the units granted (R21, R43). -/
def pendingEdge (s : State) : Nat := s.tick.edge + periodPs s + s.tick.ext * unitPs s

/-- A later moment: time never runs back. -/
def State.reach (t : Nat) (s : State) : State := { s with now := max s.now t }

/-! ## The map of the memory region (R174 to R184) -/

def hbmBytes : Nat := 192 * 2 ^ 30
def deepBase : Nat := 0x10000000000
def deepBytes : Nat := 512 * 2 ^ 30

/-- Tier (0 HBM, 1 deep) and tier offset of a local address (R174). -/
def tierOf (a : Nat) : Option (Nat × Nat) :=
  if a < hbmBytes then some (0, a)
  else if deepBase ≤ a ∧ a < deepBase + deepBytes then some (1, a - deepBase)
  else none

/-- A frame as one number: tier * 1024 + frame of the tier. -/
def frameKey (a : Nat) : Nat :=
  match tierOf a with
  | some (t, o) => t * 1024 + o / 2 ^ 30
  | none => 4096

/-- Whether partition `p` covers frame `k` of tier `t`. -/
def partCovers (s : State) (t k p : Nat) : Bool :=
  s.get (memPartCfgTier p) == t && decide (s.get (memPartRangeFirst p) ≤ k) &&
    decide (k < s.get (memPartRangeFirst p) + s.get (memPartRangeFrames p))

/-- The enabled or draining partition that covers an address. -/
def partOf (s : State) (a : Nat) : Option Nat :=
  match tierOf a with
  | none => none
  | some (t, o) =>
    (List.range 16).find? (fun p =>
      (s.flag (memPartCfgEnable p) || s.flag (memPartCfgDraining p)) && partCovers s t (o / 2 ^ 30) p)

/-- Why an access is refused (R175): 0 served, 1 unmapped range, 2 no partition, 3 partition draining. -/
def refusal (s : State) (a : Nat) : Nat :=
  match tierOf a with
  | none => 1
  | some _ =>
    match partOf s a with
    | none => 2
    | some p => if s.flag (memPartCfgDraining p) then 3 else 0

/-- Whether every byte of a range is served. Ranges of the node's units lie in few frames; the first and the last byte
and every frame between decide. -/
def servedRange (s : State) (a n : Nat) : Bool :=
  n == 0 || (refusal s a == 0 && refusal s (a + n - 1) == 0 &&
    (List.range ((a + n - 1) / 2 ^ 30 - a / 2 ^ 30)).all (fun i => refusal s ((a / 2 ^ 30 + i + 1) * 2 ^ 30) == 0))

/-- Where an address lies: tier, channel (HBM: stack * 32 + pseudo-channel; deep: channel), bank, row, byte in the row
(HBM), or channel-local offset in `row` (deep). -/
structure Phys where
  tier : Nat
  chan : Nat
  bank : Nat
  row : Nat
  byte : Nat
  deriving DecidableEq, Repr

/-- Parity of the bits of `o` at the listed places. -/
def xorBits (o : Nat) (l : List Nat) : Nat := (l.map (fun i => o / 2 ^ i % 2)).sum % 2

/-- R181. -/
def hashHbm (o : Nat) : Phys :=
  let lo := ((List.range 6).map (fun i => xorBits o [8 + i, 16 + i, 24 + i, 32 + i] * 2 ^ i)).sum
  let hi := ([6, 7].map (fun i => xorBits o [8 + i, 16 + i, 24 + i] * 2 ^ i)).sum
  ⟨0, lo + hi, bits o 18 4, bits o 22 16, bits o 16 2 * 256 + bits o 0 8⟩

/-- R182. -/
def hashDeep (o : Nat) : Phys :=
  let ch := ((List.range 5).map (fun i => xorBits o [8 + i, 13 + i, 18 + i, 23 + i, 28 + i, 33 + i] * 2 ^ i)).sum
  ⟨1, ch, 0, bits o 13 26 * 256 + bits o 0 8, 0⟩

/-- R183, for a partition of `n` frames from frame `k`. -/
def contigHbm (k n o : Nat) : Phys :=
  let r := o - k * 2 ^ 30
  let st := r / (n * 2 ^ 27)
  let p := r - st * n * 2 ^ 27
  ⟨0, st * 32 + bits p 10 5, bits p 15 4, 256 * k + p / 2 ^ 19, bits p 0 10⟩

/-- R184. -/
def contigDeep (k n o : Nat) : Phys :=
  let r := o - k * 2 ^ 30
  let g := r / (n * 2 ^ 27)
  let p := r - g * n * 2 ^ 27
  ⟨1, 4 * g + bits p 8 2, 0, k * 2 ^ 25 + p / 1024 * 256 + bits p 0 8, 0⟩

/-! ## The bucket (R185, R186) -/

/-- The core cycle, of 625 ps, that a moment lies in. -/
def cycleAt (t : Nat) : Nat := t / 625

/-- Core cycles since power-on, as the free-running counter shows them (R189). -/
def cycleNow (s : State) : Nat := cycleAt s.now

/-- The cap of a partition's bucket, in 1/8 bytes. -/
def bucketCap (s : State) (p : Nat) : Nat := s.get (memPartBurstKib p) * 8192

/-- A partition's bucket level at a core cycle: RATE is added at each, up to the cap. -/
def bucketLevel (s : State) (p t : Nat) : Nat :=
  min (bucketCap s p) (Tab.get 0 s.mem.bucket p + s.get (memPartRateRate p) * (t - Tab.get 0 s.mem.bucketAt p))

/-- A partition's bucket level set, as of now. -/
def setBucket (p v : Nat) (s : State) : State :=
  { s with mem := { s.mem with bucket := Tab.set 0 s.mem.bucket p v, bucketAt := Tab.set 0 s.mem.bucketAt p (cycleNow s) } }

/-- `b` bytes charged to the partition of an address. -/
def charge (a b : Nat) (s : State) : State :=
  match partOf s a with
  | none => s
  | some p =>
    let s := s.bump (memPartBytesCount p) b
    if s.flag (memPartCfgRegEn p) then setBucket p (bucketLevel s p (cycleNow s) - 8 * b) s else s

/-- The decode of an address under the partition that covers it. -/
def physOf (s : State) (a : Nat) : Option Phys :=
  match tierOf a, partOf s a with
  | some (t, o), some p =>
    let k := s.get (memPartRangeFirst p)
    let n := s.get (memPartRangeFrames p)
    if s.flag (memPartCfgMode p) then some (if t = 0 then hashHbm o else hashDeep o)
    else some (if t = 0 then contigHbm k n o else contigDeep k n o)
  | _, _ => none

/-- The same where no partition covers the address: under HASH (assumption 7). -/
def placeOf (s : State) (a : Nat) : Option Phys :=
  match physOf s a with
  | some p => some p
  | none => (tierOf a).map (fun x => if x.1 = 0 then hashHbm x.2 else hashDeep x.2)

/-- The tier offset whose HASH decode is a place in the HBM tier: R181 read backwards. -/
def unhashHbm (chan bank row byte : Nat) : Nat :=
  let base := row * 2 ^ 22 + bank * 2 ^ 18 + byte / 256 * 2 ^ 16 + byte % 256
  let lo := ((List.range 6).map (fun i =>
    ((chan / 2 ^ i + xorBits base [16 + i, 24 + i, 32 + i]) % 2) * 2 ^ (8 + i))).sum
  let hi := ([6, 7].map (fun i => ((chan / 2 ^ i + xorBits base [16 + i, 24 + i]) % 2) * 2 ^ (8 + i))).sum
  base + lo + hi

/-- R182 read backwards. -/
def unhashDeep (chan off : Nat) : Nat :=
  let base := off / 256 * 2 ^ 13 + off % 256
  base + ((List.range 5).map (fun i =>
    ((chan / 2 ^ i + xorBits base [13 + i, 18 + i, 23 + i, 28 + i, 33 + i]) % 2) * 2 ^ (8 + i))).sum

/-- The local address of a byte of an HBM row: under the decode of the partition that covers the row's frame, or of
HASH when none does (assumption 7). -/
def addrHbm (s : State) (chan bank row byte : Nat) : Nat :=
  match (List.range 16).find? (fun p =>
      (s.flag (memPartCfgEnable p) || s.flag (memPartCfgDraining p)) && partCovers s 0 (row / 256) p &&
        !s.flag (memPartCfgMode p)) with
  | some p =>
    let k := s.get (memPartRangeFirst p)
    let n := s.get (memPartRangeFrames p)
    k * 2 ^ 30 + chan / 32 * (n * 2 ^ 27) + (row - 256 * k) * 2 ^ 19 + bank * 2 ^ 15 + chan % 32 * 2 ^ 10 + byte
  | none => unhashHbm chan bank row byte

/-- The local address of a channel-local offset of the deep tier. -/
def addrDeep (s : State) (chan off : Nat) : Nat :=
  deepBase + (match (List.range 16).find? (fun p =>
      (s.flag (memPartCfgEnable p) || s.flag (memPartCfgDraining p)) && partCovers s 1 (off / 2 ^ 25) p &&
        !s.flag (memPartCfgMode p)) with
  | some p =>
    let k := s.get (memPartRangeFirst p)
    let n := s.get (memPartRangeFrames p)
    let l := off - k * 2 ^ 25
    k * 2 ^ 30 + chan / 4 * (n * 2 ^ 27) + l / 256 * 1024 + chan % 4 * 256 + l % 256
  | none => unhashDeep chan off)

/-! ## Memory contents -/

/-- Bytes of an ECC granule at an address: 64 in the HBM tier, 32 in the deep tier (R211). -/
def granule (a : Nat) : Nat := if a < deepBase then 64 else 32

/-- First byte of the ECC granule of an address. -/
def granuleBase (a : Nat) : Nat := a / granule a * granule a

/-- What an unlisted byte reads as: 0, or a free value in a frame laid out anew (R180, R549). -/
def memDflt (s : State) (a : Nat) : Byte :=
  let e := Tab.get 0 s.mem.epoch (frameKey a)
  if e = 0 then 0 else Config.freeMem e a

/-- The canonical form of the memory's cells: addresses strictly rising, and no entry equal to what an unlisted address
holds. -/
def Memory.wf (m : Tab Byte) : Bool := Tab.wf 0 m

/-- A byte of the tier. -/
def tierByte (s : State) (a : Nat) : Byte := Tab.get 0 s.mem.cells a ^^^ memDflt s a

/-- The tier with one byte written. -/
def tierPut (a : Nat) (b : Byte) (s : State) : State :=
  { s with mem := { s.mem with cells := Tab.set 0 s.mem.cells a (b ^^^ memDflt s a) } }

/-- A line that the cache does not hold. -/
def noLine : CLine := ⟨[], 0, false, false, 0, 0, 0, false⟩

/-- The cached line of an address, if the cache holds it. -/
def cached (s : State) (line : Nat) : Option CLine :=
  let l := Tab.get noLine s.mem.lines line
  if l.data = [] then none else some l

/-- A byte as the memory-side cache holds it (R437). -/
def cacheByte (s : State) (a : Nat) : Byte :=
  match cached s (a / 128) with
  | some l => l.data.getD (a % 128) 0
  | none => tierByte s a

/-- Whether a failed pseudo-channel or channel answers for an address (R217, R218). -/
def chanFailed (s : State) (a : Nat) : Bool :=
  match physOf s a with
  | some p =>
    if p.tier = 0 then bitOf (s.get (hbmFailedPcMask (p.chan / 32))) (p.chan % 32)
    else bitOf (s.get dtcFailedChMask) p.chan
  | none => false

/-- Whether the tier holds poison at an address. -/
def tierPoison (s : State) (a : Nat) : Bool :=
  Tab.get false s.mem.poison (granuleBase a) || chanFailed s a

/-- Whether a line of the tier is poisoned, as a mask of its 32-byte quarters. -/
def tierPoisonMask (s : State) (line : Nat) : Nat :=
  ((List.range 4).map (fun i => b2n (tierPoison s (line * 128 + 32 * i)) * 2 ^ i)).sum

/-- The L1 line of an engine, if it holds one. -/
def l1Line (s : State) (e line : Nat) : Option L1Line :=
  ((s.l1 e).lines.find? (fun p => p.1 == line)).map Prod.snd

/-- The dirty copy of a line outside the cache: in the owner's L1 in M, or in an engine's write-back buffer (R433). -/
def dirtyCopy (s : State) (line : Nat) : Option (Nat × List Byte × Nat) :=
  match cached s line with
  | some l =>
    if l.owned then
      (lowestBit 64 l.holders).bind (fun e =>
        match l1Line s e line with
        | some x => if x.st = .m then some (e, x.data, x.poison) else none
        | none => ((s.l1 e).wb.find? (fun w => w.1 == line)).map (fun w => (e, w.2)))
    else none
  | none => none

/-- A byte as a coherent agent reads it: a dirty L1 copy first, then the cache, then the tier (R436). -/
def nodeByte (s : State) (a : Nat) : Byte :=
  match dirtyCopy s (a / 128) with
  | some d => d.2.1.getD (a % 128) 0
  | none => cacheByte s a

/-- The poisoned 32-byte quarters of a line as the cache or the tier holds it. -/
def cachePoisonMask (s : State) (line : Nat) : Nat :=
  match cached s line with
  | some l => l.poison
  | none => tierPoisonMask s line

/-- The poisoned 32-byte quarters of a line as a coherent agent reads it. -/
def nodePoisonMask (s : State) (line : Nat) : Nat :=
  match dirtyCopy s line with
  | some d => d.2.2
  | none => cachePoisonMask s line

/-- Whether the granule of a byte is poisoned where its contents stand. -/
def granulePoison (s : State) (a : Nat) : Bool := bitOf (nodePoisonMask s (a / 128)) (a % 128 / 32)

/-- Whether a coherent read of a byte returns POISON: any poisoned granule poisons the whole line (R215). -/
def nodePoison (s : State) (a : Nat) : Bool := nodePoisonMask s (a / 128) != 0

/-- The bytes of a range as a coherent agent reads them; a refused byte reads 0xFF (R175). -/
def nodeBytes (s : State) (a n : Nat) : List Byte :=
  (List.range n).map (fun i => if refusal s (a + i) = 0 then nodeByte s (a + i) else 0xFF)

/-- Whether any line of a range reads POISON. -/
def nodePoisonRange (s : State) (a n : Nat) : Bool :=
  n != 0 && ((List.range ((a + n - 1) / 128 - a / 128 + 1)).any (fun i => nodePoison s ((a / 128 + i) * 128)))

/-- The little-endian number of `n` bytes at an address. -/
def nodeNat (s : State) (a n : Nat) : Nat := leNat (nodeBytes s a n)

/-- The cache-or-tier contents with one byte written; a cached line becomes dirty. -/
def cachePut (a : Nat) (b : Byte) (s : State) : State :=
  match cached s (a / 128) with
  | some l =>
    s.setLine (a / 128) { l with data := l.data.set (a % 128) b, dirty := true }
  | none => tierPut a b s

/-- Poison of a granule set or cleared where its contents stand (R215). -/
def poisonPut (a : Nat) (v : Bool) (s : State) : State :=
  match cached s (a / 128) with
  | some l =>
    let q := granuleBase a % 128 / 32
    let m := if granule a = 64 then 3 * 2 ^ q else 2 ^ q
    let old := if Nat.land l.poison m = 0 then l.poison else Nat.xor l.poison (Nat.land l.poison m)
    s.setLine (a / 128) { l with poison := if v then Nat.lor old m else old }
  | none => s.setPoison (granuleBase a) v

/-- What a snoop does to one engine's copies of a line: kept in S, or dropped with the write-back entry (R427). -/
def l1Snooped (keepS : Bool) (line e : Nat) (s : State) : State :=
  let x := s.l1 e
  let lines := if keepS then x.lines.map (fun p => if p.1 = line then (p.1, { p.2 with st := .s }) else p)
    else x.lines.filter (fun p => p.1 != line)
  s.setL1 e { x with lines := lines, wb := x.wb.filter (fun w => w.1 != line) }

/-- Every holder of a line snooped within one step: dirty data is written into the cache unless it is discarded, the
copies are kept in S or dropped, the snoops counted (R427, R436). -/
def snoopLine (keepS discard : Bool) (line : Nat) (s : State) : State :=
  match cached s line with
  | none => s
  | some l =>
    if l.holders = 0 then s
    else
      let es := (List.range 64).filter (fun e => bitOf l.holders e)
      let l' : CLine := match dirtyCopy s line with
        | some d => if discard then l else { l with data := d.2.1, poison := d.2.2, dirty := true }
        | none => l
      let l' := if keepS then { l' with owned := false } else { l' with owned := false, holders := 0 }
      State.each es (l1Snooped keepS line) ((s.setLine line l').bump cohSnoopsCount es.length)

/-! ## Row-logic guard (R267) -/

/-- Whether `[a, a + n)` meets `[b, b + m)`. -/
def meets (a n b m : Nat) : Bool := decide (a < b + m) && decide (b < a + n)

/-- Whether a range meets the ranges of an uncovered batch: 0 no, 1 an OPERAND range, 2 a DEST range. -/
def guardKind (s : State) (a n : Nat) : Nat :=
  let rs := s.rlg.cover.flatMap (fun c => c.ranges)
  if rs.any (fun r => r.2.2 && meets a n r.1 r.2.1) then 2
  else if rs.any (fun r => meets a n r.1 r.2.1) then 1 else 0

/-- The access counted in RLG_GUARD. -/
def guardCount (a n : Nat) (s : State) : State :=
  if guardKind s a n = 0 then s else raise rlgEvtGuard (s.bump rlgGuardCount 1)

/-- The data that an access writes, or the data a read returns: a free value under the row-logic guard (R267). -/
def guarded (kind : Nat) (bs : List Byte) (s : State) : List Byte × State :=
  if kind = 0 then (bs, s)
  else let (v, t) := s.takeFree; (leBytes bs.length v, t)

/-- Bytes written at the coherence point by a coherent agent: holders are invalidated first, a whole granule clears its
poison, refused bytes are dropped, and what moves at a channel is charged (R175, R186, R215, R436). -/
def nodeWrite (a : Nat) (bs : List Byte) (s : State) : State :=
  let n := bs.length
  if n = 0 then s
  else
    let (bs, s) := guarded (if guardKind s a n = 2 then 2 else 0) bs (guardCount a n s)
    let s := (List.range ((a + n - 1) / 128 - a / 128 + 1)).foldl
      (fun t i =>
        let l := a / 128 + i
        let t := snoopLine false false l t
        if (cached t l).isSome then t
        else charge (l * 128) (if a / granule a = (a + n - 1) / granule a then granule a else 128) t) s
    let s := (List.range n).foldl
      (fun t i => if refusal t (a + i) = 0 then cachePut (a + i) (bs.getD i 0) t else t) s
    let g := granule a
    (List.range ((a + n - 1) / g - a / g + 1)).foldl
      (fun t i =>
        let b := (a / g + i) * g
        if a ≤ b ∧ b + g ≤ a + n ∧ refusal t b = 0 then poisonPut b false t else t) s

/-- Poison written over the granules that a range touches. -/
def nodePoisonWrite (a n : Nat) (s : State) : State :=
  let g := granule a
  if n = 0 then s
  else (List.range ((a + n - 1) / g - a / g + 1)).foldl
    (fun t i => if refusal t ((a / g + i) * g) = 0 then poisonPut ((a / g + i) * g) true t else t) s

/-! ## Fault records (R572 to R574, R580) -/

/-- The fault classes of R576. -/
inductive FltClass where
  | link | tick | late | plan | step | data | fabric | memory | map | stream | kv | coherence | random | thermal
  | power | cooling | startup
  deriving DecidableEq, Repr

def FltClass.code : FltClass → Nat
  | .link => 1 | .tick => 2 | .late => 3 | .plan => 4 | .step => 5 | .data => 6 | .fabric => 7 | .memory => 8
  | .map => 9 | .stream => 10 | .kv => 11 | .coherence => 12 | .random => 13 | .thermal => 14 | .power => 15
  | .cooling => 16 | .startup => 17

/-- The 32 bytes of a fault record (R573). -/
def faultBytes (s : State) (cls code unit repeats info action tick : Nat) (claim : Option Nat) : List Byte :=
  let st := match claim with | some p => s.get (telClaimState p) | none => 0
  let valid := st != 0
  let b28 := if valid then (claim.getD 0) + 16 * st + 64 else 0
  leBytes 8 tick ++ leBytes 2 (if s.flag fabNodeIdValid then ownId s else 0) ++ leBytes 1 cls ++ leBytes 1 code ++
    leBytes 2 unit ++ leBytes 2 (min repeats 65535) ++ leBytes 8 info ++ leBytes 4 (s.get telFaultSeqSeq) ++
    leBytes 1 b28 ++ leBytes 1 action ++
    leBytes 2 (if valid then s.get (telClaimId (claim.getD 0)) else 0)

/-- Whether the node has reached ready-for-plan: the boot phase is READY (R493). -/
def isReady (s : State) : Bool := s.get idBootStatPhase == 5

/-- A local access recorded in MEM_MAP_ERR when it is refused (R175). -/
def refusedAt (a : Nat) (s : State) : State :=
  if refusal s a = 0 then s
  else raise memEvtMapErr ((s.set memMapErrAddr a).set memMapErrCause (refusal s a))

/-- A record to the ring, when the ring is enabled and the node ready: dropped and counted when the ring is full, the
ring disabled when the write is refused or meets poison, the refusal recorded (R175, R574, R580). -/
def ringWrite (rcd : List Byte) (s : State) : State :=
  let n := s.get telFaultRingCtlEntries
  let head := s.get telFaultHeadIndex
  let used := (head + 2 ^ 32 - s.get telFaultTailIndex) % 2 ^ 32
  if n = 0 ∨ !isReady s then s
  else if used = n then s.bump telFaultStatLost 1
  else
    let a := s.get telFaultRingBaseAddr + 32 * (head % n)
    if !servedRange s a 32 || (granulePoison s a && decide (granule a = 64)) then
      raise telFaultEvtRingErr ((refusedAt a s).set telFaultRingCtlEntries 0)
    else (nodeWrite a rcd s).set telFaultHeadIndex (head + 1)

/-- The fault state changed. -/
def State.onFlt (f : FltState → FltState) (s : State) : State := { s with flt := f s.flt }

/-- One record written: buffer, ring, event (R574). -/
def writeRecord (cls code unit repeats info action tick : Nat) (claim : Option Nat) (s : State) : State :=
  let s := s.set telFaultSeqSeq (s.get telFaultSeqSeq + 1)
  let rec_ := faultBytes s cls code unit repeats info action tick claim
  let base := 32 * (s.get telFaultSeqSeq % 16)
  let buf := (List.range 32).foldl (fun t i => Tab.set 0 t (base + i) (rec_.getD i 0)) s.flt.buf
  let s := s.onFlt (fun x => { x with buf := buf, fresh := x.fresh + 1 })
  raise telFaultEvtRecord (ringWrite rec_ s)

/-- One millisecond, in ps. -/
def psPerMs : Nat := 1000000000

/-- An entry of the coalescing table ends: with a count, one record with its repeats (R572 step 3). -/
def coalEnd (c : Coal) (s : State) : State :=
  let s := s.onFlt (fun x => { x with coal := x.coal.filter (fun y => y != c) })
  if c.count = 0 then s else writeRecord c.cls c.code c.unit c.count c.info c.action c.tick c.claim s

/-- The entry that expires first. -/
def firstExpiring (l : List Coal) : Option Coal :=
  l.foldl (fun b c => match b with
    | none => some c
    | some x => if c.expire < x.expire then some c else some x) none

/-- The entries of the coalescing table whose millisecond has passed end, in their order (R572 step 3). -/
def coalExpire (s : State) : State := State.each (s.flt.coal.filter (fun c => decide (c.expire ≤ s.now))) coalEnd s

/-- A fault to be recorded (R572): LATE, STEP, THERMAL and LINK records are never coalesced. -/
def faultCore (c : FltClass) (code unit info action : Nat) (claim : Option Nat) (s : State) : State :=
  let cls := c.code
  let tick := lockTick s
  if c = .late ∨ c = .step ∨ c = .thermal ∨ c = .link then writeRecord cls code unit 0 info action tick claim s
  else
    let s := coalExpire s
    match s.flt.coal.find? (fun x => x.cls == cls && x.code == code && x.unit == unit && x.info == info) with
    | some x =>
      let x' : Coal := { x with count := x.count + 1, tick := tick, action := action, claim := claim }
      (s.onFlt (fun f => { f with coal := f.coal.map (fun y => if y = x then x' else y) })).bump telFaultStatCoalesced 1
    | none =>
      let s := if s.flt.coal.length < 32 then s
        else match firstExpiring s.flt.coal with
          | some y => coalEnd y s
          | none => s
      let s := writeRecord cls code unit 0 info action tick claim s
      s.onFlt (fun f => { f with coal := f.coal ++ [⟨cls, code, unit, info, s.now + psPerMs, 0, tick, action, claim⟩] })

/-- The requester number of what the node reads and writes for itself and R424 lists under none (collectives, rings, telemetry,
page migration): that of Narup core 0 (DESIGN CHOICE, assumption 71). -/
def nodeReq : Nat := 578

/-- A fault recorded; where its ring write was refused, a memory-map fault follows (R175, R572, R580). -/
def fault (c : FltClass) (code unit info action : Nat) (claim : Option Nat) (s : State) : State :=
  let t := faultCore c code unit info action claim s
  let a := s.get telFaultRingBaseAddr + 32 * (t.get telFaultHeadIndex % s.get telFaultRingCtlEntries)
  if s.get telFaultRingCtlEntries ≠ 0 ∧ t.get telFaultRingCtlEntries = 0 ∧ refusal t a ≠ 0 then
    faultCore .map 1 nodeReq a 10 none t
  else t

/-- A local access refused under R175: recorded in MEM_MAP_ERR, the event and a memory-map fault of its requester. -/
def mapErr (req a : Nat) (s : State) : State :=
  fault .map 1 req a 10 none (refusedAt a s)

/-- The uncorrectable-error report of an address on a channel (R214): the channel's UE count, the tier's UE_ADDR and UE event,
and a memory fault. -/
def reportUe (c a : Nat) (s : State) : State :=
  if c < 256 then
    let st := c / 32
    fault .memory 1 st a 5 none (raise (hbmEvtUe st) ((s.bump (hbmPcErrUe st (c % 32)) 1).set (hbmUeAddrAddr st) a))
  else
    fault .memory 1 (8 + (c - 256)) a 5 none (raise dtcEvtUe ((s.bump (dtcChErrUe (c - 256)) 1).set dtcUeAddrAddr a))

/-! ## Pins and lights (R469, R610) -/

/-- The live pins as MODULE_STAT shows them once sampled. -/
def sample (s : State) : State :=
  (((s.set idModuleStatPres (b2n s.mod.present)).set idModuleStatEjectOpen (b2n s.mod.ejectOpen)).set idModuleStatCoolOk
    (b2n s.mod.coolOk)).set idModuleStatLeak (b2n s.mod.leak)

/-- SAFE is lit: the node is in P2, or the main switch is off with power applied. -/
def safeLit (s : State) : Bool := s.get fumStatusState == 3 || (s.mod.seq == 0 && s.mod.vin)

/-- The lights as R469 gives them. -/
def lightsOf (s : State) : Lights :=
  let locate := s.flag idLedCtlLocate
  { power := if s.mod.seq < 2 then 0 else if locate && safeLit s then 2 else 1
    status :=
      if s.mod.tripped then 5
      else if s.mod.seq < 8 || s.get idBootStatStarts == 0 then 0
      else if s.mod.ejectOpen && !safeLit s then 4
      else if s.get idBootStatPhase != 5 then 1
      else if s.get fabStatusJoin != 3 then 2 else 3
    safe := if safeLit s then 1 else if locate then 2 else 0 }

/-- The outputs brought up to the registers and pins they follow. -/
def settle (s : State) : State := { s with lights := lightsOf s }

/-- An alert cause becomes pending; SMB_ALERT_N goes low when the cause is enabled (R610). -/
def alert (k : Nat) (s : State) : State :=
  { s with host := { s.host with
    alerts := Nat.lor s.host.alerts (2 ^ k)
    alertLow := s.host.alertLow || bitOf (s.get idMgtCtlAlertEn) k } }

/-- A W1C event that is also an alert cause. -/
def raiseAlert (f : Fld) (k : Nat) (s : State) : State := if s.get f = 1 then s else alert k (raise f s)

/-- A boot time recorded once, in µs from die reset release, until ready-for-plan has been recorded (R493). -/
def bootTime (i : Nat) (s : State) : State :=
  if s.get (idBootTimeUs i) = 0 ∧ s.get (idBootTimeUs 6) = 0 then
    s.set (idBootTimeUs i) ((s.now - s.boot.release) / 1000000) else s

/-! ## Outcomes -/

/-- The outcome of a meaning: the next state, its outputs settled. -/
def done (s : State) : Host.Outcome State Fault Refusal := .next (settle s)

end Sys2Proof.Machine
end

