-- ==== Sys2Proof/Machine/MemCare.lean ====
section
/-! DEFINITION. Memory reliability, repair and channel test (chapter 06, R211 to R245). Channels are numbered stack * 32
+ pseudo-channel in the HBM tier and 256 + channel in the deep tier. The check bytes of the codes are not given by the
spec, so what a decode finds is an operand, or an error that the place holds until it is written (assumption 72). -/

namespace Sys2Proof.Machine

/-! ## Channels -/

/-- A register field of a channel: of its pseudo-channel, or of its deep channel. -/
def chanFld (c : Nat) (h : Nat → Nat → Fld) (d : Nat → Fld) : Fld :=
  if c < 256 then h (c / 32) (c % 32) else d (c - 256)

/-- A register field of a channel's tier block: of its stack, or of DTC. -/
def tierFld (c : Nat) (h : Nat → Fld) (d : Fld) : Fld := if c < 256 then h (c / 32) else d

/-- The UNIT of a memory fault: the stack, or 8 + channel (R576). -/
def chanUnit (c : Nat) : Nat := if c < 256 then c / 32 else 8 + (c - 256)

/-- The channel of a place, and its remap unit: bank * 65,536 + row, or the deep block of 32 KiB. -/
def physChan (p : Phys) : Nat := if p.tier = 0 then p.chan else 256 + p.chan
def physUnit (p : Phys) : Nat := if p.tier = 0 then p.bank * 65536 + p.row else p.row / 32768

/-- The channel of a local address. -/
def chanOf (s : State) (a : Nat) : Option Nat := (physOf s a).map physChan

/-- The first local address of a remap unit. -/
def unitAddr (s : State) (c u : Nat) : Nat :=
  if c < 256 then addrHbm s c (u / 65536) (u % 65536) 0 else addrDeep s (c - 256) (u * 32768)

/-- Granules of a channel. -/
def chanGranules (c : Nat) : Nat := if c < 256 then 12582912 else 536870912

/-- The local address of granule `g` of a channel in ascending channel-local order; in an HBM pseudo-channel the order
is row, then bank, then byte (DESIGN CHOICE, assumption 8). -/
def granuleAddr (s : State) (c g : Nat) : Nat :=
  if c < 256 then addrHbm s c (g / 16 % 16) (g / 256) (g % 16 * 64) else addrDeep s (c - 256) (g * 32)

/-! ## Soft remapping (R222 to R224) -/

/-- The subarray an HBM unit lies in: 512 rows of one bank; deep units have one pool. -/
def subarray (c u : Nat) : Nat := if c < 256 then u / 65536 * 96 + u % 65536 / 512 else 0

/-- Spares of a pool: 2 rows of a subarray, 64 blocks of a deep channel (R239). -/
def spareCount (c : Nat) : Nat := if c < 256 then 2 else 64

/-- The lowest free spare for a unit. -/
def freeSpare (s : State) (c u : Nat) : Option Nat :=
  let used := (Tab.get [] s.care.spares c)
  (List.range (spareCount c)).find? (fun i => !used.contains (subarray c u, i))

/-- The row of a unit in its bank, or the block. -/
def unitRow (c u : Nat) : Nat := if c < 256 then u % 65536 else u

/-- A soft remap starts: a free spare is taken, or the unit is EXHAUSTED (R223, R224). -/
def softRemapStart (c u count cause : Nat) (s : State) : State :=
  if s.care.active.any (fun r => r.chan == c && r.unit == u) then s
  else
    match freeSpare s c u with
    | some i =>
      let r : Remap := ⟨c, u, count, cause, if c < 256 then 1 else 2, i, lockTick s⟩
      let sp := Tab.set [] s.care.spares c ((subarray c u, i) :: Tab.get [] s.care.spares c)
      { s with care := { s.care with active := s.care.active ++ [r], spares := sp } }
    | none =>
      let r : Remap := ⟨c, u, count, cause, 4, 0xFF, lockTick s⟩
      let s := { s with care := { s.care with unlogged := s.care.unlogged ++ [r] } }
      let s := raise (tierFld c hbmEvtSpareOut dtcEvtSpareOut) s
      fault .memory 2 (chanUnit c) (unitAddr s c u) 0 none s

/-- The index of the tracker entry a new unit takes: the lowest count, ties to the lowest index; entries never used
count as 0 (R222). -/
def trackSlot (l : List Track) : Nat :=
  let best := l.zipIdx.foldl (fun b p =>
    match b with
    | none => some (p.1.count, p.2)
    | some (c, i) => if p.1.count < c then some (p.1.count, p.2) else some (c, i)) (none : Option (Nat × Nat))
  match best with
  | some (c, i) => if l.length < 64 ∧ 0 < c then l.length else i
  | none => 0

/-- One correction fed to a row tracker: the new table and the unit's count (R222). -/
def trackAdd (l : List Track) (u : Nat) : List Track × Nat :=
  match l.find? (fun t => t.unit == u) with
  | some t => (l.map (fun x => if x.unit = u then ⟨u, x.count + 1⟩ else x), t.count + 1)
  | none =>
    let i := trackSlot l
    if i < l.length then (l.set i ⟨u, 1⟩, 1) else (l ++ [⟨u, 1⟩], 1)

/-- A remap called for; it starts when what the command does to its rows is over (R240). -/
def callRemap (c u count cause : Nat) (s : State) : State :=
  { s with care := { s.care with due := s.care.due ++ [(c, u, count, cause)] } }

/-- The remaps called for in this cycle start, the lower row first (R241). -/
def startDue (s : State) : State :=
  if s.care.due = [] then s
  else
    State.each (sortBy (fun x y : Nat × Nat × Nat × Nat => decide (unitRow x.1 x.2.1 ≤ unitRow y.1 y.2.1)) s.care.due)
      (fun d => softRemapStart d.1 d.2.1 d.2.2.1 d.2.2.2) { s with care := { s.care with due := [] } }

/-- A correction: counted, each symbol on its lane, fed to the tracker, and a remap called for when the unit's count reaches
CE_LIMIT (R213, R219, R222, R223). -/
def eccCorrected (c u : Nat) (lanes : List Nat) (s : State) : State :=
  let s := s.bump (chanFld c hbmPcErrCe dtcChErrCe) 1
  let (l, n) := trackAdd (Tab.get [] s.care.track c) u
  let s := { s with care := { s.care with
    track := Tab.set [] s.care.track c l
    lanes := lanes.foldl (fun t x => let k := c * 64 + x % 64; Tab.set 0 t k (Tab.get 0 t k + 1)) s.care.lanes } }
  if s.get (tierFld c hbmCtlCeLimit dtcCtlCeLimit) ≤ n then callRemap c u n 1 s else s

/-- The count a unit's tracker holds. -/
def trackCount (s : State) (c u : Nat) : Nat :=
  match (Tab.get [] s.care.track c).find? (fun t => t.unit == u) with
  | some t => t.count
  | none => 0

/-- The error that a place holds set (assumption 72). -/
def setLatent (place : Nat) (e : Ecc) (s : State) : State :=
  { s with care := { s.care with latent := Tab.set .clean s.care.latent place e } }

/-- An uncorrectable granule: reported, written back with poison, its unit remapped (R214, R223). -/
def eccUncorrectable (c u a : Nat) (s : State) : State :=
  let s := (reportUe c a s).setPoison (granuleBase a) true
  callRemap c u (trackCount s c u) 2 (setLatent (granuleBase a) .clean s)

/-- What a decode of the granule at an address, on a channel and in a unit, finds (R211, R213, R214). The controller code
corrects 2 symbols in the HBM tier and 1 in the deep tier; the poison signature is recognised as such; a bit that the on-die code
corrected is only reported, and the link code corrects in silence. -/
def eccOutcome (c u a : Nat) (e : Ecc) (s : State) : State :=
  if e = .clean ∨ tierPoison s a then s
  else match e with
  | .bit => if c < 256 then { s with care := { s.care with onDie := Tab.set 0 s.care.onDie c (Tab.get 0 s.care.onDie c + 1) } } else s
  | .symbols l =>
    if l = [] then s
    else if l.length ≤ (if c < 256 then 2 else 1) then eccCorrected c u l s else eccUncorrectable c u a s
  | _ => eccUncorrectable c u a s

/-- The granules of a line. -/
def lineGranules (line : Nat) : List Nat :=
  (List.range (128 / granule (line * 128))).map (fun i => line * 128 + i * granule (line * 128))

/-- What the decode of a granule finds: what the command says of it, or else the error it holds. -/
def foundAt (s : State) (ecc : List (Nat × Ecc)) (a : Nat) : Ecc :=
  match ecc.find? (fun e => granuleBase e.1 == a && e.2 != .clean) with
  | some e => e.2
  | none => Tab.get .clean s.care.latent a

/-- The granules of a list decoded by their controller. -/
def decodeAll (as : List Nat) (ecc : List (Nat × Ecc)) (s : State) : State :=
  if ecc = [] ∧ s.care.latent = [] then s
  else State.each as (fun a t =>
    match placeOf t a with
    | some p => eccOutcome (physChan p) (physUnit p) a (foundAt t ecc a) t
    | none => t) s

/-- A line read at its channel: its granules decoded, errors named elsewhere kept where they are (assumption 72), and remaps
started. -/
def eccLine (line : Nat) (ecc : List (Nat × Ecc)) (s : State) : State :=
  let s := State.each (ecc.filter (fun e => e.1 / 128 != line && e.2 != .clean)) (fun e =>
    setLatent (if e.1 < 2 ^ 48 then granuleBase e.1 else e.1) e.2) s
  startDue (decodeAll (lineGranules line) ecc s)

/-- A failed channel answers an access with POISON and counts the answer (R217, R218). -/
def failedAnswer (a : Nat) (s : State) : State :=
  if chanFailed s a then
    match chanOf s a with
    | some c => s.bump (chanFld c hbmPcErrUe dtcChErrUe) 1
    | none => s
  else s

/-- The places of a line's 8-byte words in an on-die store with an error that its SEC-DED code only detects, as the mask of
their quarters (R211). -/
def storeBad (s : State) (store line : Nat) : Nat :=
  if s.care.latent = [] then 0
  else ((List.range 4).map (fun q =>
    b2n ((List.range 4).any (fun k =>
      match Tab.get .clean s.care.latent (store * 2 ^ 48 + line * 128 + 32 * q + 8 * k) with
      | .clean | .bit => false
      | _ => true)) * 2 ^ q)).sum

/-- Such errors found: the places hold them no longer, and a memory fault reports the line. -/
def storeFound (store line : Nat) (s : State) : State :=
  let s := State.each (List.range 16) (fun k => setLatent (store * 2 ^ 48 + line * 128 + 8 * k) .clean) s
  fault .memory 1 ((chanOf s (line * 128)).elim 0 chanUnit) (line * 128) 5 none s

/-! ## Scrubbing (R219, R220) -/

/-- At the end of a pass, the lane that carries at least 90 % of the corrected symbols, when they number at least 64,
is recorded as suspect (R219); HBM only. -/
def laneSuspect (c : Nat) (s : State) : State :=
  if 256 ≤ c then s
  else
    let n := (List.range 64).map (fun i => Tab.get 0 s.care.lanes (c * 64 + i))
    let total := n.sum
    let s' : State := { s with care := { s.care with
      lanes := s.care.lanes.filter (fun p => decide (p.1 / 64 ≠ c)) } }
    match n.zipIdx.find? (fun p => decide (64 ≤ p.1) && decide (9 * total ≤ 10 * p.1)) with
    | some p =>
      let s' := s'.set (hbmPcLaneSuspect (c / 32) (c % 32)) p.2
      raise (hbmEvtLaneSuspect (c / 32)) { s' with care := { s'.care with suspect := Tab.set 0 s'.care.suspect c (p.2 + 1) } }
    | none => s'

/-- A pass counted: PASSES, every tracker count of the channel halved, the lane counts judged (R219, R220). -/
def scrubPass (c : Nat) (s : State) : State :=
  let s := s.bump (chanFld c hbmPcPassesCount dtcChPassesCount) 1
  let l := (Tab.get [] s.care.track c).map (fun t => (⟨t.unit, t.count / 2⟩ : Track))
  laneSuspect c { s with care := { s.care with track := Tab.set [] s.care.track c l } }

/-- Whether a channel's tier is in self-refresh or powered down, or its channel is still being zeroed, so
that its scrubber stands (R244, R549). -/
def scrubStopped (s : State) (c : Nat) : Bool :=
  s.get fumStatusState == 2 || s.get fumStatusState == 3 || Tab.get false s.mem.zeroing c ||
    (decide (c < 256) && bitOf (s.get fumStatusSelfRefresh) (c / 32))

/-- Whether a request of a channel waits: granted and not issued, or issued and not served (R221). -/
def chanWaits (s : State) (c : Nat) : Bool :=
  s.mem.granted.any (fun g => g.2.any (fun r => chanOf s r.addr == some c)) ||
    s.mem.flying.any (fun l => chanOf s (l * 128) == some c)

/-- SCRUB_READ: one granule read and, corrected, written back; its outcome handled, the position advanced and a pass counted on
the wrap. The scrubber yields to every waiting request of its channel (R220, R221). -/
def execScrubRead (chan : Fin 288) (ecc : Ecc) (s : State) : Host.Outcome State Fault Refusal :=
  let c := chan.val
  if !s.flag (tierFld c hbmCtlScrubEn dtcCtlScrubEn) || scrubStopped s c || chanWaits s c then done s
  else
    let g := Tab.get 0 s.care.scrub c
    let a := granuleAddr s c g
    let u := if c < 256 then g / 16 % 16 * 65536 + g / 256 else g / 1024
    let s := startDue (setLatent a .clean (eccOutcome c u a (foundAt s [(a, ecc)] a) s))
    let g' := (g + 1) % chanGranules c
    let s := { s with care := { s.care with scrub := Tab.set 0 s.care.scrub c g' } }
    done (if g' = 0 then scrubPass c s else s)

/-- The first free entry of a remap table of `n` entries. -/
def freeRemap (s : State) (valid : Nat → Fld) (n : Nat) : Option Nat :=
  (List.range n).find? (fun i => !s.flag (valid i))

/-- A remap recorded in the tier's remap table (R224 step 6). -/
def remapRecord (r : Remap) (s : State) : State :=
  if r.chan < 256 then
    let st := r.chan / 32
    match freeRemap s (hbmRemapValid st) 512 with
    | none => s
    | some i =>
      ((((((s.set (hbmRemapRow st i) (r.unit % 65536)).set (hbmRemapPc st i) (r.chan % 32)).set (hbmRemapBank st i)
        (r.unit / 65536)).set (hbmRemapSpare st i) r.spare).set (hbmRemapValid st i) 1).set (hbmStatusRemaps st)
        (s.get (hbmStatusRemaps st) + 1))
  else
    match freeRemap s dtcRemapValid 2048 with
    | none => s
    | some i =>
      (((((s.set (dtcRemapBlock i) r.unit).set (dtcRemapChannel i) (r.chan - 256)).set (dtcRemapSpare i) r.spare).set
        (dtcRemapValid i) 1).set dtcStatusRemaps (s.get dtcStatusRemaps + 1))

/-- The granules of a remap unit. -/
def unitGranules (s : State) (c u : Nat) : List Nat :=
  if c < 256 then (List.range 16).map (fun g => addrHbm s c (u / 65536) (u % 65536) (64 * g))
  else (List.range 1024).map (fun g => addrDeep s (c - 256) (u * 32768 + 32 * g))

/-- The unit that an empty tracker entry names. -/
def noUnit : Nat := 2 ^ 40

/-- A soft remap ends: the unit was read through its code and is written into the spare with corrected data and poison, the table
updated, the tracker entry cleared in its place, the event set and the entry queued for the log (R224, R225). -/
def softRemapEnd (r : Remap) (s : State) : State :=
  let s := if s.care.latent = [] then s else
    let as := unitGranules s r.chan r.unit
    let s := State.each as (fun a => setLatent a .clean) (decodeAll as [] s)
    { s with care := { s.care with due := s.care.due.filter (fun d => d.1 != r.chan || d.2.1 != r.unit) } }
  let l := (Tab.get [] s.care.track r.chan).map (fun t => if t.unit = r.unit then ⟨noUnit, 0⟩ else t)
  let s := { s with care := { s.care with
    active := s.care.active.filter (fun x => x != r)
    unlogged := s.care.unlogged ++ [r]
    track := Tab.set [] s.care.track r.chan l } }
  startDue (raise (tierFld r.chan hbmEvtRemap dtcEvtRemap) (remapRecord r s))

/-- Every soft remap in progress on the channels of `p` completed before a tier enters self-refresh (R244). -/
def softRemapsEnd (p : Nat → Bool) (s : State) : State :=
  State.each (s.care.active.filter (fun r => p r.chan)) softRemapEnd s

/-- SOFT_REMAP_DONE: the remap in progress on the channel ends. -/
def execSoftRemapDone (chan : Fin 288) (s : State) : Host.Outcome State Fault Refusal :=
  match s.care.active.find? (fun r => r.chan == chan.val) with
  | none => done s
  | some r => done (softRemapEnd r s)

/-- REMAP_REQ: a write of HBM_STACK[s]_REMAP_REQ or DTC_REMAP_REQ with GO requests a remap of the unit (R223). -/
def execRemapReq (stack : Option (Fin 8)) (value : BitVec 32) (s : State) : Host.Outcome State Fault Refusal :=
  let v := value.toNat
  match stack with
  | some st =>
    let s := ((s.set (hbmRemapReqRow st) (bits v 0 16)).set (hbmRemapReqPc st) (bits v 16 5)).set (hbmRemapReqBank st)
      (bits v 21 4)
    let c := st.val * 32 + bits v 16 5
    let u := bits v 21 4 * 65536 + bits v 0 16
    done (if bitOf v 25 then softRemapStart c u (trackCount s c u) 3 s else s)
  | none =>
    let s := (s.set dtcRemapReqBlock (bits v 0 19)).set dtcRemapReqChannel (bits v 19 5)
    let c := 256 + bits v 19 5
    let u := bits v 0 19
    done (if bitOf v 24 then softRemapStart c u (trackCount s c u) 3 s else s)

/-! ## The remap log (R225 to R228) -/

/-- Offset of the remap log in the flash, and bytes of a half (R226, R477). -/
def logBase : Nat := 0x8000000
def logHalf : Nat := 524288

/-- A byte of the flash; an unlisted byte is erased. -/
def flashByte (s : State) (o : Nat) : Byte := Tab.get 0xFF s.flash o

def flashBytes (s : State) (o n : Nat) : List Byte := (List.range n).map (fun i => flashByte s (o + i))

/-- Bytes programmed: bits only go from 1 to 0 (R226). -/
def flashProgram (o : Nat) (bs : List Byte) (s : State) : State :=
  { s with flash := bs.zipIdx.foldl (fun t p =>
      Tab.set 0xFF t (o + p.2) (p.1 &&& Tab.get 0xFF t (o + p.2))) s.flash }

/-- A range erased. -/
def flashErase (o n : Nat) (s : State) : State :=
  { s with flash := s.flash.filter (fun p => !(decide (o ≤ p.1) && decide (p.1 < o + n))) }

/-- The CRC of a log entry: bytes 0 to 1 and 3 to 27 (R225). -/
def logCrc (e : List Byte) : Nat := crc32c (e.take 2 ++ (e.drop 3).take 25)

/-- Whether 32 bytes are a log entry: MAGIC and CRC (R227). -/
def logValid (e : List Byte) : Bool := leAt e 0 2 == 0x4C47 && leAt e 28 4 == logCrc e

/-- The entry at an index of a half. -/
def logEntry (s : State) (half i : Nat) : List Byte := flashBytes s (logBase + half * logHalf + 32 * i) 32

/-- The first erased entry from `i` on, of `n` left. -/
def logFreeFrom (s : State) (half : Nat) : Nat → Nat → Option Nat
  | 0, _ => none
  | n + 1, i => if (logEntry s half i).all (fun b => b == 0xFF) then some i else logFreeFrom s half n (i + 1)

/-- The active half: the one whose first entry has the higher SEQ (R226). -/
def logActive (s : State) : Nat :=
  let a := logEntry s 0 0
  let b := logEntry s 1 0
  if logValid b ∧ (¬ logValid a ∨ leAt a 24 4 < leAt b 24 4) then 1 else 0

/-- The 32 bytes of a log entry (R225). -/
def logBytes (r : Remap) (seq : Nat) : List Byte :=
  let hbm := decide (r.chan < 256)
  let unit := if hbm then r.chan / 32 else r.chan - 256
  let body := leBytes 2 0x4C47 ++ [(0xFE : Byte)] ++ leBytes 1 r.kind ++ leBytes 8 r.tick ++ leBytes 1 unit ++
    leBytes 1 (if hbm then r.chan % 32 else 0) ++ leBytes 1 (if hbm then r.unit / 65536 else 0) ++ leBytes 1 r.spare ++
    leBytes 4 (if r.kind = 3 then 0 else if hbm then r.unit % 65536 else r.unit) ++ leBytes 2 r.count ++
    leBytes 1 r.cause ++ [0] ++ leBytes 4 seq
  body ++ leBytes 4 (logCrc body)

/-- LOG_FULL in HBM_STACK[0]_EVT (R228), and for a deep-tier entry in DTC_EVT too, as the register table has it. -/
def logFull (chan : Nat) (s : State) : State :=
  let s := raise (hbmEvtLogFull 0) s
  if 256 ≤ chan then raise dtcEvtLogFull s else s

/-- REMAP_LOG_APPEND: the oldest unlogged entry programmed into the active half, or LOG_FULL (R225, R228). -/
def execRemapLogAppend (s : State) : Host.Outcome State Fault Refusal :=
  match s.care.unlogged with
  | [] => done s
  | r :: rest =>
    let s := { s with care := { s.care with unlogged := rest } }
    let h := logActive s
    match logFreeFrom s h 16384 0 with
    | none => done (fault .memory 3 (chanUnit r.chan) (unitAddr s r.chan r.unit) 0 none (logFull r.chan s))
    | some i =>
      let s := flashProgram (logBase + h * logHalf + 32 * i) (logBytes r s.care.logSeq) s
      done { s with care := { s.care with logSeq := s.care.logSeq + 1 } }

/-- The live entries of a half, in order of index (appends are in SEQ order): valid and not VOID (R227). -/
def logLive (s : State) (half : Nat) : List (List Byte) :=
  ((List.range 16384).map (logEntry s half)).filter (fun e => logValid e && e.getD 2 0 != 0xF0)

/-- LOG_COMPACTION: after ready-for-plan, when the active half has fewer than 64 free entries, the live entries are
copied to the other half and the old half erased (R227, R505). -/
def execLogCompaction (s : State) : Host.Outcome State Fault Refusal :=
  let h := logActive s
  let free := match logFreeFrom s h 16384 0 with | some i => 16384 - i | none => 0
  if !isReady s || decide (64 ≤ free) then done s
  else
    let live := logLive s h
    let s := live.zipIdx.foldl (fun t p => flashProgram (logBase + (1 - h) * logHalf + 32 * p.2) p.1 t) s
    done (flashErase (logBase + h * logHalf) logHalf s)

/-! ## Traffic generator and checker (R231 to R235) -/

def tgCtl (c : Nat) : Fld × Fld × Fld × Fld :=
  (chanFld c hbmTgCtlBusy dtcTgCtlBusy, chanFld c hbmTgCtlDone dtcTgCtlDone,
   chanFld c hbmTgCtlRefused dtcTgCtlRefused, chanFld c hbmTgCtlAborted dtcTgCtlAborted)

/-- Whether an enabled or draining partition of the channel's tier covers a frame of the band. -/
def bandTaken (s : State) (c first n : Nat) : Bool :=
  (List.range n).any (fun i => (List.range 16).any (fun p =>
    (s.flag (memPartCfgEnable p) || s.flag (memPartCfgDraining p)) &&
      partCovers s (if c < 256 then 0 else 1) (first + i) p))

/-- TG_START: the settings written with START taken, then the start accepted or REFUSED (R233). -/
def tgStart (c : Nat) (v : Nat) (rlgBusy : Bool) (s : State) : State :=
  let (busy, _, refused, _) := tgCtl c
  let s := (((s.set (chanFld c hbmTgCtlMode dtcTgCtlMode) (bits v 6 2)).set (chanFld c hbmTgCtlOrder dtcTgCtlOrder)
    (bits v 8 2)).set (chanFld c hbmTgCtlPattern dtcTgCtlPattern) (bits v 10 2)).set
    (chanFld c hbmTgCtlGap dtcTgCtlGap) (bits v 12 16)
  if s.flag busy then s
  else
    let first := s.get (chanFld c hbmTgRangeFirst dtcTgRangeFirst)
    let n := s.get (chanFld c hbmTgRangeFrames dtcTgRangeFrames)
    if bits v 6 2 = 0 ∨ (!bandTaken s c first n && !(decide (c < 256) && rlgBusy)) then
      let s := { s with care := { s.care with tgDone := Tab.set 0 s.care.tgDone c 0 } }
      s.set busy 1
    else raise refused s

/-- `n` steps of a Fibonacci LFSR of width `w` with taps at bits `a` and `b`, most significant bit out. -/
def prbs (w a b : Nat) : Nat → Nat → Nat
  | 0, x => x
  | n + 1, x => prbs w a b n ((x * 2 + (x / 2 ^ (a - 1) % 2 + x / 2 ^ (b - 1) % 2) % 2) % 2 ^ w)

/-- The data word `k` of the band under a pattern: PRBS31, PRBS15, FIXED, WALK (R234). A PRBS word is the 32 bits that
the register puts out, the first in the lowest place (DEDUCED, assumption 9). -/
def tgWord (pattern seed word k : Nat) : Nat :=
  if pattern = 2 then word
  else if pattern = 3 then 2 ^ (k % 32)
  else
    let (w, a, b) := if pattern = 0 then (31, 31, 28) else (15, 15, 14)
    let x := prbs w a b (32 * k) (seed % 2 ^ w)
    ((List.range 32).map (fun i => (prbs w a b i x) / 2 ^ (w - 1) % 2 * 2 ^ i)).sum

/-- Granules of a band of frames in a channel, and the granule's index in the channel. -/
def bandGranules (c n : Nat) : Nat := if c < 256 then n * 65536 else n * 1048576
def bandFirst (c first : Nat) : Nat := if c < 256 then first * 65536 else first * 1048576

/-- The band granules that `count` accesses visit, in order (R234). -/
def tgVisits (c n order seed count : Nat) : List Nat :=
  let g := bandGranules c n
  if g = 0 then []
  else
    let k := if count = 0 then g else count
    if order = 1 then
      let per := ((List.range 8388607).map (fun i => prbs 23 23 18 i (seed % 2 ^ 23))).filter (fun x => decide (x < g))
      (List.range (if per = [] then 0 else if count = 0 then per.length else count)).map (fun i => per.getD (i % per.length) 0)
    else if order = 2 then
      let rows := if c < 256 then n * 256 * 16 else n * 1024
      let m := if count = 0 then rows else count
      (List.range m).map (fun i =>
        if c < 256 then (i % rows) % (n * 256) * 256 + (i % rows) / (n * 256) * 16 else i % rows * 1024)
    else (List.range k).map (fun i => i % g)

/-- The bytes of the pattern in a band granule. -/
def tgPattern (s : State) (c i : Nat) : List Byte :=
  let sz := if c < 256 then 64 else 32
  (List.range (sz / 4)).flatMap (fun k =>
    leBytes 4 (tgWord (s.get (chanFld c hbmTgCtlPattern dtcTgCtlPattern)) (s.get (chanFld c hbmTgSeedSeed dtcTgSeedSeed))
      (s.get (chanFld c hbmTgWordWord dtcTgWordWord)) (i * (sz / 4) + k)))

/-- One access of the generator in its mode: the granule written, or read (with the bit flips the channel shows) and
compared; the number of miscompares, lane mask and first failing address are accumulated. -/
def tgAccess (c mode first : Nat) (flips : List (Nat × Nat)) (i : Nat)
    (acc : State × Nat × Nat × Option Nat) : State × Nat × Nat × Option Nat :=
  let (s, mis, lanes, fst) := acc
  let sz := if c < 256 then 64 else 32
  let g := bandFirst c first + i
  let a := granuleAddr s c g
  let pat := tgPattern s c i
  let s := if mode = 1 ∨ mode = 2 then
      setLatent (granuleBase a) .clean ((pat.zipIdx.foldl (fun t p => tierPut (a + p.2) p.1 t) s).setPoison (granuleBase a) false)
    else s
  if mode = 1 ∨ mode = 3 then
    let rd := (List.range sz).map (fun k =>
      flips.foldl (fun b p => if p.1 = i * sz + k then b ^^^ BitVec.ofNat 8 (2 ^ (p.2 % 8)) else b) (tierByte s (a + k)))
    let diff := (rd.zip pat).map (fun p => p.1 ^^^ p.2)
    if diff.all (fun b => b == 0) then (s, mis, lanes, fst)
    else
      let ln := (List.range (sz / 4)).foldl (fun m k => Nat.lor m (leAt diff (4 * k) 4)) lanes
      (s, mis + 1, ln, match fst with | some x => some x | none => some (g * sz))
  else (s, mis, lanes, fst)

/-- The accesses that a channel's generator is to make, in order (R234, R235). -/
def tgAll (s : State) (c : Nat) : List Nat :=
  tgVisits c (s.get (chanFld c hbmTgRangeFrames dtcTgRangeFrames)) (s.get (chanFld c hbmTgCtlOrder dtcTgCtlOrder))
    (s.get (chanFld c hbmTgSeedSeed dtcTgSeedSeed)) (s.get (chanFld c hbmTgCountCount dtcTgCountCount))

/-- Accesses of a generator made and their results recorded; `flips` are the bit errors that the channel shows (byte of the band,
bit), `ecc` what its decodes find (granule of the band) (R232, R235). -/
def tgRun (c : Nat) (vis : List Nat) (flips : List (Nat × Nat)) (ecc : List (Nat × Ecc)) (s : State) : State :=
  let first := s.get (chanFld c hbmTgRangeFirst dtcTgRangeFirst)
  let mode := s.get (chanFld c hbmTgCtlMode dtcTgCtlMode)
  let (s, mis, lanes, fst) := vis.foldl (fun acc i => tgAccess c mode first flips i acc) (s, 0, 0, none)
  let at_ (i : Nat) : Nat := granuleAddr s c (bandFirst c first + i)
  let found := ecc.map (fun e => (at_ e.1, e.2))
  let s := if mode = 2 ∨ (ecc = [] ∧ s.care.latent = []) then s
    else startDue (State.each vis (fun i t =>
      let g := bandFirst c first + i
      let u := if c < 256 then g / 16 % 16 * 65536 + g / 256 else g / 1024
      eccOutcome c u (at_ i) (foundAt t found (at_ i)) t) s)
  ((s.set (chanFld c hbmTgResultMiscompares dtcTgResultMiscompares) mis).set
    (chanFld c hbmTgLanesLanes dtcTgLanesLanes) lanes).set (chanFld c hbmTgFailAddr dtcTgFailAddr) (fst.getD 0)

/-- A generator stopped with ABORTED. How many of its accesses it has made by then the spec leaves open: a free value. -/
def tgAbort (c : Nat) (s : State) : State :=
  let (busy, _, _, aborted) := tgCtl c
  if s.flag busy then
    let vis := tgAll s c
    let (k, s) := s.takeFree
    raise aborted ((tgRun c (vis.take (k % (vis.length + 1))) [] [] s).set busy 0)
  else s

/-- TG_STOP: STOP stops a running generator with ABORTED set. -/
def execTgStop (chan : Fin 288) (s : State) : Host.Outcome State Fault Refusal := done (tgAbort chan.val s)

/-- TG_DONE: the generator completes its accesses, clears BUSY, sets DONE and records its results (R232, R235). -/
def execTgDone (chan : Fin 288) (flips : List (Nat × Nat)) (ecc : List (Nat × Ecc)) (s : State) :
    Host.Outcome State Fault Refusal :=
  let c := chan.val
  let (busy, dn, _, _) := tgCtl c
  if !s.flag busy then done s else done (raise dn ((tgRun c (tgAll s c) flips ecc s).set busy 0))

/-! ## Thermal classes (R236, R237) -/

/-- The class a reading rises to: 0 normal, 1 warm from 85, 2 hot from 95, 3 critical above 105 °C. -/
def classOf (t : Nat) : Nat := if 105 < t then 3 else if 95 ≤ t then 2 else if 85 ≤ t then 1 else 0

/-- Lower threshold of a class. -/
def classLow (k : Nat) : Nat := if k = 3 then 106 else if k = 2 then 95 else if k = 1 then 85 else 0

/-- The class after a reading: it rises at once, and falls only 2 °C below the lower threshold of the class in force
(above 105 °C: at 103 °C and below) (R236). -/
def nextClass (k t : Nat) : Nat :=
  if k < classOf t then classOf t
  else if k = 0 then 0
  else if t + 2 ≤ (if k = 3 then 105 else classLow k) then classOf t else k

end Sys2Proof.Machine
end

