-- ==== Sys2Proof/Machine/MemCore.lean ====
section
/-! DEFINITION. The memory-side cache (R185 to R201): the way to the tier through miss scheduler, regulator and channel
controller, one access at a line, and the atomic adders. Hints: 0 STREAM, 1 KEEP, 2 DROP_AFTER_LAST. -/

namespace Sys2Proof.Machine

/-! ## Slices, sets and victims (R192, R196) -/

/-- The slice of a line: a[11:7] XOR a[16:12] XOR … XOR a[41:37]. -/
def sliceOf (line : Nat) : Nat :=
  (List.range 7).foldl (fun x i => Nat.xor x (bits line (5 * i) 5)) 0

/-- The set of a line, slice and set index together. -/
def setOf (line : Nat) : Nat := sliceOf line * 2048 + line % 2048

/-- The least recently used of the listed lines. -/
def lruOf (l : Tab CLine) : Option Nat :=
  (l.foldl (fun b p => match b with
    | none => some p
    | some q => if p.2.age < q.2.age then some p else some q) (none : Option (Nat × CLine))).map Prod.fst

/-- The line that makes room for an allocation in the set of `line`, if one must go (R196). -/
def victim (s : State) (line : Nat) (keep : Bool) : Option Nat :=
  let inSet := s.mem.lines.filter (fun p => setOf p.1 == setOf line)
  let kw := s.get memCacheCtlKeepWays
  let keeps := inSet.filter (fun p => p.2.keep)
  if keep ∧ kw ≠ 0 ∧ kw ≤ keeps.length then lruOf keeps
  else if inSet.length < 16 then none
  else if kw = 0 then lruOf inSet
  else match lruOf (inSet.filter (fun p => !p.2.keep)) with
    | some v => some v
    | none => lruOf keeps

/-! ## The way to the tier (R185 to R190) -/

/-- A partition's miss queue set, and its granted requests. -/
def setQueue (p : Nat) (l : List MReq) (s : State) : State :=
  { s with mem := { s.mem with queue := Tab.set [] s.mem.queue p l } }

def setGranted (p : Nat) (l : List MReq) (s : State) : State :=
  { s with mem := { s.mem with granted := Tab.set [] s.mem.granted p l } }

/-- The operation outstanding on a line and the accesses held behind it. -/
def setBusy (line : Nat) (l : List MReq) (s : State) : State :=
  { s with mem := { s.mem with busy := Tab.set [] s.mem.busy line l } }

/-- The narrow block of an address, and whether an access lies in one (R197). -/
def narrow (a n : Nat) : Bool := decide (a / granule a = (a + n - 1) / granule a)

/-- The bytes charged for an access that needs the tier (R186). -/
def tierCost (r : MReq) : Nat :=
  if r.kind ≤ 1 ∧ r.hint = 0 ∧ narrow r.addr r.len then granule r.addr else 128

/-- The class of a request: 0 READ, 1 WRITE, 2 REMOTE (R187). -/
def classOfReq (r : MReq) : Nat := if 583 ≤ r.req then 2 else if r.kind = 1 ∨ r.kind = 2 then 1 else 0

/-- The deadline of a request as the scheduler sees it now (R178, R189): its stream context's own, else its arrival plus
SLACK. -/
def deadlineOf (s : State) (p : Nat) (r : MReq) : Nat :=
  match r.deadline with
  | some d => d % 2 ^ 32
  | none => (r.arrived + s.get (memPartSlackCycles p)) % 2 ^ 32

/-- Requests of a queue with no older request to the same line before them. -/
def eligible : List MReq → List Nat → List MReq
  | [], _ => []
  | r :: rest, seen =>
    let l := r.addr / 128
    if seen.contains l then eligible rest seen else r :: eligible rest (l :: seen)

/-- Whether deadline `a` is earlier than `b` as the signed 32-bit difference. -/
def earlier (a b : Nat) : Bool := decide (sgn 32 (a + 2 ^ 32 - b) < 0)

/-- The request with the earliest deadline; ties go to the lower requester number. -/
def earliest (s : State) (p : Nat) (l : List MReq) : Option MReq :=
  l.foldl (fun b r => match b with
    | none => some r
    | some q =>
      let d := deadlineOf s p r
      let e := deadlineOf s p q
      if earlier d e ∨ (d = e ∧ r.req < q.req) then some r else some q) none

/-- The share of a class in a credit triple. -/
def creditOf (c : Nat × Nat × Nat) (k : Nat) : Nat := if k = 0 then c.1 else if k = 1 then c.2.1 else c.2.2

/-- One credit of a class used. -/
def useCredit (c : Nat × Nat × Nat) (k : Nat) : Nat × Nat × Nat :=
  if k = 0 then (c.1 - 1, c.2.1, c.2.2) else if k = 1 then (c.1, c.2.1 - 1, c.2.2) else (c.1, c.2.1, c.2.2 - 1)

/-- The shares of a partition. -/
def pctOf (s : State) (p : Nat) : Nat × Nat × Nat :=
  (s.get (memPartSplitReadPct p), s.get (memPartSplitWritePct p), s.get (memPartSplitRemotePct p))

/-- Credits of a partition set. -/
def setCredit (p : Nat) (c : Nat × Nat × Nat) (s : State) : State :=
  { s with mem := { s.mem with credit := Tab.set (0, 0, 0) s.mem.credit p c } }

/-- The class granted under FIXED_SPLIT and the credits after it: the first queued class with credit, after a new round
if none has, else the first queued class. -/
def pickClass (queued : List Nat) (c pct : Nat × Nat × Nat) : Option (Nat × (Nat × Nat × Nat)) :=
  let first (c : Nat × Nat × Nat) := queued.find? (fun k => decide (0 < creditOf c k))
  match first c with
  | some k => some (k, useCredit c k)
  | none =>
    match first pct with
    | some k => some (k, useCredit pct k)
    | none => queued.head?.map (fun k => (k, pct))

/-- P1 with P1_AUTOWAKE: an access that needs a tier starts the way out (R528). -/
def autowake (s : State) : State :=
  if s.get fumStatusState == 2 && s.flag fumCtlP1Autowake && s.fum.transition == 0 then
    { s.set fumPstateBusy 1 with fum := { s.fum with transition := 2 } }
  else s

/-- Whether a soft remap holds the bank, or the deep-tier channel, of a place (R224). -/
def remapHolds (s : State) (p : Phys) : Bool :=
  s.care.active.any (fun r => r.chan == physChan p && (p.tier != 0 || r.unit / 65536 == p.bank))

/-- Whether the channel of an address serves now: its stack neither critical nor in self-refresh, not in P1 or P2, not being
zeroed, its bank not held by a soft remap (R224, R520, R521, R528, R549). -/
def channelServes (s : State) (a : Nat) : Bool :=
  match physOf s a with
  | none => false
  | some p =>
    decide (s.get fumStatusState < 2) && !remapHolds s p &&
      (if p.tier = 0 then
        !bitOf (s.get fumStatusSelfRefresh) (p.chan / 32) && s.get (hbmTempClass (p.chan / 32)) != 3 &&
          !Tab.get false s.mem.zeroing p.chan
       else !Tab.get false s.mem.zeroing (256 + p.chan))

/-- One grant of a partition's miss scheduler under FIXED_SPLIT or DEADLINE (R188, R189). -/
def missGrant (p : Nat) (s : State) : State :=
  let q := Tab.get [] s.mem.queue p
  let el := eligible q []
  let granted (r : MReq) (s : State) : State :=
    let g := Tab.get [] s.mem.granted p
    let s := setGranted p (g ++ [r]) (setQueue p (q.erase r) s)
    if g = [] then { s with mem := { s.mem with stallAt := Tab.set 0 s.mem.stallAt p (cycleNow s) } } else s
  if s.flag (memPartCfgArb p) then
    (match earliest s p el with
     | some r => granted r s
     | none => s)
  else
    let queued := [0, 1, 2].filter (fun k => el.any (fun r => classOfReq r == k))
    match pickClass queued (Tab.get (0, 0, 0) s.mem.credit p) (pctOf s p) with
    | none => s
    | some (k, c) =>
      match el.find? (fun r => classOfReq r == k) with
      | some r => granted r (setCredit p c s)
      | none => s

/-- The first granted request whose channel serves. -/
def nextGranted (s : State) (p : Nat) : Option MReq := (Tab.get [] s.mem.granted p).find? (fun r => channelServes s r.addr)

/-- The core cycles from `t` to now in which the first granted request waited for bucket level, counted in STALL (R185). -/
def stallCount (p : Nat) (s : State) : State :=
  match nextGranted s p with
  | none => s
  | some r =>
    let t := Tab.get 0 s.mem.stallAt p
    let l := bucketLevel s p t
    let rate := s.get (memPartRateRate p)
    let span := cycleNow s - t
    let w := if !s.flag (memPartCfgRegEn p) ∨ 8 * tierCost r ≤ l then 0
      else if rate = 0 then span else min span ((8 * tierCost r - l + rate - 1) / rate)
    let s := if w = 0 then s else s.bump (memPartStallCycles p) w
    { s with mem := { s.mem with stallAt := Tab.set 0 s.mem.stallAt p (cycleNow s) } }

/-- Whether a partition's bucket lets a request issue now. -/
def levelOk (s : State) (p : Nat) (r : MReq) : Bool :=
  !s.flag (memPartCfgRegEn p) || decide (8 * tierCost r ≤ bucketLevel s p (cycleNow s))

/-- A granted request issued: its wait counted, the bucket charged. -/
def issue (p : Nat) (r : MReq) (s : State) : State :=
  let s := stallCount p s
  charge r.addr (tierCost r) (setGranted p ((Tab.get [] s.mem.granted p).erase r) s)

/-- The partitions with a request at a channel controller, and the one whose turn it is: the next after the one served last
(R190). -/
def channelTurn (s : State) (c : Nat) (more : List Nat) : Option Nat :=
  let ps := more ++ (s.mem.flying.filter (fun l => chanOf s (l * 128) == some c)).filterMap (fun l => partOf s (l * 128))
  let last := Tab.get 15 s.mem.turn c
  ((List.range 16).map (fun i => (last + 1 + i) % 16)).find? (fun p => ps.contains p)

/-- Whether the controller of an address's channel serves its partition next. -/
def onTurn (s : State) (a : Nat) (more : List Nat) : Bool :=
  match chanOf s a, partOf s a with
  | some c, some p => channelTurn s c more == some p
  | _, _ => true

/-- The turn of an address's partition taken at its channel. -/
def takeTurn (a : Nat) (s : State) : State :=
  match chanOf s a, partOf s a with
  | some c, some p => { s with mem := { s.mem with turn := Tab.set 15 s.mem.turn c p } }
  | _, _ => s

/-- Grants of a partition until the request has its own. -/
def grantUntil (p : Nat) (r : MReq) : Nat → State → State
  | 0, s => s
  | n + 1, s => if (Tab.get [] s.mem.queue p).contains r then grantUntil p r n (missGrant p s) else s

/-- The time at which the bucket lets a request issue; a RATE of 0 adds no level, and the request does not wait for one
(DESIGN CHOICE, assumption 71). -/
def waitLevel (p : Nat) (r : MReq) (s : State) : State :=
  let l := bucketLevel s p (cycleNow s)
  let rate := s.get (memPartRateRate p)
  if levelOk s p r ∨ rate = 0 then s else s.reach ((cycleNow s + (8 * tierCost r - l + rate - 1) / rate) * 625)

/-- Issues of a partition until the request has its own; the ones before it are on their way to their channels. -/
def issueUntil (p : Nat) (r : MReq) : Nat → State → State
  | 0, s => s
  | n + 1, s =>
    match (Tab.get [] s.mem.granted p).find? (fun x => x == r || channelServes s x.addr) with
    | none => s
    | some g =>
      let s := issue p g (waitLevel p g s)
      if g = r then s else issueUntil p r n { s with mem := { s.mem with flying := s.mem.flying ++ [g.addr / 128] } }

/-- The way to the tier of a transfer that a row makes whole within its own step: the miss scheduler grants it in the order of its
arbitration, it waits for the bucket level, and its partition has its turn at the channel (R185 to R190; DESIGN CHOICE,
assumption 71). One whose channel does not serve is counted in `heldUp`, for the row to wait. -/
def tierPass (r : MReq) (s : State) : State :=
  match partOf s r.addr with
  | none => s
  | some p =>
    let q := Tab.get [] s.mem.queue p
    let s : State := if channelServes s r.addr then s else { s with mem := { s.mem with heldUp := s.mem.heldUp + 1 } }
    let s := setQueue p (q ++ [r]) (autowake s)
    let s := grantUntil p r (q.length + 1) s
    takeTurn r.addr (issueUntil p r ((Tab.get [] s.mem.granted p).length) s)

/-- A row that accesses memory for a unit of the node: it has its effect once every channel that it needs serves; until then its
accesses wait at their controllers, and the row leaves the state as it is, but for the wake of P1 (R224, R521, R528, R549; DESIGN
CHOICE, assumption 71). -/
def whole (f : State → Host.Outcome State Fault Refusal) (s : State) : Host.Outcome State Fault Refusal :=
  match f s with
  | .next t => if t.mem.heldUp = s.mem.heldUp then .next t else done (autowake s)
  | .fault x => .fault x
  | .refused x => .refused x

/-- A request as a unit of the node makes it now. -/
def unitReq (s : State) (req kind a n hint : Nat) (d : Option Nat) : MReq :=
  ⟨req, kind, a, n, [], hint, 0, d, cycleNow s, 0, false, 0⟩

/-! ## One access at a line (R193 to R197) -/

/-- Bytes written over a byte list at an offset. -/
def patch (bs new : List Byte) (off : Nat) : List Byte := bs.take off ++ new ++ bs.drop (off + new.length)

/-- The 32-byte quarters whose whole granule a write of `n` bytes at `off` covers; `g` is the granule. -/
def wholeMask (g off n : Nat) : Nat :=
  ((List.range 4).map (fun q =>
    let b := 32 * q / g * g
    b2n (decide (off ≤ b) && decide (b + g ≤ off + n)) * 2 ^ q)).sum

/-- The tier's copy of a line. -/
def tierLine (s : State) (line : Nat) : List Byte := (List.range 128).map (fun i => tierByte s (line * 128 + i))

/-- Bytes written to the tier, whole granules cleared of poison. -/
def tierWrite (a : Nat) (bs : List Byte) (s : State) : State :=
  let s := bs.zipIdx.foldl (fun t p => tierPut (a + p.2) p.1 t) s
  let g := granule a
  (List.range ((a + bs.length - 1) / g - a / g + 1)).foldl
    (fun t i => let b := (a / g + i) * g
      let t := if t.care.latent = [] then t else setLatent b .clean t
      if a ≤ b ∧ b + g ≤ a + bs.length then t.setPoison b false else t) s

/-- A whole line with its poison written back to the tier. -/
def writeBack (line : Nat) (data : List Byte) (poison : Nat) (s : State) : State :=
  let s := tierWrite (line * 128) data s
  (List.range 4).foldl (fun t q =>
    if bitOf poison q then t.setPoison (granuleBase (line * 128 + 32 * q)) true else t) s

/-- A line dropped from the cache. -/
def dropLine (line : Nat) (s : State) : State := s.setLine line noLine

/-- A line evicted: its L1 copies are invalidated first, dirty data goes to the tier as a WRITE request (R187, R196, R425,
R448). -/
def evictLine (line : Nat) (s : State) : State :=
  let s := snoopLine false false line s
  match cached s line with
  | none => s
  | some l =>
    dropLine line (if l.dirty then
      writeBack line l.data l.poison (failedAnswer (line * 128) (tierPass (unitReq s 582 1 (line * 128) 128 0 none) s)) else s)

/-- A line freed without write-back, its L1 copies discarded (R194). -/
def freeLine (line : Nat) (s : State) : State :=
  (dropLine line (snoopLine false true line s)).bump memCacheDropsCount 1

/-- A line allocated, the victim evicted first. -/
def allocLine (line : Nat) (l : CLine) (s : State) : State :=
  let s := match victim s line l.keep with
    | some v => evictLine v s
    | none => s
  let s : State := { s with mem := { s.mem with clock := s.mem.clock + 1 } }
  s.setLine line { l with age := s.mem.clock }

/-- A hit: the use count and retention move under the hint, the age is renewed, the line freed at count 0. -/
def hitLine (line hint : Nat) (l : CLine) (s : State) : State :=
  let s : State := { s with mem := { s.mem with clock := s.mem.clock + 1 } }
  let l := { l with age := s.mem.clock }
  if hint = 1 then s.setLine line { l with keep := true, uses := 0 }
  else if hint = 2 ∧ l.uses ≠ 0 then
    if l.uses = 1 then freeLine line (s.setLine line { l with uses := 0 })
    else s.setLine line { l with uses := l.uses - 1 }
  else s.setLine line l

/-- Host and fabric accesses to a held line are counted (R437). -/
def ncHit (req line : Nat) (s : State) : State :=
  match cached s line with
  | some l => if 583 ≤ req ∧ l.holders ≠ 0 then raise cohEvtNcHit (s.bump cohNcHitCount 1) else s
  | none => s

/-- One whole access at one line, performed: bytes read, POISON, and the state. Snooping requesters read through the
owner and invalidate the holders before a write; host and fabric do not (R436, R437). A poisoned granule poisons every read of its
line, on the narrow path only one of its block; a failed channel answers every access with POISON (R215, R217, R218). -/
def lineAccess (req : Nat) (write : Bool) (a n : Nat) (data : List Byte) (hint uses : Nat) (s : State) :
    List Byte × Bool × State :=
  let line := a / 128
  let off := a % 128
  let gk := guardKind s a n
  let s := guardCount a n s
  let s := if 583 ≤ req then ncHit req line s
    else if write then snoopLine false false line s
    else match cached s line with
      | some l => if l.owned then snoopLine true false line s else s
      | none => s
  let (data, s) := guarded (if write ∧ gk = 2 then 2 else 0) data s
  let (s, bs, po, l) : State × List Byte × Nat × Option CLine := match cached s line with
    | some l =>
      let bad := storeBad s 1 line
      let l := { l with poison := Nat.lor l.poison bad }
      ((if bad = 0 then s else storeFound 1 line (s.setLine line l)).bump memCacheHitsCount 1, l.data, l.poison, some l)
    | none => (s.bump memCacheMissesCount 1, tierLine s line, tierPoisonMask s line, none)
  let bs' := if write then patch bs data off else bs
  let po' := if write then clearBits po (wholeMask (granule a) off n) else po
  let block := ((List.range 4).map (fun q => b2n (32 * q / granule a == off / granule a) * 2 ^ q)).sum
  let seen := if l.isNone ∧ hint = 0 ∧ narrow a n then Nat.land po block else po
  let poisoned := (!write && seen != 0) || (l.isNone && chanFailed s a && !(write && hint != 0 && n == 128))
  let s := match l with
    | some l => hitLine line hint (if write then { l with data := bs', poison := po', dirty := true } else l) s
    | none =>
      if hint = 0 then (if write then tierWrite a data s else s)
      else
        let u := if hint = 2 then max uses 1 else 0
        let s := allocLine line ⟨bs', po', write, hint == 1, u, 0, 0, false⟩ s
        if hint = 2 then
          (if u = 1 then freeLine line s
           else match cached s line with
            | some l => s.setLine line { l with uses := u - 1 }
            | none => s)
        else s
  let (out, s) := guarded (if !write ∧ gk ≠ 0 then 1 else 0) (slice bs off n) s
  (if write then [] else out, poisoned, s)

/-- The pieces of a range that lie in one line each. -/
def linePieces : Nat → Nat → Nat → List (Nat × Nat)
  | 0, _, _ => []
  | k + 1, a, n =>
    if n = 0 then [] else
      let m := min n (128 - a % 128)
      (a, m) :: linePieces k (a + m) (n - m)

/-- The pieces of a range. -/
def pieces (a n : Nat) : List (Nat × Nat) := linePieces (n / 128 + 2) a n

/-! ## Atomic adders (R198 to R201) -/

/-- Bytes of an atomic format: FP32, BF16, FP16, INT32, INT64, C80. -/
def atomicSize (fmt : Nat) : Nat :=
  if fmt = 0 then 4 else if fmt = 1 ∨ fmt = 2 then 2 else if fmt = 3 then 4 else if fmt = 4 then 8 else 16

/-- The floating-point format of an atomic: of the number formats of Float.lean. -/
def atomicFp (fmt : Nat) : Option Fmt :=
  if fmt = 0 then some fmtFp32 else if fmt = 1 then some fmtBf16 else if fmt = 2 then some fmtFp16 else none

/-- The sum the adder writes, whether it gave a canonical NaN, whether a C80 overflowed. -/
def adderSum (fmt old x : Nat) : Nat × Bool × Bool :=
  match atomicFp fmt with
  | some f =>
    let v := (f.decode old).add (f.decode x)
    (f.encode v, v.isNan, false)
  | none =>
    if fmt = 3 then ((old + x) % 2 ^ 32, false, false)
    else if fmt = 4 then ((old + x) % 2 ^ 64, false, false)
    else
      let t := sgn 80 old + sgn 80 x
      let w := wrapInt 80 t
      (wrapInt 128 (sgn 80 w), false, decide (sgn 80 w ≠ t))

/-- Whether an operand is well formed: a C80 operand is sign-extended (R201). -/
def atomicOk (fmt x : Nat) : Bool := fmt != 5 || decide (wrapInt 128 (sgn 80 x) = x)

/-- The adder at an address of the tier: the value held before, POISON, and the state (R199 to R201). Under the row-logic guard
what it reads is a free value, and so is what it writes into a DEST range (R267). -/
def adderDo (fmt a x : Nat) (s : State) : Nat × Bool × State :=
  let n := atomicSize fmt
  let gk := guardKind s a n
  let (old, s) := guarded gk ((List.range n).map (fun i => tierByte s (a + i))) s
  let old := leNat old
  if tierPoison s a then (old, true, s)
  else
    let (v, nan, ovf) := adderSum fmt old x
    let (w, s) := guarded (if gk = 2 then 2 else 0) (leBytes n v) s
    let s := tierWrite a w s
    let s := if nan then s.bump memAtomicStatNan 1 else s
    (old, false, if ovf then raise memEvtAtomicOvf (s.bump memAtomicStatOvf 1) else s)

/-- A cached line's L1 copies invalidated, its dirty data written back, the line dropped (R198 step 2). -/
def flushLine (line : Nat) (s : State) : State := evictLine line s

/-- The rows a row-logic command names, by its opcode: DST, then its sources (R250, R251). -/
def namedRows (c : List Byte) : List Nat :=
  let op := leAt c 0 2 % 64
  let d := leAt c 2 2
  let a := leAt c 4 2
  let b := leAt c 6 2
  if op = 1 ∨ op = 2 then [d, a]
  else if op = 3 ∨ op = 4 ∨ op = 5 then [d, a, b]
  else if op = 6 then [d, a, b, leAt c 8 2]
  else if op = 0x11 ∨ op = 0x12 then [a]
  else if op = 0x13 then [d]
  else []

end Sys2Proof.Machine
end

