-- ==== Sys2Proof/Machine/SliceCore.lean ====
section
/-! DEFINITION. The slices of the memory-side cache and the engine L1s (R424 to R437): requests in the order of R430, transactions,
snoops and grants, and the accesses that the units of the node make whole within one step. -/

namespace Sys2Proof.Machine

/-- A request that needs the tier: the line becomes busy and the request joins its partition's miss queue. -/
def toTier (r : MReq) (s : State) : State :=
  match partOf s r.addr with
  | none => s
  | some p =>
    let s := autowake (setBusy (r.addr / 128) [r] s)
    setQueue p (Tab.get [] s.mem.queue p ++ [r]) s

/-! ## Messages and transactions of a slice (R428 to R437) -/

/-- A message sent. -/
def sendMsg (m : CMsg) (s : State) : State := { s with coh := { s.coh with net := s.coh.net ++ [m] } }

/-- Whether a kind travels from an L1 to a slice. -/
def toSlice (k : MsgKind) : Bool :=
  match k with
  | .rspGone | .rspInv | .rspInvS | .rspData | .rspDataS => true
  | _ => false

/-- The message that a receiving command takes: the oldest one of its sender to its receiver, when it is of this kind,
tag and line (messages between one pair arrive in the order sent). -/
def nextMsg (s : State) (k : MsgKind) (eng slice tag line : Nat) : Option CMsg :=
  match s.coh.net.find? (fun m => m.eng == eng && m.slice == slice && toSlice m.kind == toSlice k) with
  | some m => if m.kind = k ∧ m.tag = tag ∧ m.line = line then some m else none
  | none => none

/-- The message taken off the way. -/
def takeMsg (m : CMsg) (s : State) : State := { s with coh := { s.coh with net := s.coh.net.erase m } }

/-- The transaction open on a line. -/
def txnOf (s : State) (line : Nat) : Option Txn := s.coh.txns.find? (fun t => t.line == line)

/-- A transaction replaced or removed. -/
def setTxn (t : Txn) (s : State) : State :=
  { s with coh := { s.coh with txns := t :: s.coh.txns.filter (fun u => u.line != t.line) } }

def dropTxn (line : Nat) (s : State) : State :=
  { s with coh := { s.coh with txns := s.coh.txns.filter (fun u => u.line != line) } }

/-- The largest pending-queue occupancy of any slice. -/
def queueMost (s : State) : Nat := s.coh.queue.foldl (fun m p => max m p.2.length) 0

/-- A slice's pending queue set, with what the registers show of it. -/
def setPendingQueue (sl : Nat) (l : List MReq) (s : State) : State :=
  let s : State := { s with coh := { s.coh with queue := Tab.set [] s.coh.queue sl l } }
  let s := s.set cohStatusPending (queueMost s)
  let s := s.set cohQueueHigh (max (s.get cohQueueHigh) l.length)
  if 64 ≤ l.length then raise cohEvtQueueFull s else s

/-! ## The order of one cycle (R203, R430) -/

/-- The rank of a request among those that reach its line in one cycle: after the WBs and the answers to snoops, class 0, come
the L1 requests, class 1, by the key (engine number XOR a[12:7]), then every other request, class 2, by its requester number. -/
def l1Rank (e line : Nat) : Nat × Nat := (1, Nat.xor e (line % 64))
def rankOf (r : MReq) : Nat × Nat := if 3 ≤ r.kind then l1Rank r.req (r.addr / 128) else (2, r.req)

/-- Whether one rank comes before another. -/
def rankBefore (x y : Nat × Nat) : Bool := decide (x.1 < y.1) || (x.1 == y.1 && decide (x.2 < y.2))

/-- The line and the rank with which a command reaches a slice. -/
def arrivalOf (c : Instr) : Option (Nat × Nat × Nat) :=
  match c with
  | .memoryAccess req _ a _ _ _ _ _ => some (a.toNat / 128, 2, req)
  | .atomicRequest req a _ _ _ => some (a.toNat / 128, 2, req)
  | .rdS e _ l => some (l.toNat, l1Rank e l.toNat)
  | .rdX e _ l _ _ => some (l.toNat, l1Rank e l.toNat)
  | .upg e _ l _ _ => some (l.toNat, l1Rank e l.toNat)
  | .evict e _ l => some (l.toNat, l1Rank e l.toNat)
  | .wb _ _ l | .rspGone _ _ _ l | .rspInv _ _ _ l | .rspInvS _ _ _ l | .rspData _ _ _ l | .rspDataS _ _ _ l => some (l.toNat, 0, 0)
  | _ => none

/-- Whether a request that arrives now is beaten by another of its line: of commands that wait, those that stand together before
any other kind of command arrive in this cycle too (DESIGN CHOICE, assumption 29). -/
def beaten (s : State) (r : MReq) : Bool :=
  r.arrived == cycleNow s && (s.pending.takeWhile (fun c => (arrivalOf c).isSome)).any (fun c =>
    match arrivalOf c with
    | some x => x.1 == r.addr / 128 && rankBefore x.2 (rankOf r)
    | none => false)

/-- A request put behind the others of its line, but before those of its own cycle that it comes before (R203, R430). -/
def insertReq (r : MReq) : List MReq → List MReq
  | [] => [r]
  | q :: l =>
    if q.addr / 128 = r.addr / 128 ∧ q.arrived = r.arrived ∧ rankBefore (rankOf r) (rankOf q) then r :: q :: l
    else q :: insertReq r l

/-- A request enters its slice's pending queue, or waits at its requester when the queue is full (R429, R430). -/
def enqueue (r : MReq) (s : State) : State :=
  let sl := sliceOf (r.addr / 128)
  let q := Tab.get [] s.coh.queue sl
  if q.length < 64 then setPendingQueue sl (insertReq r q) s
  else { s with coh := { s.coh with waiting := Tab.set [] s.coh.waiting sl (insertReq r (Tab.get [] s.coh.waiting sl)) } }

/-- The snoop tags a slice has free, lowest first. -/
def freeTags (s : State) (sl : Nat) : List Nat :=
  (List.range 64).filter (fun t => !s.coh.snoops.any (fun x => x.slice == sl && x.tag == t))

/-- The transaction of a request opened with a snoop to each engine of the list. -/
def openTxn (k : MsgKind) (es : List Nat) (r : MReq) (s : State) : State :=
  let line := r.addr / 128
  let sl := sliceOf line
  let tags := freeTags s sl
  if tags.length < es.length then enqueue r s
  else
    let s := setTxn ⟨line, r, 0⟩ s
    (es.zip tags).foldl (fun t p =>
      let t := sendMsg ⟨k, p.1, sl, p.2, line, [], 0⟩ t
      let t : State := { t with coh := { t.coh with snoops := t.coh.snoops ++ [⟨sl, p.2, p.1, line, false, t.now⟩] } }
      t.bump cohSnoopsCount 1) s

/-- The engines of a holder vector. -/
def enginesOf (v : Nat) : List Nat := (List.range 64).filter (fun e => bitOf v e)

/-- The grant of an L1 request whose line the cache holds: directory updated, message sent (R428, R434); its data is a free value
under the row-logic guard (R267). -/
def grant (r : MReq) (s : State) : State :=
  let line := r.addr / 128
  match cached s line with
  | none => s
  | some l =>
    let s := hitLine line 1 l s
    match cached s line with
    | none => s
    | some l =>
      let e := r.req
      let bit := 2 ^ e
      let others := clearBits l.holders bit
      let (k, hold, own, data) : MsgKind × Nat × Bool × List Byte :=
        if r.kind = 3 then
          (if others = 0 then (.dataE, bit, true, l.data) else (.dataS, Nat.lor l.holders bit, false, l.data))
        else if r.kind = 5 ∧ bitOf l.holders e then (.upgAck, bit, true, [])
        else (.dataX, bit, true, l.data)
      let s := s.setLine line { l with holders := hold, owned := own }
      let (data, s) := guarded (guardKind s (line * 128) 128) data s
      setTxn ⟨line, r, 1⟩ (sendMsg ⟨k, e, sliceOf line, r.tag, line, data, l.poison⟩ s)

/-- The answer of a performed memory access. -/
def answer (r : MReq) (bs : List Byte) (po : Bool) (s : State) : State := s.emit (.memData r.req bs po (if po then 4 else 0))

/-- An access whose snoops are answered: performed at the line, or sent to the tier. -/
def ready (r : MReq) (s : State) : State :=
  let line := r.addr / 128
  if 3 ≤ r.kind then
    (match cached s line with
     | some _ => grant r (s.bump memCacheHitsCount 1)
     | none => toTier r s)
  else if r.kind = 2 then
    (match cached s line with
     | some _ => toTier r (flushLine line s)
     | none => toTier r s)
  else if (cached s line).isSome ∨ (r.kind = 1 ∧ r.len = 128 ∧ r.hint ≠ 0) then
    let (bs, po, s) := lineAccess r.req (r.kind == 1) r.addr r.len r.data r.hint r.uses s
    answer r bs po s
  else toTier r s

/-- A request that its slice accepts: the snoops it needs are sent, or it goes on at once (R429, R436). -/
def serve (r : MReq) (s : State) : State :=
  let line := r.addr / 128
  match cached s line with
  | none => ready r s
  | some l =>
    let others := if 3 ≤ r.kind then clearBits l.holders (2 ^ r.req) else l.holders
    if (r.kind = 0 ∧ r.req < 583 ∧ l.owned) ∨ (r.kind = 3 ∧ l.owned ∧ others ≠ 0) then
      openTxn .snpShare (enginesOf others) r s
    else if ((r.kind = 1 ∧ r.req < 583) ∨ r.kind = 2 ∨ 4 ≤ r.kind) ∧ others ≠ 0 then
      openTxn .snpInv (enginesOf others) r s
    else ready r s

/-- Whether a request of a line waits in the pending queue of its slice. -/
def lineQueued (s : State) (line : Nat) : Bool := (Tab.get [] s.coh.queue (sliceOf line)).any (fun q => q.addr / 128 == line)

/-- A request arrives at its slice: held behind an operation at the tier (R198, R205), queued behind a transaction, behind
queued requests of the line, or because another request of its cycle comes before it (R429, R430), or served. -/
def arrive (r : MReq) (s : State) : State :=
  let line := r.addr / 128
  match Tab.get [] s.mem.busy line with
  | op :: held => setBusy line (op :: insertReq r held) s
  | [] => if (txnOf s line).isSome || lineQueued s line || beaten s r then enqueue r s else serve r s

/-- The slice's queued and waiting requests tried again, in order. -/
def pump (sl : Nat) (s : State) : State :=
  let q := Tab.get [] s.coh.queue sl ++ Tab.get [] s.coh.waiting sl
  let s := setPendingQueue sl [] s
  let s : State := { s with coh := { s.coh with waiting := Tab.set [] s.coh.waiting sl [] } }
  State.each q arrive s

/-- After an arrival at a line: requests of it that wait in the pending queue while nothing is open on it are tried (R429). -/
def pumpLine (line : Nat) (s : State) : State :=
  if lineQueued s line && (txnOf s line).isNone && (Tab.get [] s.mem.busy line).isEmpty then pump (sliceOf line) s else s

/-- A transaction closes once its requester has what it asked for and every snoop is answered (R429). -/
def closeTxn (line : Nat) (s : State) : State :=
  match txnOf s line with
  | some t =>
    if t.phase = 2 ∧ ¬ s.coh.snoops.any (fun x => x.line == line) then pump (sliceOf line) (dropTxn line s) else s
  | none => s

/-- After an answer: once no snoop that is not STALE is open on the line, the access is performed or the grant sent. -/
def advance (line : Nat) (s : State) : State :=
  match txnOf s line with
  | some t =>
    if t.phase = 0 ∧ ¬ s.coh.snoops.any (fun x => x.line == line && !x.stale) then
      closeTxn line (if 3 ≤ t.req.kind then ready t.req s else setTxn { t with phase := 2 } (ready t.req s))
    else closeTxn line s
  | none => s

/-- The operation on a line completed: its held accesses are served in order (R198, R205). -/
def release (line : Nat) (s : State) : State :=
  let held := (Tab.get [] s.mem.busy line).drop 1
  let s := setBusy line [] s
  let s : State := { s with mem := { s.mem with flying := s.mem.flying.filter (fun x => x != line) } }
  State.each held arrive s

/-! ## The L1 and the directory (R425 to R433) -/

/-- The L1 set of a line. -/
def l1Set (line : Nat) : Nat := line % 256

/-- A line of an L1 written. -/
def l1Put (e line : Nat) (v : L1Line) (s : State) : State :=
  let x := s.l1 e
  s.setL1 e { x with clock := x.clock + 1, lines := Tab.insert x.lines line { v with age := x.clock + 1 } }

/-- A line of an L1 dropped. -/
def l1Remove (e line : Nat) (s : State) : State :=
  let x := s.l1 e
  s.setL1 e { x with lines := x.lines.filter (fun p => p.1 != line) }

/-- An L1 line read: an error of its store that the code only detects poisons it, with a memory fault (R211). -/
def l1Check (e line : Nat) (s : State) : State :=
  match l1Line s e line with
  | some x =>
    let bad := storeBad s (2 + e) line
    if bad = 0 then s else storeFound (2 + e) line (l1Put e line { x with poison := Nat.lor x.poison bad } s)
  | none => s

/-- An open request of an L1 recorded, and closed. -/
def l1Open (e : Nat) (q : L1Req) (s : State) : State :=
  s.setL1 e { s.l1 e with reqs := (s.l1 e).reqs ++ [q] }

def l1Close (e tag : Nat) (s : State) : State :=
  s.setL1 e { s.l1 e with reqs := (s.l1 e).reqs.filter (fun q => q.tag != tag) }

/-- A holder cleared in the directory. -/
def clearHolder (e line : Nat) (s : State) : State :=
  match cached s line with
  | some l =>
    let h := clearBits l.holders (2 ^ e)
    s.setLine line { l with holders := h, owned := l.owned && decide (h ≠ 0) }
  | none => s

/-- An owner that keeps S. -/
def shareHolder (line : Nat) (s : State) : State :=
  match cached s line with
  | some l => s.setLine line { l with owned := false }
  | none => s

/-- Dirty data of an L1 taken into the cache, or to the tier when the cache has lost the line. -/
def takeDirty (line : Nat) (data : List Byte) (poison : Nat) (s : State) : State :=
  match cached s line with
  | some l => s.setLine line { l with data := data, poison := poison, dirty := true }
  | none => writeBack line data poison (failedAnswer (line * 128) (tierPass (unitReq s 582 1 (line * 128) 128 0 none) s))

/-- The open snoop of a slice with a tag. -/
def snoopOf (s : State) (slice tag : Nat) : Option Snoop :=
  s.coh.snoops.find? (fun x => x.slice == slice && x.tag == tag)

/-- The open snoop of an engine for a line that is not STALE. -/
def openSnoop (s : State) (e line : Nat) : Option Snoop :=
  s.coh.snoops.find? (fun x => x.eng == e && x.line == line && !x.stale)

/-- An open snoop removed. -/
def dropSnoop (x : Snoop) (s : State) : State := { s with coh := { s.coh with snoops := s.coh.snoops.erase x } }

/-- A grant received: the line installed, the request closed, its write performed, the transaction closed (R427,
R431). -/
def receiveGrant (k : MsgKind) (st : Mesi) (e tag line : Nat) (s : State) : State :=
  match nextMsg s k e (sliceOf line) tag line, (s.l1 e).reqs.find? (fun q => q.tag == tag && q.line == line) with
  | some m, some q =>
    let s := l1Close e tag (takeMsg m s)
    let have_ := l1Line s e line
    let data := if k = .upgAck then (have_.map (fun x => x.data)).getD [] else m.data
    let po := if k = .upgAck then (have_.map (fun x => x.poison)).getD 0 else m.poison
    let (data, po) := if st = .m then (patch data q.data q.off, clearBits po (wholeMask (granule (line * 128)) q.off q.data.length)) else (data, po)
    let s := l1Put e line ⟨st, data, po, 0⟩ s
    match txnOf s line with
    | some t => closeTxn line (setTxn { t with phase := 2 } s)
    | none => s
  | _, _ => s

/-- A write-back entry freed. -/
def freeWb (e line : Nat) (s : State) : State :=
  s.setL1 e { s.l1 e with wb := (s.l1 e).wb.filter (fun w => w.1 != line) }

/-- The answer of an L1 to a snoop, and what becomes of its copy (R427, R433). -/
def answerSnoop (k : MsgKind) (e slice tag line : Nat) (s : State) : State :=
  let reply (k : MsgKind) (d : List Byte) (p : Nat) (s : State) : State := sendMsg ⟨k, e, slice, tag, line, d, p⟩ s
  let s := l1Check e line s
  match l1Line s e line with
  | some x =>
    if k = .snpShare then
      reply (if x.st = .m then .rspDataS else .rspInvS) (if x.st = .m then x.data else []) x.poison
        (l1Put e line { x with st := .s } s)
    else if k = .snpInv ∧ x.st = .m then reply .rspData x.data x.poison (l1Remove e line s)
    else reply .rspInv [] 0 (l1Remove e line s)
  | none =>
    match (s.l1 e).wb.find? (fun w => w.1 == line) with
    | some w => if k = .snpDiscard then reply .rspInv [] 0 s else reply .rspData w.2.1 w.2.2 s
    | none => reply .rspGone [] 0 s

/-- A protocol fault: 1 unmatched tag, 2 snoop timeout. -/
def protocolFault (cause e line : Nat) (s : State) : State :=
  let s := ((s.set cohFaultAddr (line * 128)).set cohFaultEngine e).set cohFaultCause cause
  fault .coherence cause e (line * 128) (if cause = 1 then 10 else 0) none (raise cohEvtProtocol s)

/-- A held write-back of the engine for the line answered WB_SUPERSEDED and the crossing counted (R433 step 6). -/
def supersede (e line : Nat) (s : State) : State :=
  if s.coh.heldWb.contains (e, line) then
    let tag := (((s.l1 e).reqs.find? (fun q => q.line == line && q.kind == 4)).map (fun q => q.tag)).getD 0
    let s : State := { s with coh := { s.coh with heldWb := s.coh.heldWb.erase (e, line) } }
    (sendMsg ⟨.wbSuperseded, e, sliceOf line, tag, line, [], 0⟩ s).bump cohCrossDirty 1
  else s

/-- What a response does to its line: a clean answer clears the holder, or retires a STALE snoop (R432); a shared one keeps S; data
is written into the cache, and a held write-back of it is superseded (R433, R436). -/
def rspEffect (k : MsgKind) (x : Snoop) (m : CMsg) (s : State) : State :=
  match k with
  | .rspGone => if x.stale then s.bump cohCrossClean 1 else clearHolder x.eng x.line s
  | .rspInvS => shareHolder x.line s
  | .rspData => supersede x.eng x.line (clearHolder x.eng x.line (takeDirty x.line m.data m.poison s))
  | .rspDataS => shareHolder x.line (takeDirty x.line m.data m.poison s)
  | _ => clearHolder x.eng x.line s

/-- A response to a snoop: its message taken off the way, its effect on the line, the transaction carried on; a
response whose tag matches no open snoop is discarded and reported (R449). -/
def receiveRsp (k : MsgKind) (e slice tag line : Nat) (s : State) : State :=
  let m := nextMsg s k e slice tag line
  let t := match m with | some m => takeMsg m s | none => s
  match snoopOf s slice tag, m with
  | none, _ => protocolFault 1 e line t
  | some x, some m => advance x.line (rspEffect k x m (dropSnoop x t))
  | some _, none => s

/-! ## Accesses made whole within one step -/

/-- The first request of a busy line completed at the tier: an atomic by the adder, any other by the line's data; then the accesses
held behind it are served (R198, R205). -/
def completeBusy (line : Nat) (ecc : List (Nat × Ecc)) (s : State) : State :=
  match Tab.get [] s.mem.busy line with
  | [] => s
  | r :: _ =>
    let s := failedAnswer r.addr (eccLine line ecc (takeTurn (line * 128) s))
    if r.kind = 2 then
      let (old, po, s) := adderDo r.fmt r.addr (leNat (r.data.take r.len)) s
      release line (answer r (if r.fetch then leBytes r.len old else []) po s)
    else if 3 ≤ r.kind then
      let s := (allocLine line ⟨tierLine s line, tierPoisonMask s line, false, true, 0, 0, 0, false⟩ s).bump memCacheMissesCount 1
      release line (grant r s)
    else
      let (bs, po, s) := lineAccess r.req (r.kind == 1) r.addr r.len r.data r.hint r.uses s
      release line (answer r bs po s)

/-- The same for a request that has not issued yet: it issues first. -/
def finishBusy (line : Nat) (s : State) : State :=
  match Tab.get [] s.mem.busy line with
  | [] => s
  | r :: _ =>
    if s.mem.flying.contains line then completeBusy line [] s
    else
      match partOf s r.addr with
      | none => s
      | some p =>
        let s := setGranted p ((Tab.get [] s.mem.granted p).erase r) (setQueue p ((Tab.get [] s.mem.queue p).erase r) s)
        completeBusy line [] (tierPass r s)

/-- One message on its way received by its L1 or its slice. -/
def deliverMsg (m : CMsg) (s : State) : State :=
  match m.kind with
  | .dataS => receiveGrant .dataS .s m.eng m.tag m.line s
  | .dataE => receiveGrant .dataE .e m.eng m.tag m.line s
  | .dataX => receiveGrant .dataX .m m.eng m.tag m.line s
  | .upgAck => receiveGrant .upgAck .m m.eng m.tag m.line s
  | .evictAck => l1Close m.eng m.tag (takeMsg m s)
  | .wbAck | .wbSuperseded => freeWb m.eng m.line (l1Close m.eng m.tag (takeMsg m s))
  | .snpShare | .snpInv | .snpDiscard => answerSnoop m.kind m.eng m.slice m.tag m.line (takeMsg m s)
  | k => receiveRsp k m.eng m.slice m.tag m.line s

/-- The next message that a line waits for: the oldest between the pair of its first message. -/
def lineMsg (s : State) (line : Nat) : Option CMsg :=
  (s.coh.net.find? (fun m => m.line == line)).bind (fun m =>
    s.coh.net.find? (fun x => x.eng == m.eng && x.slice == m.slice && toSlice x.kind == toSlice m.kind))

/-- Whether nothing is open on a line. -/
def lineQuiet (s : State) (line : Nat) : Bool :=
  (Tab.get [] s.mem.busy line).isEmpty && (txnOf s line).isNone && !lineQueued s line

/-- What is open on a line carried to its end. -/
def settleSteps (line : Nat) : Nat → State → State
  | 0, s => s
  | n + 1, s =>
    if lineQuiet s line then s
    else if !(Tab.get [] s.mem.busy line).isEmpty then settleSteps line n (finishBusy line s)
    else
      match lineMsg s line with
      | some m => settleSteps line n (deliverMsg m s)
      | none => if (txnOf s line).isNone then pumpLine line s else s

/-- The accesses that came before are performed first: what is open on a line, or queued or held for it, comes to its end before an
access that a row makes whole within its own step (R198, R203, R205, R429; DESIGN CHOICE, assumption 71). -/
def settleLine (line : Nat) (s : State) : State :=
  if lineQuiet s line then s
  else settleSteps line (200 * (2 + (Tab.get [] s.mem.busy line).length + (Tab.get [] s.coh.queue (sliceOf line)).length + s.coh.net.length)) s

/-- An access of a unit at one line within one step: after what came before, by way of the tier where it misses (R185 to R205). -/
def lineUse (req : Nat) (write : Bool) (a n : Nat) (data : List Byte) (hint uses : Nat) (d : Option Nat) (s : State) :
    List Byte × Bool × State :=
  let line := a / 128
  let s := settleLine line s
  let s := if (cached s line).isSome ∨ (write ∧ hint ≠ 0 ∧ n = 128) then s
    else
      let whole := write && hint == 0 && (n == 128 || (n == granule a && a % granule a == 0))
      let s := failedAnswer a (tierPass (unitReq s req (b2n write) a n hint d) s)
      if whole then s else eccLine line [] s
  lineAccess req write a n data hint uses s

/-- What a read of a range returned: its bytes, whether each lies in a line that answered POISON, whether any was refused. -/
structure Got where
  bytes : List Byte
  bad : List Bool
  refused : Bool

/-- Reads of pieces of lines one after another by a unit of the node: 0xFF where refused (R175). -/
def getPieces (req hint uses : Nat) (d : Option Nat) : List (Nat × Nat) → State → Got × State
  | [], s => (⟨[], [], false⟩, s)
  | p :: ps, s =>
    if refusal s p.1 ≠ 0 then
      let (g, s) := getPieces req hint uses d ps (if req = 584 then s else mapErr req p.1 s)
      (⟨List.replicate p.2 0xFF ++ g.bytes, List.replicate p.2 false ++ g.bad, true⟩, s)
    else
      let (b, q, s) := lineUse req false p.1 p.2 [] hint uses d s
      let (g, s) := getPieces req hint uses d ps s
      (⟨b ++ g.bytes, List.replicate p.2 q ++ g.bad, g.refused⟩, s)

/-- A read of a range by a unit of the node. The deadline is a stream context's own (R189). -/
def useGet (req a n hint uses : Nat) (d : Option Nat) (s : State) : Got × State := getPieces req hint uses d (pieces a n) s

/-- The same: bytes, whether any access was refused, whether any was poisoned. -/
def useRead (req a n hint uses : Nat) (s : State) : List Byte × Bool × Bool × State :=
  let (g, s) := useGet req a n hint uses none s
  (g.bytes, g.refused, g.bad.any id, s)

/-- A write of bytes by a unit of the node: whether any piece was refused, whether one was answered POISON, and the state. -/
def usePut (req a : Nat) (bs : List Byte) (hint uses : Nat) (d : Option Nat) (s : State) : Bool × Bool × State :=
  (pieces a bs.length).foldl (fun acc p =>
    let (rf, po, s) := acc
    if refusal s p.1 ≠ 0 then (true, po, if req = 584 then s else mapErr req p.1 s)
    else
      let (_, q, s) := lineUse req true p.1 p.2 (slice bs (p.1 - a) p.2) hint uses d s
      (rf, po || q, s))
    (false, false, s)

/-- The same: whether any piece was refused. -/
def useWrite (req a : Nat) (bs : List Byte) (hint uses : Nat) (s : State) : Bool × State :=
  let (rf, _, s) := usePut req a bs hint uses none s
  (rf, s)

/-- A range read with hint STREAM for the values that the state then shows: refusals are recorded, transfers charged, errors
found (R175, R186, R213). -/
def touch (req a n : Nat) (s : State) : State := (useGet req a n 0 0 none s).2

/-- Bytes written with hint STREAM. -/
def store (req a : Nat) (bs : List Byte) (s : State) : State := (usePut req a bs 0 0 none s).2.2

/-- A range copied, poison with it (R215). -/
def copyRange (req a b n : Nat) (s : State) : State :=
  let bad := (List.range (n / 32)).filter (fun k => granulePoison s (a + 32 * k))
  let (g, s) := useGet req a n 0 0 none s
  State.each bad (fun k t => nodePoisonWrite (b + 32 * k) 32 t) (store req b g.bytes s)

/-- An atomic of the host or the fabric, performed within one step after what came before at its line: the value before, POISON,
the state (R111, R198). -/
def atomicNow (req fmt a x : Nat) (s : State) : Nat × Bool × State :=
  let s := guardCount a (atomicSize fmt) (settleLine (a / 128) s)
  let s := flushLine (a / 128) s
  let s := failedAnswer a (eccLine (a / 128) [] (tierPass (unitReq s req 2 a (atomicSize fmt) 0 none) s))
  adderDo fmt a x s

/-! ## Array accesses of engines performed within one step (R313, R325, R443) -/

/-- An L1's least recently used line of a set replaced: written back if dirty, its holder bit cleared. -/
def l1MakeRoom (e line : Nat) (s : State) : State :=
  let x := s.l1 e
  let inSet := x.lines.filter (fun p => l1Set p.1 == l1Set line)
  if inSet.length < 8 then s
  else
    match inSet.foldl (fun b p => match b with
      | none => some p
      | some q => if p.2.age < q.2.age then some p else some q) (none : Option (Nat × L1Line)) with
    | some v =>
      let s := clearHolder e v.1 (l1Remove e v.1 s)
      if v.2.st = .m then takeDirty v.1 v.2.data v.2.poison s else s
    | none => s

/-- A line brought into an L1: after what came before at the line, the other holders snooped, the line allocated in the cache with
KEEP on a miss (R425, R429). Under the row-logic guard its data is a free value (R267). -/
def l1Bring (e line : Nat) (write : Bool) (s : State) : State :=
  let s := l1Check e line s
  match l1Line s e line with
  | some x =>
    if write ∧ x.st = .s then
      let s := snoopLine false false line (guardCount (line * 128) 128 (settleLine line s))
      match cached s line with
      | some l => l1Put e line { x with st := .e } (s.setLine line { l with holders := 2 ^ e, owned := true })
      | none => s
    else s
  | none =>
    let s := l1MakeRoom e line (guardCount (line * 128) 128 (settleLine line s))
    let s := match cached s line with
      | some l =>
        let s := hitLine line 1 l (s.bump memCacheHitsCount 1)
        if write then snoopLine false false line s else if l.owned then snoopLine true false line s else s
      | none =>
        let s := eccLine line [] (failedAnswer (line * 128) (tierPass (unitReq s e 3 (line * 128) 128 1 none) s))
        (allocLine line ⟨tierLine s line, tierPoisonMask s line, false, true, 0, 0, 0, false⟩ s).bump memCacheMissesCount 1
    match cached s line with
    | none => s
    | some l =>
      let excl := write || l.holders == 0
      let s := s.setLine line { l with holders := Nat.lor l.holders (2 ^ e), owned := excl }
      let (data, s) := guarded (guardKind s (line * 128) 128) l.data s
      l1Put e line ⟨if excl then .e else .s, data, l.poison, 0⟩ s

/-- A read of an array element by an engine: bytes, POISON, refused. An element lies in one line. -/
def l1Read (e a n : Nat) (s : State) : List Byte × Bool × Bool × State :=
  if refusal s a ≠ 0 then (List.replicate n 0xFF, false, true, mapErr e a s)
  else
    let s := l1Bring e (a / 128) false s
    match l1Line s e (a / 128) with
    | some x => (slice x.data (a % 128) n, x.poison != 0, false, l1Put e (a / 128) x s)
    | none => (slice (nodeBytes s a n) 0 n, nodePoison s a, false, s)

/-- A write of an array element by an engine; whether it was refused. -/
def l1Write (e a : Nat) (bs : List Byte) (poison : Bool) (s : State) : Bool × State :=
  if refusal s a ≠ 0 then (true, mapErr e a s)
  else
    let s := l1Bring e (a / 128) true s
    match l1Line s e (a / 128) with
    | some x =>
      let q := 2 ^ (a % 128 / 32)
      let po := if poison then Nat.lor x.poison q else x.poison
      (false, l1Put e (a / 128) { x with st := .m, data := patch x.data bs (a % 128), poison := po } s)
    | none => (false, s)

end Sys2Proof.Machine
end

