-- ==== Sys2Proof/Machine/Memory.lean ====
section
/-! DEFINITION. Memory tiers, partitions and the memory-side cache: the commands of chapter 05 (R173 to R210). -/

namespace Sys2Proof.Machine

/-! ## Accesses -/

/-- A refused access: a read answers 0xFF, a write is dropped; a local one is recorded in MEM_MAP_ERR (R175). -/
def refuseAccess (r : MReq) (s : State) : State :=
  let s := if r.req = 584 then s else mapErr r.req r.addr s
  s.emit (.memData r.req (if r.kind = 0 then List.replicate r.len 0xFF else []) false 1)

/-- MEMORY_ACCESS: an access of a requester of R424 reaches its slice and is served as a hit, a miss, a narrow access
or a refusal under its hint (R175, R193). An access lies in one line; a longer one is cut to it. Only a stream context gives a
deadline of its own (R189). -/
def execMemoryAccess (req : Fin 585) (write : Bool) (addr : BitVec 48) (data : List Byte) (len : Nat) (hint : Fin 3)
    (uses : BitVec 8) (deadline : Option (BitVec 32)) (s : State) : Host.Outcome State Fault Refusal :=
  let a := addr.toNat
  let n := min (if write then data.length else len) (128 - a % 128)
  let uses := if 583 ≤ req.val then 1 else uses.toNat
  let d := if 64 ≤ req.val ∧ req.val < 576 then deadline.map BitVec.toNat else none
  let r : MReq := ⟨req, b2n write, a, n, data.take n, hint, uses, d, cycleNow s, 0, false, 0⟩
  done (pumpLine (a / 128) (if n = 0 then s else if refusal s a ≠ 0 then refuseAccess r s else arrive r s))

/-- The status that a local atomic earns before it is performed, 0 when it may be: FORMAT for a reserved format or a C80 operand
that is not sign-extended, UNMAPPED where refused, ALIGN for an address off its size (R110, R175, R199, R201). -/
def atomicStatus (s : State) (fmt a operand : Nat) : Nat :=
  if 6 ≤ fmt ∨ !atomicOk fmt operand then 6
  else if refusal s a ≠ 0 then 1
  else if a % atomicSize fmt ≠ 0 then 3 else 0

/-- ATOMIC_REQUEST: the slice orders an atomic, invalidates and writes back the line, and sends it to the adder of the
channel (R198). One that R175, R199 or R201 rejects performs nothing and is answered with its status. -/
def execAtomicRequest (req : Fin 585) (addr : BitVec 48) (fmt : Fin 8) (fetch : Bool) (operand : BitVec 128) (s : State) :
    Host.Outcome State Fault Refusal :=
  let n := atomicSize fmt
  let a := addr.toNat
  let r : MReq := ⟨req, 2, a, n, leBytes 16 operand.toNat, 0, 0, none, cycleNow s, fmt, fetch, 0⟩
  let st := atomicStatus s fmt a operand.toNat
  done (pumpLine (a / 128) (if st = 1 then refuseAccess r s
    else if st ≠ 0 then s.emit (.memData req [] false st)
    else arrive r (guardCount a n s)))

/-! ## Grants (R188, R189) -/

/-- MISS_GRANT: the miss scheduler of a partition grants one queued request under FIXED_SPLIT or DEADLINE. -/
def execMissGrant (part : Fin 16) (s : State) : Host.Outcome State Fault Refusal := done (missGrant part.val s)

/-- Whether an operation ends when it issues: a write of whole lines or of a whole narrow block that bypasses the
cache. -/
def endsAtIssue (r : MReq) : Bool :=
  r.kind == 1 && r.hint == 0 && (r.len == 128 || (decide (r.len = granule r.addr) && decide (r.addr % granule r.addr = 0)))

/-- REGULATOR_ISSUE: the first granted transfer whose channel serves issues once the bucket level suffices, and the
bucket is charged (R185, R186). One that ends with its issue waits for its partition's turn at the channel (R190). -/
def execRegulatorIssue (part : Fin 16) (s : State) : Host.Outcome State Fault Refusal :=
  let p := part.val
  match nextGranted s p with
  | none => done s
  | some r =>
    let s := stallCount p s
    if !levelOk s p r ∨ (endsAtIssue r ∧ !onTurn s r.addr [p]) then done s
    else
      let s := issue p r s
      let line := r.addr / 128
      if endsAtIssue r then
        let (bs, po, s) := lineAccess r.req true r.addr r.len r.data r.hint r.uses (failedAnswer r.addr (takeTurn r.addr s))
        done (release line (answer r bs po s))
      else done { s with mem := { s.mem with flying := s.mem.flying ++ [line] } }

/-- LINE_FILL_DONE: the channel's data of a line arrives, on its partition's turn, and is decoded; the access that asked for it is
performed, and accesses held behind the fill are served (R190, R205, R213, R214). -/
def execLineFillDone (line : BitVec 41) (ecc : List (Nat × Ecc)) (s : State) : Host.Outcome State Fault Refusal :=
  let l := line.toNat
  match Tab.get [] s.mem.busy l with
  | [] => done s
  | r :: _ =>
    if !s.mem.flying.contains l || r.kind == 2 || !onTurn s (l * 128) [] then done s else done (completeBusy l ecc s)

/-- ADDER_COMPLETE: the channel adder, on its partition's turn, performs the atomic; poisoned data is not changed and POISON is
returned. Held later accesses to the line are released (R190, R198 to R201). -/
def execAdderComplete (line : BitVec 41) (ecc : List (Nat × Ecc)) (s : State) : Host.Outcome State Fault Refusal :=
  let l := line.toNat
  match Tab.get [] s.mem.busy l with
  | [] => done s
  | r :: _ =>
    if !s.mem.flying.contains l || r.kind != 2 || !onTurn s (l * 128) [] then done s else done (completeBusy l ecc s)

/-! ## Partitions (R176 to R180, R185, R206) -/

/-- A refused partition write (R177, R178): REFUSED, the cause and the event. -/
def partRefuse (p cause : Nat) (s : State) : State :=
  raise memEvtPartRefused ((s.set (memPartCfgCause p) cause).set (memPartCfgRefused p) 1)

/-- The bucket refilled to its cap. -/
def refill (p : Nat) (s : State) : State := setBucket p (bucketCap s p) s

/-- The bucket as a change of RATE, BURST or REG_EN meets it: waits counted and level settled under the old values. -/
def settleBucket (p : Nat) (s : State) : State := let s := stallCount p s; setBucket p (bucketLevel s p (cycleNow s)) s

/-- Whether READ_PCT + WRITE_PCT + REMOTE_PCT is 100. -/
def splitOk (s : State) (p : Nat) : Bool :=
  s.get (memPartSplitReadPct p) + s.get (memPartSplitWritePct p) + s.get (memPartSplitRemotePct p) == 100

/-- The cause of R177 that refuses an enable, 0 for none, in the order of the list. -/
def enableCause (s : State) (p arb : Nat) : Nat :=
  let t := s.get (memPartCfgTier p)
  let k := s.get (memPartRangeFirst p)
  let n := s.get (memPartRangeFrames p)
  if n = 0 then 5
  else if (if t = 0 then 192 else 512) < k + n then 3
  else if (List.range 16).any (fun q => q != p &&
      (s.flag (memPartCfgEnable q) || s.flag (memPartCfgDraining q)) && s.get (memPartCfgTier q) == t &&
      meets k n (s.get (memPartRangeFirst q)) (s.get (memPartRangeFrames q))) then 2
  else if arb = 0 ∧ !splitOk s p then 4
  else 0

/-- The contents of a frame become undefined: an unlisted byte of it reads a free value (R180, assumption 4). -/
def freshFrame (f : Nat) (s : State) : State :=
  let e := s.mem.epochs + 1
  { s with mem := { s.mem with
    epochs := e
    epoch := Tab.set 0 s.mem.epoch f e
    cells := s.mem.cells.filter (fun c => decide (frameKey c.1 ≠ f)) } }

/-- The frames of a partition laid out as it is now: contents of frames whose last layout differed become undefined
(R180, assumption 4). -/
def layOut (p : Nat) (s : State) : State :=
  let t := s.get (memPartCfgTier p)
  let k := s.get (memPartRangeFirst p)
  let n := s.get (memPartRangeFrames p)
  let lay := (k * 1024 + n) * 2 + s.get (memPartCfgMode p) + 1
  (List.range n).foldl (fun s i =>
    let f := t * 1024 + k + i
    let old := Tab.get 0 s.mem.layout f
    let s : State := { s with mem := { s.mem with layout := Tab.set 0 s.mem.layout f lay } }
    if old = 0 ∨ old = lay then s else freshFrame f s) s

/-- A destructive generator that runs on the band of a partition about to be enabled is stopped with ABORTED set, and the contents
of the partition are undefined (R242). -/
def stopGenerators (p : Nat) (s : State) : State :=
  let t := s.get (memPartCfgTier p)
  let k := s.get (memPartRangeFirst p)
  let n := s.get (memPartRangeFrames p)
  let cs := (List.range 288).filter (fun c =>
    decide ((if c < 256 then 0 else 1) = t) && s.flag (tgCtl c).1 && s.get (chanFld c hbmTgCtlMode dtcTgCtlMode) != 0 &&
      meets k n (s.get (chanFld c hbmTgRangeFirst dtcTgRangeFirst)) (s.get (chanFld c hbmTgRangeFrames dtcTgRangeFrames)))
  if cs = [] then s else (List.range n).foldl (fun t' i => freshFrame (t * 1024 + k + i) t') (State.each cs tgAbort s)

/-- The partition enabled: ENABLED bit, bucket, credits, layout. -/
def enablePart (p : Nat) (s : State) : State :=
  let s := layOut p ((stopGenerators p s).set (memPartCfgEnable p) 1)
  let s := s.set memStatusEnabled (Nat.lor (s.get memStatusEnabled) (2 ^ p))
  setCredit p (pctOf s p) (refill p s)

/-- The ARB and REG_EN bits of a CFG write (R178, R185). -/
def writeArb (p v : Nat) (s : State) : State :=
  let s := if bits v 3 1 = 0 ∧ s.flag (memPartCfgArb p) ∧ !splitOk s p then partRefuse p 4 s
    else s.set (memPartCfgArb p) (bits v 3 1)
  let was := s.flag (memPartCfgRegEn p)
  let s := stallCount p s
  let s := s.set (memPartCfgRegEn p) (bits v 4 1)
  if bitOf v 4 ∧ !was then refill p s else s

/-- The TIER and MODE bits of a CFG write: taken while the partition is neither enabled nor draining, else refused when
they would change it (R178). -/
def writeTierMode (p v : Nat) (s : State) : State :=
  if s.flag (memPartCfgEnable p) ∨ s.flag (memPartCfgDraining p) then
    (if s.get (memPartCfgTier p) = bits v 1 1 ∧ s.get (memPartCfgMode p) = bits v 2 1 then s else partRefuse p 1 s)
  else (s.set (memPartCfgTier p) (bits v 1 1)).set (memPartCfgMode p) (bits v 2 1)

/-- The W1C bit REFUSED of a CFG write. -/
def clearRefused (p v : Nat) (s : State) : State := if bitOf v 6 then s.set (memPartCfgRefused p) 0 else s

/-- PARTITION_ENABLE: a write of MEM_PART[p]_CFG with ENABLE 1 enables the partition, or sets REFUSED with a cause. -/
def execPartitionEnable (part : Fin 16) (cfg : BitVec 32) (s : State) : Host.Outcome State Fault Refusal :=
  let p := part.val
  let v := cfg.toNat
  let s := clearRefused p v s
  if s.flag (memPartCfgEnable p) then done (writeArb p v (writeTierMode p v s))
  else if s.flag (memPartCfgDraining p) then done (partRefuse p 1 (writeArb p v s))
  else
    let s := writeTierMode p v s
    match enableCause s p (bits v 3 1) with
    | 0 => done (enablePart p (writeArb p v s))
    | c => done (partRefuse p c (writeArb p v s))

/-- PARTITION_DISABLE: a write of MEM_PART[p]_CFG with ENABLE 0; an enabled partition starts to drain (R179). -/
def execPartitionDisable (part : Fin 16) (cfg : BitVec 32) (s : State) : Host.Outcome State Fault Refusal :=
  let p := part.val
  let v := cfg.toNat
  let s := writeArb p v (writeTierMode p v (clearRefused p v s))
  if s.flag (memPartCfgEnable p) then
    let s := (s.set (memPartCfgEnable p) 0).set (memPartCfgDraining p) 1
    done ((s.set memStatusEnabled (clearBits (s.get memStatusEnabled) (2 ^ p))).set memStatusFlushing 1)
  else done s

/-- Whether an address lies in the frames of partition `p`. -/
def inPart (s : State) (p a : Nat) : Bool :=
  match tierOf a with
  | some (t, o) => partCovers s t (o / 2 ^ 30) p
  | none => false

/-- Whether a batch that runs names rows of partition `p` (R269). -/
def rlgUses (s : State) (p : Nat) : Bool :=
  s.get (memPartCfgTier p) == 0 && s.rlg.batches.any (fun b =>
    match b.2 with
    | some b => b.cmds.any (fun c => (namedRows c).any (fun r => partCovers s 0 (r / 256) p))
    | none => false)

/-- Whether an accepted access of a draining partition is not yet complete: at the tier, in a transaction, or queued (R179). -/
def partBusy (s : State) (p : Nat) : Bool :=
  s.mem.busy.any (fun b => inPart s p (b.1 * 128)) || s.coh.txns.any (fun t => inPart s p (t.line * 128)) ||
    s.coh.queue.any (fun q => q.2.any (fun r => inPart s p r.addr)) || s.coh.waiting.any (fun q => q.2.any (fun r => inPart s p r.addr))

/-- FLUSH_DONE: with every accepted request of the draining partition complete, its cached lines are written back and
invalidated, DRAINING clears and FLUSH_DONE is set (R179, R269). -/
def execFlushDone (part : Fin 16) (s : State) : Host.Outcome State Fault Refusal :=
  let p := part.val
  if !s.flag (memPartCfgDraining p) || partBusy s p || rlgUses s p then done s
  else
    let lines := (Tab.keys s.mem.lines).filter (fun l => inPart s p (l * 128))
    let s := (State.each lines evictLine s).set (memPartCfgDraining p) 0
    let s := if (List.range 16).any (fun q => s.flag (memPartCfgDraining q)) then s else s.set memStatusFlushing 0
    done (raise memEvtFlushDone s)

/-- REGULATOR_WRITE: a write to RATE or BURST applies at the next grant and refills the bucket to its cap (R185,
R206). A BURST of 0 is stored as 1. -/
def execRegulatorWrite (part : Fin 16) (burst : Bool) (value : BitVec 32) (s : State) : Host.Outcome State Fault Refusal :=
  let p := part.val
  let v := value.toNat
  let s := settleBucket p s
  done (refill p (if burst then s.set (memPartBurstKib p) (max (bits v 0 16) 1) else s.set (memPartRateRate p) v))

/-- A write to MEM_PART[p]_RANGE: ignored with CAUSE ENABLED while the partition is enabled or draining (R178). -/
def writeRange (p v : Nat) (s : State) : State :=
  if s.flag (memPartCfgEnable p) ∨ s.flag (memPartCfgDraining p) then partRefuse p 1 s
  else (s.set (memPartRangeFirst p) (bits v 0 10)).set (memPartRangeFrames p) (bits v 16 10)

/-- A write to MEM_PART[p]_SPLIT: ignored with CAUSE SPLIT when it breaks the sum under FIXED_SPLIT; the credits start
anew (R178, R188). -/
def writeSplit (p v : Nat) (s : State) : State :=
  if s.get (memPartCfgArb p) = 0 ∧ bits v 0 8 + bits v 8 8 + bits v 16 8 ≠ 100 then partRefuse p 4 s
  else
    let s := ((s.set (memPartSplitReadPct p) (bits v 0 8)).set (memPartSplitWritePct p) (bits v 8 8)).set
      (memPartSplitRemotePct p) (bits v 16 8)
    setCredit p (pctOf s p) s

/-- What a core cycle adds to the waits of granted requests for bucket level (R185). -/
def regulatorCycle (s : State) : State :=
  State.each (List.range 16) (fun p t => if t.flag (memPartCfgRegEn p) then stallCount p t else t) s

end Sys2Proof.Machine
end

