-- ==== Sys2Proof/Machine/Cycle.lean ====
section
/-! DEFINITION. What happens at a core cycle in which no command waits (DESIGN CHOICE, assumption 1): time advances by one cycle,
the regulators refill, and the counters that count cycles count. -/

namespace Sys2Proof.Machine

/-- Whether some pending queue of the slices is full (R429). -/
def someQueueFull (s : State) : Bool := s.coh.queue.any (fun q => decide (64 ≤ q.2.length))

/-- One core cycle of 625 ps: the regulators (R185), the cycles with a full pending queue (R429), the cycles at a throttle
level above 0 (R510). -/
def coreCycle (s : State) : State :=
  let s := regulatorCycle { s with now := s.now + 625 }
  let s := s.on (someQueueFull s) (fun t => t.bump cohQueueFull 1)
  s.on (s.get fumStatusLevel != 0) (fun t => t.bump fumCapCycCount 1)

end Sys2Proof.Machine
end

