-- ==== Sys2Proof/Machine/Wire.lean ====
section
/-! DEFINITION. Flits, packets and control messages of an Elvuno port: what the sender does (R71 to R80), the claims a
port writes (R563), and how a port leaves and enters service. -/

namespace Sys2Proof.Machine

/-! ## Ports -/

/-- A port with no history. -/
def portEmpty : Port :=
  ⟨false, [], none, false, 0, 0, 0, 0, 0, 0, 0, 0, 0, false, 0, 0, 0, 0, [], [], [], [], false, false, false, false, 0, false, 0, 0,
   0, 0, false, false, [], [], [], [], [], false, []⟩

def State.port (s : State) (p : Nat) : Port := Tab.get portEmpty s.ports p

/-- A port's own state changed. -/
def State.onPort (p : Nat) (f : Port → Port) (s : State) : State :=
  { s with ports := Tab.set portEmpty s.ports p (f (s.port p)) }

/-- Whether a port carries DATA flits. -/
def portUp (s : State) (p : Nat) : Bool := s.get (elvStatState p) == 7

/-- Whether a port carries CTRL flits: in LP it does (R81), so for beacons, hold messages and the acquisition port of R26 a
port in LP counts as UP (DESIGN CHOICE, assumption 67). -/
def portLive (s : State) (p : Nat) : Bool := portUp s p || s.get (elvStatState p) == 9

/-- Whether a port's rank lets it carry tick-control traffic (R62). -/
def bcnEligible (s : State) (p : Nat) : Bool := !s.flag (elvStatBcnIneligible p)

/-! ## Sending flits (R71, R74, R75) -/

/-- The header fields of acknowledgement of a flit that leaves now; `nak`: it is the NAK of the DATA space or of the CTRL space
(R74). -/
def flitAcks (q : Port) (nak : Option Bool) : List Byte :=
  let d := (q.rxD + 4095) % 4096 + b2n q.seenD * 4096 + b2n (nak == some false) * 8192
  let c := (q.rxC + 4095) % 4096 + b2n q.seenC * 4096 + b2n (nak == some true) * 8192
  leBytes 2 d ++ leBytes 2 c

/-- The credit field of a flit: the lowest virtual channel with credits to return. -/
def flitCredit (q : Port) : Nat :=
  match q.crdOwed.head? with
  | some (vc, n) => vc + 4 + min n 8191 * 8
  | none => 0

/-- The 256 bytes of a flit: type (0 IDLE, 1 DATA, 2 CTRL), sequence number, REPLAYED, START, END and body. -/
def flitBytes (q : Port) (typ seq : Nat) (replayed : Bool) (nak : Option Bool) (mid : List Byte) (credit : Nat) : List Byte :=
  let b := leBytes 2 (seq % 4096 + typ * 4096 + b2n replayed * 32768) ++ flitAcks q nak ++ mid.take 4 ++ leBytes 2 credit ++
    slice (mid.drop 4) 0 240
  b ++ leBytes 4 (crc32c b)

/-- A flit that leaves now; it carries the acknowledgements and credits owed. -/
def emitFlit (p typ seq : Nat) (replayed : Bool) (nak : Option Bool) (mid : List Byte) (s : State) : State :=
  let q := s.port p
  let c := flitCredit q
  let s := s.emit (.flit p (flitBytes q typ seq replayed nak mid c))
  s.onPort p (fun q => { q with owed := 0, crdOwed := if c = 0 then q.crdOwed else q.crdOwed.drop 1 })

/-- Replay buffer sizes of the two spaces. -/
def bufMax (ctrl : Bool) : Nat := if ctrl then 32 else 512

/-- Sequence numbers of the buffered flits of a space, oldest first. -/
def Port.buf (q : Port) (ctrl : Bool) : List (List Byte) := if ctrl then q.bufC else q.bufD
def Port.wait (q : Port) (ctrl : Bool) : List (List Byte) := if ctrl then q.waitC else q.waitD
def Port.tx (q : Port) (ctrl : Bool) : Nat := if ctrl then q.txC else q.txD

/-- A flit sent for the first time: numbered, buffered and counted. -/
def sendNew (p : Nat) (ctrl : Bool) (mid : List Byte) (s : State) : State :=
  let seq := (s.port p).tx ctrl
  let s := emitFlit p (if ctrl then 2 else 1) seq false none mid s
  let s := s.onPort p (fun q =>
    if ctrl then { q with txC := (q.txC + 1) % 4096, bufC := q.bufC ++ [mid] }
    else { q with txD := (q.txD + 1) % 4096, bufD := q.bufD ++ [mid] })
  s.bump (elvFlitsTxCount p) 1

/-- Whether a CTRL flit holds a delay probe or reply: what a port sends while it measures, before it is UP (R67, R78). -/
def linkMid (mid : List Byte) : Bool := leAt mid 4 1 == 0x10 || leAt mid 4 1 == 0x11

/-- Whether a port in a state sends a sequenced flit: UP all, LP and measuring states CTRL flits, of the latter only the
messages of the measurement (R66, R67, R78, R81). -/
def sendable (st : Nat) (ctrl : Bool) (mid : List Byte) : Bool :=
  st == 7 || (st == 9 && ctrl) || ((st == 5 || st == 6 || st == 8) && ctrl && linkMid mid)

/-- Waiting flits of a space sent as far as the buffer has room and the state allows. -/
def drainWait (p : Nat) (ctrl : Bool) (s : State) : State :=
  let q := s.port p
  let go := ((q.wait ctrl).take (bufMax ctrl - (q.buf ctrl).length)).takeWhile (sendable (s.get (elvStatState p)) ctrl)
  let s := s.onPort p (fun q =>
    if ctrl then { q with waitC := q.waitC.drop go.length } else { q with waitD := q.waitD.drop go.length })
  State.each go (sendNew p ctrl) s

/-- A sequenced flit offered to a port: it waits behind those of its space, messages of a measurement ahead of the rest, and is
sent once the space has buffer room; a FENCED port drops DATA flits and counts them (R75, R80). -/
def offerFlit (p : Nat) (ctrl : Bool) (mid : List Byte) (s : State) : State :=
  let st := s.get (elvStatState p)
  let link := ctrl && linkMid mid
  if st ≠ 7 ∧ st ≠ 8 ∧ st ≠ 9 ∧ ¬ sendable st ctrl mid then s
  else if !ctrl ∧ s.flag (elvStatFenced p) then s.bump (elvDropFenced p) 1
  else
    drainWait p ctrl (s.onPort p (fun q =>
      if link then { q with waitC := q.waitC.takeWhile linkMid ++ [mid] ++ q.waitC.dropWhile linkMid }
      else if ctrl then { q with waitC := q.waitC ++ [mid] } else { q with waitD := q.waitD ++ [mid] }))

/-- A control message: kind in body byte 0, content from body byte 16, alone in one CTRL flit (R73). START and END speak of
packets only; bit 0 of both is set, as for a packet in unit 0 (R71; DESIGN CHOICE, assumption 13). -/
def ctrlMid (kind : Nat) (content : List Byte) : List Byte :=
  leBytes 2 1 ++ leBytes 2 1 ++ leBytes 16 kind ++ slice content 0 224

def sendCtrl (p kind : Nat) (content : List Byte) (s : State) : State := offerFlit p true (ctrlMid kind content) s

/-- Units of 16 bytes of a packet. -/
def unitsOf (pkt : List Byte) : Nat := (pkt.length + 15) / 16

/-- The flits of a packet: 15 units each, the packet starting in unit 0 of a flit of its own (DESIGN CHOICE, assumption
13). -/
def packetMids (pkt : List Byte) : List (List Byte) :=
  let u := unitsOf pkt
  (List.range ((u + 14) / 15)).map (fun i =>
    let last := decide (u ≤ 15 * (i + 1))
    leBytes 2 (b2n (decide (i = 0))) ++ leBytes 2 (if last then 2 ^ (u - 15 * i - 1) else 0) ++ slice pkt (240 * i) 240)

/-- The virtual channel of a packet (R107, R151). -/
def pktVc (p : List Byte) : Nat := bits (leAt p 0 2) 12 2

/-- Credits of a virtual channel that are left: those the port came UP with and those returned, less those spent (R72). -/
def creditsLeft (q : Port) (vc : Nat) : Nat := Config.vcCredits vc + Tab.get 0 q.credits vc - Tab.get 0 q.spent vc

/-- Packets of a virtual channel that wait are sent in order while there are credits for them (R72). -/
def drainVc (p vc : Nat) (s : State) : State :=
  (((s.port p).held.filter (fun k => pktVc k == vc)).foldl (fun (x : Bool × State) k =>
    let q := x.2.port p
    if x.1 || decide (creditsLeft q vc < unitsOf k) then (true, x.2)
    else (false, State.each (packetMids k) (offerFlit p false) (x.2.onPort p (fun q => { q with
      held := q.held.erase k, spent := Tab.set 0 q.spent vc (Tab.get 0 q.spent vc + unitsOf k) })))) (false, s)).2

/-- The same for the three channels with credits. -/
def drainHeld (p : Nat) (s : State) : State := State.each [1, 2, 3] (drainVc p) s

/-- A packet sent on a port: VC 0 at once, VC 1 to 3 when there are credits (R72). -/
def sendPacket (p : Nat) (pkt : List Byte) (s : State) : State :=
  let st := s.get (elvStatState p)
  if pktVc pkt = 0 ∨ s.flag (elvStatFenced p) then State.each (packetMids pkt) (offerFlit p false) s
  else if st ≠ 7 ∧ st ≠ 8 ∧ st ≠ 9 then s
  else drainHeld p (s.onPort p (fun q => { q with held := q.held ++ [pkt] }))

/-- An IDLE flit: acknowledgements and credits, and the NAK of a space when it is one. -/
def sendIdle (p : Nat) (nak : Option Bool) (s : State) : State := emitFlit p 0 0 false nak (List.replicate 244 0) s

/-- Delay probes, each with the transmit time (R67). -/
def sendProbes (p n : Nat) (s : State) : State :=
  State.each (List.range n) (fun _ t => sendCtrl p 0x10 (leBytes 8 t.now) t) s

/-- A tick-control message: only on a port whose rank carries such traffic (R62). -/
def sendTick (p kind : Nat) (content : List Byte) (s : State) : State :=
  if bcnEligible s p then sendCtrl p kind content s else s

/-- The same tick-control message on every port of a mask. -/
def sendCtrlMask (mask kind : Nat) (content : List Byte) (s : State) : State :=
  State.each ((List.range 16).filter (fun p => bitOf mask p)) (fun p => sendTick p kind content) s

/-! ## Claims (R563) -/

/-- A retraining event on a port: 1 EXHAUST, 2 LOS, 3 DRIVER. -/
def claimRetraining (p cause : Nat) (s : State) : State :=
  let st := s.get (telClaimState p)
  if st = 0 then
    ((((s.set (telClaimState p) 1).set (telClaimCause p) cause).set (telClaimId p) (s.get (telClaimId p) + 1)).set
      (telClaimTick p) (s.get tickCountCount)).set (telClaimRepeats p) 0
  else if st = 1 then s.bump (telClaimRepeats p) 1
  else ((s.set (telClaimState p) 1).set (telClaimCause p) cause).bump (telClaimRepeats p) 1

/-! ## Leaving service (R78, R79, R84) -/

/-- The buffers and counters of a port that starts anew; its failure history stays. Both sequence spaces start at 0 again
(R74 names no start; DESIGN CHOICE, assumption 69). -/
def portFresh (q : Port) : Port :=
  { q with txD := 0, txC := 0, rxD := 0, rxC := 0, bufD := [], bufC := [], waitD := [], waitC := [], seenD := false, seenC := false,
           nakD := false, nakC := false, owed := 0, epOpen := false, epReplays := 0, epOutD := 0, epOutC := 0,
           lpOwed := false, lpWanted := false, credits := [], spent := [], crdOwed := [], held := [], asm := [], asmOpen := false, delivered := [],
           pages := [], firstValid := none, partnerAck := false, partnerProp := 0, partnerFail := 0, partnerRates := 0,
           probes := 0, rttCount := 0, rttSum := 0, lanes := 0, signal := false }

/-- The reference switched to a source (0 INTERNAL, 1 UPSTREAM, 2 ALTERNATE, 3 HOLDOVER) and port; the PLL relocks (R466,
R467). -/
def clockTo (src p : Nat) (s : State) : State :=
  if s.get idClkStatSource = src ∧ (src = 0 ∨ src = 3 ∨ s.get idClkStatPort = p) then s
  else
    let s := ((s.set idClkStatSource src).set idClkStatPort p).set idClkStatLocked 0
    raise idModuleEvtClkSwitch (s.bump idClkStatSwitches 1)

/-- The reference held when the port it is recovered from leaves UP (R467). -/
def clockLost (p : Nat) (s : State) : State :=
  if (s.get idClkStatSource = 1 ∨ s.get idClkStatSource = 2) ∧ s.get idClkStatPort = p then clockTo 3 p s else s

/-- The acquisition port leaving UP sends the node back to ACQUIRING (R26). -/
def acquireLost (p : Nat) (s : State) : State :=
  let s := clockLost p s
  if s.tick.acqPort = some p ∧ ¬ s.flag fabStatusRoutes then
    { s.set tickStatusLock 1 with tick := { s.tick with acqPort := none, inPhase := 0, outPhase := 0 } }
  else s

/-- A port goes DOWN with a cause (R84): marks cleared, the event set, a LINK record written. -/
def portDown (p cause : Nat) (s : State) : State :=
  let s := acquireLost p s
  let s := (((s.set (elvStatState p) 10).set (elvStatRank p) 0).set (elvStatCause p) cause).set (elvStatAttempt p) 0
  let s := ((s.set (elvLaneFail p) 0).set (elvLaneFailRates p) 0).set (elvStatBcnIneligible p) 0
  let s := s.onPort p (fun q => { portFresh q with downs := q.downs + 1 })
  fault .link 4 p cause 0 (some p) (raise (elvEvtDown p) s)

/-- Entry to RETRAIN: the delay is measured again with 8 probes (R78). -/
def enterRetrain (p : Nat) (s : State) : State :=
  let s := acquireLost p s
  let s := (s.set (elvStatState p) 8).bump (elvReplayRetrains p) 1
  sendProbes p 8 (s.onPort p (fun q => { q with epOpen := false, epReplays := 0, probes := 0, rttCount := 0, rttSum := 0 }))

/-- A fault that a port answers with retraining; during a retraining it only adds to the claim (R79, R88). -/
def claimAndRetrain (p cause code : Nat) (s : State) : State :=
  if s.get (elvStatState p) = 8 then claimRetraining p cause s
  else
    let s := enterRetrain p (claimRetraining p cause s)
    if code = 0 then s else fault .link code p 0 1 (some p) s

/-- The replay budget is exhausted (R76). -/
def exhaust (p : Nat) (s : State) : State :=
  claimAndRetrain p 1 1 (raise (elvEvtExhaust p) (s.bump (elvReplayExhausts p) 1))

/-- Every unacknowledged flit of a space sent again with REPLAYED set. -/
def resend (p : Nat) (ctrl : Bool) (s : State) : State :=
  let q := s.port p
  let b := q.buf ctrl
  let first := (q.tx ctrl + 4096 - b.length) % 4096
  State.each b.zipIdx (fun x => emitFlit p (if ctrl then 2 else 1) (first + x.2) true none x.1) s

end Sys2Proof.Machine
end

