-- ==== Sys2Proof/Machine/FabCore.lean ====
section
/-! DEFINITION. Packets of virtual channels 1 to 3 and their routes (R94 to R109), the checks of a route table (R101) and
the messages by which a node joins (R116 to R121). -/

namespace Sys2Proof.Machine

/-! ## Packet headers (R107) -/

def pktDst (p : List Byte) : Nat := bits (leAt p 0 2) 0 12
def pktSrc (p : List Byte) : Nat := bits (leAt p 2 2) 0 12
def pktHint (p : List Byte) : Nat := bits (leAt p 2 2) 12 2
def pktOp (p : List Byte) : Nat := leAt p 4 1
def pktLen (p : List Byte) : Nat := bits (leAt p 5 1) 0 5
def pktFmt (p : List Byte) : Nat := bits (leAt p 5 1) 5 3
def pktTag (p : List Byte) : Nat := leAt p 6 2
def pktAddr (p : List Byte) : Nat := leAt p 8 8
def pktStatus (p : List Byte) : Nat := leAt p 8 1
def pktData (p : List Byte) : List Byte := p.drop 16

/-- A packet: header and payload. -/
def mkPkt (dst vc src hint op len fmt tag addr : Nat) (payload : List Byte) : List Byte :=
  leBytes 2 (dst + vc * 4096) ++ leBytes 2 (src + hint * 4096) ++ leBytes 1 op ++ leBytes 1 (len + fmt * 32) ++
    leBytes 2 tag ++ leBytes 8 addr ++ payload

/-- The packet with another destination or source. -/
def withDst (d : Nat) (p : List Byte) : List Byte := leBytes 2 (leAt p 0 2 / 4096 * 4096 + d) ++ p.drop 2

/-- Whether an operation is a request (VC 1). -/
def isRequest (op : Nat) : Bool := decide (1 ≤ op) && decide (op ≤ 4)

/-- Whether a packet is a request: by its operation, or by its channel where the operation is reserved (R108). -/
def requestPkt (p : List Byte) : Bool := isRequest (pktOp p) || pktVc p == 1

/-- Whether an operation is a response (VC 2). -/
def isResponse (op : Nat) : Bool := decide (0x81 ≤ op) && decide (op ≤ 0x83)

/-- Whether a packet has an operation of R108's table; any other packet is dropped unless it is a request. -/
def opKnown (p : List Byte) : Bool :=
  isRequest (pktOp p) || isResponse (pktOp p) || (decide (0x40 ≤ pktOp p) && decide (pktOp p ≤ 0x49))

/-- The response operation of a request: a reserved one is answered as a write (R108). -/
def responseOp (op : Nat) : Nat := if op = 1 then 0x81 else if op = 3 ∨ op = 4 then 0x83 else 0x82

/-! ## Routes (R97 to R104) -/

/-- A little-endian number of a route bank. -/
def routeAt (s : State) (b o n : Nat) : Nat := leNat ((List.range n).map (fun i => Tab.get 0 s.fab.banks (b * 16384 + o + i)))

/-- The active route bank. -/
def routeBank (s : State) : Nat := s.get fabStatusActiveBank

/-- A beacon entry of a bank (R98), as one number. -/
def beaconEntry (s : State) (b k : Nat) : Nat := routeAt s b (64 + 8 * k) 8

def bcnUp (e : Nat) : Nat := bits e 0 4
def bcnAlt (e : Nat) : Nat := bits e 4 4
def bcnDepth (e : Nat) : Nat := bits e 8 5
def bcnValid (e : Nat) : Bool := bitOf e 13
def bcnAltValid (e : Nat) : Bool := bitOf e 14
def bcnAltDepth (e : Nat) : Nat := bits e 16 5
def bcnDown (e : Nat) : Nat := bits e 32 16

/-- The unicast entry of a destination in the active bank, 0 when none is active, and for the node's own ID (R100). -/
def unicast (s : State) (d : Nat) : Nat :=
  if s.flag fabStatusRoutes ∧ d ≠ ownId s then routeAt s (routeBank s) (128 + 2 * d) 2 else 0

/-- A port that DATA may be routed to. -/
def portOpen (s : State) (p : Nat) : Bool := portUp s p && !s.flag (elvStatFenced p)

/-- The port of steps 2 to 4 of R104. Of several UP, unfenced ports with the same partner the neighbour route takes the lowest:
the rule names none of them (DESIGN CHOICE, assumption 70). -/
def routePort (s : State) (d : Nat) : Option Nat :=
  let u := unicast s d
  if bitOf u 8 then
    (if portOpen s (bits u 0 4) then some (bits u 0 4)
     else if bitOf u 9 && portOpen s (bits u 4 4) then some (bits u 4 4) else none)
  else (List.range 16).find? (fun p => portOpen s p && s.get (elvPartnerNode p) == d)

/-- Whether the node takes part in the fabric: its ID is valid and it is not in P2 (R94, R124). -/
def fabricOn (s : State) : Bool := s.flag fabNodeIdValid && s.get fumStatusState != 3

/-- A packet of VC 1 to 3 delivered locally, sent on its way, or dropped and counted; `arr` is the port its request arrived on
(R104). -/
def sendVc (arr : Option Nat) (pkt : List Byte) (s : State) : State :=
  if !fabricOn s then s
  else if pktDst pkt = ownId s then { s with fab := { s.fab with inbox := s.fab.inbox ++ [pkt] } }
  else
    match routePort s (pktDst pkt) with
    | some p => sendPacket p pkt s
    | none =>
      match arr with
      | some a => if s.flag fabStatusRoutes then s.bump fabDropNoRoute 1 else sendPacket a pkt s
      | none => s.bump fabDropNoRoute 1

/-- A response of this node: status, data (R107, R109). -/
def respond (arr : Option Nat) (dst op tag status : Nat) (data : List Byte) (s : State) : State :=
  sendVc arr (mkPkt dst 2 (ownId s) 0 op ((data.length + 15) / 16) 0 tag status (slice data 0 ((data.length + 15) / 16 * 16))) s

/-- A management message of this node on VC 3. -/
def sendMgmt (dst op : Nat) (payload : List Byte) (s : State) : State :=
  sendVc none (mkPkt dst 3 (ownId s) 0 op ((payload.length + 15) / 16) 0 0 0 payload) s

/-- A delivered packet or control message taken off its port, its credits owed to the partner. -/
def consume (p : Nat) (pkt : List Byte) (s : State) : State :=
  if (s.port p).delivered.contains pkt then
    let vc := pktVc pkt
    s.onPort p (fun q => { q with
      delivered := q.delivered.erase pkt
      crdOwed := if vc = 0 then q.crdOwed else Tab.set 0 q.crdOwed vc (Tab.get 0 q.crdOwed vc + unitsOf pkt) })
  else s

/-- The same on whichever port holds it. -/
def consumeAny (pkt : List Byte) (s : State) : State :=
  match (List.range 16).find? (fun p => (s.port p).delivered.contains pkt) with
  | some p => consume p pkt s
  | none => { s with fab := { s.fab with inbox := s.fab.inbox.erase pkt } }

/-- The same on a named port, or else from the packets delivered locally. -/
def take (p : Nat) (pkt : List Byte) (s : State) : State :=
  if (s.port p).delivered.contains pkt then consume p pkt s else { s with fab := { s.fab with inbox := s.fab.inbox.erase pkt } }

/-- A control message taken off its port: the 240 bytes of a body whose kind and content agree. -/
def consumeCtrl (p kind : Nat) (msg : List Byte) (s : State) : State :=
  match (s.port p).delivered.find? (fun e => leAt e 0 1 == kind && slice e 16 msg.length == msg && e.length == 240) with
  | some e => s.onPort p (fun q => { q with delivered := q.delivered.erase e })
  | none => s

/-! ## Route tables (R101 to R103) -/

/-- The standby route bank. -/
def standbyRoute (s : State) : Nat := 1 - routeBank s

/-- The CRC of a route table: bytes 0 to 8,319 with the CRC field as 0. -/
def routeCrc (s : State) (b : Nat) : Nat :=
  crc32c ((List.range 8320).map (fun i => if 16 ≤ i ∧ i < 20 then 0 else Tab.get 0 s.fab.banks (b * 16384 + i)))

/-- Whether the ports a beacon entry names are allowed: UP and eligible, ALT and UP apart, neither in DOWN. -/
def beaconPortsOk (s : State) (own : Bool) (e : Nat) : Bool :=
  let ok (p : Nat) : Bool := portUp s p && !s.flag (elvStatBcnIneligible p)
  let downs := (List.range 16).filter (fun p => bitOf (bcnDown e) p)
  downs.all ok &&
    (own || (ok (bcnUp e) && !bitOf (bcnDown e) (bcnUp e) &&
      (!bcnAltValid e || (ok (bcnAlt e) && bcnUp e != bcnAlt e && !bitOf (bcnDown e) (bcnAlt e)))))

/-- The first reason of R101 that rejects the standby table, 0 for none. Once the node is committed to a switch it rejects every
load under ARMED, whatever the load's bytes are (R129). The entry for the own ID is ignored (R100). -/
def routeReason (s : State) (b : Nat) : Nat :=
  if s.flag tickSwitchCtlCommitted then 6
  else
  let own := s.get tickRankRank
  let es := (List.range 8).map (fun k => (k, beaconEntry s b k))
  if routeAt s b 0 4 ≠ 0x524F5554 ∨ routeAt s b 4 2 ≠ 1 ∨ routeAt s b 16 4 ≠ routeCrc s b then 1
  else if bits (routeAt s b 12 2) 0 12 ≠ ownId s then 2
  else if es.any (fun x => (bcnValid x.2 && (decide (16 < bcnDepth x.2) || (bcnAltValid x.2 && decide (16 < bcnAltDepth x.2)))) ||
      (x.1 == own && bcnDepth x.2 != 0)) then 3
  else if es.any (fun x => bcnValid x.2 && !beaconPortsOk s (x.1 == own) x.2) then 4
  else if routeAt s b 6 2 ≠ 0 ∨ bits (routeAt s b 12 2) 12 4 ≠ 0 ∨ routeAt s b 14 2 ≠ 0 ∨ routeAt s b 20 44 ≠ 0 ∨
      es.any (fun x => bitOf x.2 15 || bits x.2 21 11 != 0 || bits x.2 48 16 != 0) ∨
      (List.range 4096).any (fun d => d != ownId s && decide (1024 ≤ routeAt s b (128 + 2 * d) 2)) then 5
  else 0

/-- Unicast entries of a table, but the ignored one, that name a port which is not UP (R100, R102). -/
def routeDead (s : State) (b : Nat) : Nat :=
  ((List.range 4096).filter (fun d =>
    let u := routeAt s b (128 + 2 * d) 2
    d != ownId s && bitOf u 8 && (!portUp s (bits u 0 4) || (bitOf u 9 && !portUp s (bits u 4 4))))).length

/-- Whether a route bank holds an accepted table. -/
def routeOk (s : State) (b : Nat) : Bool := Tab.get false s.fab.ok b

/-- The fabric state changed. -/
def State.onFab (f : FabState → FabState) (s : State) : State := { s with fab := f s.fab }

/-- The check of the standby route table (R101). A table bound to a committed switch stays accepted whatever the check of a
load over it reports (R129). -/
def routeCheck (s : State) : State :=
  let b := standbyRoute s
  let r := routeReason s b
  let s := (s.set fabRouteStatusReason r).set fabRouteStatusDead (if r = 0 then routeDead s b else 0)
  let s := if s.flag tickSwitchCtlCommitted then s else s.onFab (fun f => { f with ok := Tab.set false f.ok b (decide (r = 0)) })
  if r = 0 then s.set (fabRouteIdId b) (routeAt s b 8 4) else s

/-- Bytes written to a route bank window: the standby bank is no longer an accepted table, but for one bound to a committed
switch, over which a load is rejected (R129). -/
def routeWrite (b o : Nat) (bs : List Byte) (s : State) : State :=
  if b = standbyRoute s ∧ s.flag tickSwitchCtlCommitted then s
  else s.onFab (fun f => { f with
    banks := bs.zipIdx.foldl (fun t x => if o + x.2 < 16384 then Tab.set 0 t (b * 16384 + o + x.2) x.1 else t) f.banks
    ok := if b = standbyRoute s then Tab.set false f.ok b false else f.ok })

/-- The node becomes a member (R121). -/
def member (s : State) : State := raise fabEvtMember (s.set fabStatusJoin 3)

/-- The entry of a rank loaded into TICK_BEACON_PORT (R99). UP is an upstream port only in a valid entry of another node's
rank, ALT only with ALT_VALID as well, and an entry that is not valid names no port (R98). -/
def loadBeaconPort (rank : Nat) (s : State) : State :=
  if s.flag fabStatusRoutes ∧ s.tick.bcnRank ≠ some rank then
    let e := beaconEntry s (routeBank s) rank
    let v := bcnValid e
    let up := v && rank != s.get tickRankRank
    let pick (n : Nat) : Nat := if v then n else 0
    { ((s.set tickBeaconPortUp (pick (bcnUp e))).set tickBeaconPortAlt (pick (bcnAlt e))).set tickBeaconPortDown (pick (bcnDown e))
      with tick := { s.tick with bcnRank := some rank, upOk := up, altOk := up && bcnAltValid e } }
  else s

/-- The standby route bank made active (R103); the beacon ports follow at the next beacon (R26), at the timekeeper at once,
from its own entry (R99). -/
def routeSwap (s : State) : State :=
  let s := (s.set fabStatusActiveBank (1 - routeBank s)).set fabStatusRoutes 1
  let s := { s with tick := { s.tick with bcnRank := none } }
  raise fabEvtRouteSwap (if s.flag tickStatusTk then loadBeaconPort (s.get tickRankRank) s else s)

/-! ## Joining (R116, R118) -/

/-- A member reports a neighbour that its active route bank does not know (R116). -/
def neighbourUp (p : Nat) (s : State) : State :=
  let d := s.get (elvPartnerNode p)
  if s.get fabStatusJoin = 3 ∧ s.flag fabStatusRoutes ∧ ¬ bitOf (unicast s d) 8 then
    sendMgmt (s.get fabMgmtNodeNode) 0x40 (leBytes 16 (p + d * 65536 + s.get (elvStatRank p) * 2 ^ 32))
      (raise fabEvtNeighbour s)
  else s

/-- The payload of JOIN_ANNOUNCE (R108). -/
def announcePayload (s : State) : List Byte :=
  let up := ((List.range 16).map (fun p => b2n (portUp s p) * 2 ^ p)).sum
  leBytes 16 (s.get idUidUid) ++
    leBytes 16 (s.get idSteppingStep + up * 2 ^ 8 + s.get tickStatusLock * 2 ^ 24 + s.get idImageVerVersion * 2 ^ 32)

/-- JOIN_ANNOUNCE on every UP port, to the partner of each (R118). -/
def announceAll (s : State) : State :=
  let ps := (List.range 16).filter (fun p => portUp s p)
  let pl := announcePayload s
  let s := State.each ps (fun p t =>
    sendPacket p (mkPkt (t.get (elvPartnerNode p)) 3 (ownId t) 0 0x41 2 0 0 0 pl) t) s
  s.onFab (fun f => { f with sinceAnnounce := 0 })

end Sys2Proof.Machine
end

