-- ==== Sys2Proof/Machine/Links.lean ====
section
/-! DEFINITION. Elvuno links: the commands of chapter 02 (R56 to R93). Port states: 0 DISABLED, 1 DETECT, 2 EXCHANGE,
3 TRAIN, 4 ALIGN, 5 MEASURE, 6 VERIFY, 7 UP, 8 RETRAIN, 9 LP, 10 DOWN. -/

namespace Sys2Proof.Machine

/-! ## Modes (R60, R61, R65) -/

/-- Width and rate (0 106.25, 1 53.125, 2 26.5625 Gb/s) of a rank. -/
def rankMode (r : Nat) : Nat × Nat :=
  if r = 1 then (8, 0) else if r = 2 then (8, 1) else if r = 3 then (4, 0) else if r = 4 then (8, 2)
  else if r = 5 then (4, 1) else if r = 6 then (2, 0) else if r = 7 then (4, 2) else if r = 8 then (2, 1)
  else if r = 9 then (1, 0) else if r = 10 then (2, 2) else if r = 11 then (1, 1) else (1, 2)

/-- The lowest aligned group of `w` lanes that contains no failed lane, as a mask (R61). -/
def laneGroup (w fails : Nat) : Option Nat :=
  ((List.range (8 / w)).find? (fun i => bits fails (i * w) w == 0)).map (fun i => (2 ^ w - 1) * 2 ^ (i * w))

/-- A lane mask in the other partner's numbering: unchanged, or reversed. -/
def mapLanes (rev : Bool) (m : Nat) : Nat :=
  if rev then ((List.range 8).map (fun i => b2n (bitOf m (7 - i)) * 2 ^ i)).sum else m

/-- The failed lanes of both partners, in the numbering of the partner with the lower ID. -/
def groupFails (s : State) (p : Nat) : Nat :=
  let rev := s.flag (elvStatReversed p)
  let own := s.get (elvLaneFail p)
  let their := (s.port p).partnerFail
  if ownId s < s.get (elvPartnerNode p) then Nat.lor own (mapLanes rev their) else Nat.lor (mapLanes rev own) their

/-- MODES and NOFEC taken as they stand, at the entry to an EXCHANGE (R91). -/
def latchModes (p : Nat) (s : State) : State :=
  s.onPort p (fun q => { q with modes := s.get (elvCfgModes p), nofec := s.flag (elvCfgNofec p) })

/-- The proposed rank (R65), 0 for none. -/
def proposed (s : State) (p : Nat) : Nat :=
  let q := s.port p
  match (List.range 12).find? (fun k =>
      bitOf q.modes k && bitOf (s.get (elvPartnerModes p)) k &&
      !bitOf (s.get (elvLaneFailRates p)) (rankMode (k + 1)).2 && !bitOf q.partnerRates (rankMode (k + 1)).2 &&
      (laneGroup (rankMode (k + 1)).1 (groupFails s p)).isSome) with
  | some k => k + 1
  | none => 0

/-- Whether FEC is on at a rank (R60, R90). -/
def fecOn (s : State) (p r : Nat) : Bool :=
  !((rankMode r).2 == 2 && (s.port p).nofec && s.flag (elvPartnerNofec p))

/-! ## Capability pages (R63) -/

/-- Lanes that have delivered three identical valid pages. -/
def validLanes (q : Port) : List Nat := (q.pages.filter (fun x => decide (3 ≤ x.2.2))).map Prod.fst

/-- Lanes that have delivered a valid page. -/
def heardLanes (q : Port) : List Nat := Tab.keys q.pages

/-- The 64-bit page body of a transmit lane. -/
def pageBody (s : State) (p lane : Nat) : Nat :=
  let ack := !(validLanes (s.port p)).isEmpty
  ownId s + p * 2 ^ 12 + lane * 2 ^ 16 + b2n ack * 2 ^ 19 + (s.port p).modes * 2 ^ 20 + b2n (s.port p).nofec * 2 ^ 32 +
    s.get (elvLaneFail p) * 2 ^ 33 + s.get (elvLaneFailRates p) * 2 ^ 41 +
    (if ack then proposed s p else 0) * 2 ^ 44 + s.get idSteppingStep * 2 ^ 48 + s.get (elvStatAttempt p) * 2 ^ 56

/-- A page on every transmit lane: the sync pattern, the body and its CRC. -/
def sendPages (p : Nat) (s : State) : State :=
  State.each (List.range 8) (fun l t => t.emit (.page p l 0xF0A5 (pageBody s p l) (crc16 (leBytes 8 (pageBody s p l))))) s

/-- Entry to a state of the negotiation. -/
def enter (p st : Nat) (s : State) : State := s.set (elvStatState p) st

/-- Entry to DETECT: pages are sent and signal awaited. -/
def toDetect (p : Nat) (s : State) : State := sendPages p (latchModes p (enter p 1 (s.onPort p portFresh)))

/-- Entry to EXCHANGE: pages are exchanged anew, under MODES and NOFEC as they stand now (R91). -/
def toExchange (p : Nat) (s : State) : State :=
  sendPages p (enter p 2 ((latchModes p s).onPort p (fun q => { q with
    pages := [], firstValid := none, partnerAck := false, partnerProp := 0, lanes := 0 })))

/-- The exchange begun again with ATTEMPT one higher (R69). -/
def nextAttempt (p : Nat) (s : State) : State := toExchange p (s.set (elvStatAttempt p) (s.get (elvStatAttempt p) + 1))

/-- SIGNAL_DETECT: a port in DETECT that sees signal enters EXCHANGE. -/
def execSignalDetect (port : Fin 16) (s : State) : Host.Outcome State Fault Refusal :=
  let p := port.val
  if s.get (elvStatState p) = 1 then done (toExchange p (s.onPort p (fun q => { q with signal := true }))) else done s

/-- The lane map of the valid lanes: identity, reversal, or neither. -/
def laneMap (q : Port) : Option Bool :=
  let ls := q.pages.filter (fun x => decide (3 ≤ x.2.2))
  if ls.all (fun x => bits x.2.1 16 3 == x.1) then some false
  else if ls.all (fun x => bits x.2.1 16 3 == 7 - x.1) then some true
  else none

/-- What a valid page tells of the partner. -/
def takePage (p lane body : Nat) (s : State) : State :=
  let q := s.port p
  let (old, n) := Tab.get (0, 0) q.pages lane
  let n' := if 3 ≤ n then n else if old = body then n + 1 else 1
  let s := s.onPort p (fun q => { q with
    pages := Tab.insert q.pages lane (body, n')
    firstValid := if q.firstValid.isNone ∧ 3 ≤ n' then some s.now else q.firstValid
    partnerAck := if 3 ≤ n' then bitOf body 19 else q.partnerAck
    partnerProp := if 3 ≤ n' then bits body 44 4 else q.partnerProp
    partnerFail := if 3 ≤ n' then bits body 33 8 else q.partnerFail
    partnerRates := if 3 ≤ n' then bits body 41 3 else q.partnerRates })
  if 3 ≤ n' then
    (((s.set (elvPartnerNode p) (bits body 0 12)).set (elvPartnerPort p) (bits body 12 4)).set (elvPartnerModes p)
      (bits body 20 12)).set (elvPartnerNofec p) (bits body 32 1)
  else s

/-- The lanes that have delivered no valid page, marked failed 1 ms after the first valid lane (R64 step 1). -/
def markSilent (p : Nat) (s : State) : State :=
  match (s.port p).firstValid with
  | some t =>
    if t + psPerMs ≤ s.now then
      let v := heardLanes (s.port p)
      let m := ((List.range 8).map (fun i => b2n (!v.contains i) * 2 ^ i)).sum
      s.set (elvLaneFail p) (Nat.lor (s.get (elvLaneFail p)) m)
    else s
  | none => s

/-- Whether every lane has delivered a valid page or is marked failed. -/
def lanesSettled (s : State) (p : Nat) : Bool :=
  (List.range 8).all (fun i => (heardLanes (s.port p)).contains i || bitOf (s.get (elvLaneFail p)) i)

/-- A valid page in EXCHANGE: three identical ones make a lane valid, the lane map follows, and the exchange completes when
both partners acknowledge and propose the same rank; the lane group of that rank is in use from then on (R61, R64, R65). -/
def exchangePage (p lane body : Nat) (inverted : Bool) (s : State) : State :=
  let s := if inverted then s.set (elvLanePol p) (Nat.lor (s.get (elvLanePol p)) (2 ^ lane)) else s
  let s := markSilent p (takePage p lane body s)
  match laneMap (s.port p) with
  | none => portDown p 3 s
  | some rev =>
    let s := s.set (elvStatReversed p) (b2n rev)
    let q := s.port p
    let r := proposed s p
    let s := sendPages p s
    if !(validLanes q).isEmpty ∧ q.partnerAck ∧ r ≠ 0 ∧ q.partnerProp = r ∧ lanesSettled s p then
      let g := (laneGroup (rankMode r).1 (groupFails s p)).getD 0
      enter p 3 (s.onPort p (fun q => { q with lanes := g }))
    else s

/-- CAPABILITY_PAGE: a page is checked and, in EXCHANGE, taken (R63 to R65). In a later state of the attempt a page whose
ATTEMPT is one higher tells that the partner has failed the attempt: the node returns to EXCHANGE with ATTEMPT one higher and
no mark (R69; DEDUCED, assumption 14). -/
def execCapabilityPage (port : Fin 16) (lane : Fin 8) (inverted : Bool) (body : BitVec 64) (crc : BitVec 16) (at_ : Nat)
    (s : State) : Host.Outcome State Fault Refusal :=
  let p := port.val
  let b := body.toNat
  let s := s.reach at_
  let st := s.get (elvStatState p)
  if crc.toNat ≠ crc16 (leBytes 8 b) then done s
  else if st = 2 then done (exchangePage p lane.val b inverted s)
  else if 3 ≤ st ∧ st ≤ 6 ∧ bits b 56 8 = (s.get (elvStatAttempt p) + 1) % 256 then
    done (exchangePage p lane.val b inverted (nextAttempt p s))
  else done s

/-- EXCHANGE_TIMEOUT: DOWN with TIMEOUT when no lane delivered a valid page, else NOCOMMON (R64, R66). -/
def execExchangeTimeout (port : Fin 16) (s : State) : Host.Outcome State Fault Refusal :=
  let p := port.val
  if s.get (elvStatState p) = 2 then done (portDown p (if (heardLanes (s.port p)).isEmpty then 10 else 4) s) else done s

/-! ## Training to UP (R66 to R69) -/

/-- A failed attempt: named lanes or the rate marked, back to EXCHANGE with ATTEMPT one higher, or DOWN with the cause
when no rank remains (R69, R84). R84 has no cause for an ALIGN failure that leaves no rank: its callers give TRAIN, 2 (DESIGN
CHOICE, assumption 69). -/
def failAttempt (p cause lanes : Nat) (s : State) : State :=
  let rate := (rankMode (s.port p).partnerProp).2
  let s := if lanes = 0 then s.set (elvLaneFailRates p) (Nat.lor (s.get (elvLaneFailRates p)) (2 ^ rate))
    else s.set (elvLaneFail p) (Nat.lor (s.get (elvLaneFail p)) lanes)
  if proposed (latchModes p s) p = 0 then portDown p cause s else nextAttempt p s

/-- TRAINING_DONE: training converges, leading to ALIGN, or the attempt fails. -/
def execTrainingDone (port : Fin 16) (ok : Bool) (lanes : BitVec 8) (s : State) : Host.Outcome State Fault Refusal :=
  let p := port.val
  if s.get (elvStatState p) ≠ 3 then done s
  else if ok then done (enter p 4 s) else done (failAttempt p 2 lanes.toNat s)

/-- TRAIN_TIMEOUT: the TRAIN bound expires and the attempt fails. -/
def execTrainTimeout (port : Fin 16) (lanes : BitVec 8) (s : State) : Host.Outcome State Fault Refusal :=
  let p := port.val
  if s.get (elvStatState p) = 3 then done (failAttempt p 2 lanes.toNat s) else done s

/-- ALIGN_TIMEOUT: the ALIGN bound expires and the attempt fails. -/
def execAlignTimeout (port : Fin 16) (lanes : BitVec 8) (s : State) : Host.Outcome State Fault Refusal :=
  let p := port.val
  if s.get (elvStatState p) = 4 then done (failAttempt p 2 lanes.toNat s) else done s

/-- ALIGN_DONE: lock completes with the lane map confirmed, and the port enters MEASURE and sends 64 probes. -/
def execAlignDone (port : Fin 16) (mapOk : Bool) (lanes : BitVec 8) (s : State) : Host.Outcome State Fault Refusal :=
  let p := port.val
  if s.get (elvStatState p) ≠ 4 then done s
  else if mapOk then done (sendProbes p 64 (enter p 5 (s.onPort p (fun q => { q with probes := 0, rttCount := 0, rttSum := 0 }))))
  else done (failAttempt p 2 lanes.toNat s)

/-- DELAY_PROBE: answered with a delay reply that echoes the transmit time and carries the turnaround; a replayed probe
is not (R67, R77). -/
def execDelayProbe (port : Fin 16) (tx turn : BitVec 64) (replayed : Bool) (s : State) : Host.Outcome State Fault Refusal :=
  let p := port.val
  let st := s.get (elvStatState p)
  let s := consumeCtrl p 0x10 (leBytes 8 tx.toNat) s
  if replayed ∨ st < 5 ∨ st = 10 then done s
  else done (sendCtrl p 0x11 (leBytes 8 tx.toNat ++ leBytes 8 turn.toNat) s)

/-- The link delay set from a round trip (R67). -/
def setDelay (p rtt : Nat) (s : State) : State := (s.set (elvRttPs p) rtt).set (tickLinkDelayPs p) (rtt / 2)

/-- A delay reply counted, and its round trip where its return time counts. -/
def takeReply (p : Nat) (echo turn : Nat) (ret : Option (BitVec 64)) (s : State) : State :=
  let s := consumeCtrl p 0x11 (leBytes 8 echo ++ leBytes 8 turn) s
  s.onPort p (fun q =>
    match ret with
    | some t => { q with probes := q.probes + 1, rttCount := q.rttCount + 1, rttSum := q.rttSum + (t.toNat - echo - turn) }
    | none => { q with probes := q.probes + 1 })

/-- The mean round trip of the replies taken. -/
def Port.rtt (q : Port) : Nat := q.rttSum / max q.rttCount 1

/-- DELAY_REPLY: one sample of the round trip, none when the reply came with REPLAYED set, whose arrival time is not used;
in MEASURE, after 64 the link delay is set, or the port goes DOWN with LONG; in RETRAIN the samples are kept for its end (R67,
R77, R78). -/
def execDelayReply (port : Fin 16) (echo turn : BitVec 64) (ret : Option (BitVec 64)) (s : State) : Host.Outcome State Fault Refusal :=
  let p := port.val
  let st := s.get (elvStatState p)
  if st = 8 then done (takeReply p echo.toNat turn.toNat ret s)
  else if st ≠ 5 then done s
  else
    let s := takeReply p echo.toNat turn.toNat ret s
    let q := s.port p
    if q.probes < 64 ∨ q.rttCount = 0 then done s
    else if 320000 < q.rtt then done (portDown p 5 (s.set (elvRttPs p) q.rtt))
    else done (enter p 6 (setDelay p q.rtt s))

/-- MEASURE_TIMEOUT: the MEASURE bound expires before all probes are answered; the attempt ends without a mark and
EXCHANGE begins again with ATTEMPT one higher (DEDUCED, assumption 14). -/
def execMeasureTimeout (port : Fin 16) (s : State) : Host.Outcome State Fault Refusal :=
  let p := port.val
  if s.get (elvStatState p) = 5 then done (nextAttempt p s) else done s

/-- A port comes UP at the rank agreed; it is FENCED while the active bank holds a plan, and a member reports a
neighbour its routes do not know (R62, R80, R116; assumption 15). -/
def comeUp (p : Nat) (s : State) : State :=
  let r := (s.port p).partnerProp
  let s := (((enter p 7 s).set (elvStatRank p) r).set (elvStatFec p) (b2n (fecOn s p r))).set (elvStatBcnIneligible p)
    (b2n (decide (7 ≤ r)))
  let s := if s.flag tickStatusBankEmpty then s else s.set (elvStatFenced p) 1
  bootTime 3 (neighbourUp p (raise (elvEvtUp p) (s.onPort p (fun q => { q with downs := 0 }))))

/-- Whether a stretch of line passes R68: with FEC, no uncorrectable codeword and at most 2^−16 corrected symbols; without,
no CRC error. -/
def linePasses (fec uncorrectable : Bool) (corrected received : Nat) (crcError : Bool) : Bool :=
  if fec then !uncorrectable && decide (corrected * 65536 ≤ received) else !crcError

/-- VERIFY_END: the window ends, and the port comes UP or the attempt fails (R68). -/
def execVerifyEnd (port : Fin 16) (uncorrectable : Bool) (corrected received : Nat) (crcError : Bool) (lanes : BitVec 8)
    (s : State) : Host.Outcome State Fault Refusal :=
  let p := port.val
  if s.get (elvStatState p) ≠ 6 then done s
  else if linePasses (fecOn s p (s.port p).partnerProp) uncorrectable corrected received crcError then done (comeUp p s)
  else done (failAttempt p 6 lanes.toNat s)

/-- DOWN_BACKOFF: the backoff expires and the port returns to DETECT, or to DISABLED while it is not enabled. -/
def execDownBackoff (port : Fin 16) (s : State) : Host.Outcome State Fault Refusal :=
  let p := port.val
  if s.get (elvStatState p) ≠ 10 then done s
  else if s.flag (elvCfgEnable p) ∧ s.get fumStatusState ≠ 3 then done (toDetect p s)
  else done (enter p 0 s)

/-- PORT_ENABLE: ENABLE 1 lets the port leave DISABLED, unless the node is in P2; 0 takes it DOWN with DISABLED and no
claim (R66). -/
def execPortEnable (port : Fin 16) (on : Bool) (s : State) : Host.Outcome State Fault Refusal :=
  let p := port.val
  let st := s.get (elvStatState p)
  let s := s.set (elvCfgEnable p) (b2n on)
  if on then (if st = 0 ∧ s.get fumStatusState ≠ 3 then done (toDetect p s) else done s)
  else if st = 0 ∨ st = 10 then done s
  else done (portDown p 9 s)

/-! ## Replay (R75, R76, R86, R89) -/

/-- The answer to an LP request: LP acknowledge, and the port is in LP (R81). -/
def lpAnswer (p : Nat) (s : State) : State :=
  enter p 9 ((sendCtrl p 0x13 [] s).onPort p (fun q => { q with lpOwed := false }))

/-- An LP request on a port that is UP, or retrains: delayed until it is UP with no open episode (R81, R89). -/
def lpAsk (p : Nat) (s : State) : State :=
  if portUp s p ∧ ¬ (s.port p).epOpen then (sendCtrl p 0x12 [] s).onPort p (fun q => { q with lpWanted := false })
  else if portUp s p ∨ s.get (elvStatState p) = 8 then s.onPort p (fun q => { q with lpWanted := true })
  else s

/-- The delayed LP message of a port whose episode has ended. -/
def lpDelayed (p : Nat) (s : State) : State :=
  let q := s.port p
  if q.lpOwed then lpAnswer p s else if q.lpWanted then lpAsk p s else s

/-- The episode window closes: the episode succeeds when every flit outstanding at its first replay is acknowledged, else the
budget is exhausted (R76). -/
def closeEpisode (p : Nat) (s : State) : State :=
  let q := s.port p
  if q.epOutD = 0 ∧ q.epOutC = 0 then lpDelayed p (s.onPort p (fun q => { q with epOpen := false, epReplays := 0 }))
  else exhaust p s

/-- EPISODE_WINDOW_CLOSE: the 1,500 ns of an open episode are over. -/
def execEpisodeWindowClose (port : Fin 16) (s : State) : Host.Outcome State Fault Refusal :=
  let p := port.val
  if !(s.port p).epOpen then done s else done (closeEpisode p (s.reach ((s.port p).epStart + 1500000)))

/-- One replay of a space: it opens the episode window or counts against its limit of 4; the fifth exhausts the budget
(R75, R76). In LP the DATA space sends nothing (R81). -/
def replayNow (p : Nat) (ctrl : Bool) (s : State) : State :=
  let q := s.port p
  let st := s.get (elvStatState p)
  if st ≠ 7 ∧ ¬ (st = 9 ∧ ctrl) then s
  else if (q.buf ctrl).isEmpty then s
  else if q.epOpen ∧ 4 ≤ q.epReplays then exhaust p s
  else
    let s := s.onPort p (fun q =>
      if q.epOpen then { q with epReplays := q.epReplays + 1 }
      else { q with epOpen := true, epStart := s.now, epReplays := 1, epOutD := q.bufD.length, epOutC := q.bufC.length })
    resend p ctrl (s.bump (elvReplayReplays p) 1)

/-- A replay asked for by a NAK or a timeout; a window that is over closes first, and when that exhausts the budget the port
retrains and the replay is not made (R86). -/
def replay (p : Nat) (ctrl : Bool) (s : State) : State :=
  let q := s.port p
  replayNow p ctrl (if q.epOpen ∧ q.epStart + 1500000 ≤ s.now then closeEpisode p s else s)

/-! ## Flits received (R71 to R75) -/

/-- The codewords a flit lay in, counted per lane (`none` is uncorrectable). -/
def countFec (p : Nat) (cw : List (Nat × Option Nat)) (s : State) : State :=
  State.each cw (fun c t =>
    let l := c.1 % 8
    match c.2 with
    | none => t.bump (elvLaneFec4UncorrCw p l) 1
    | some k =>
      let t := if k < 16 then t.bump (elvFecHistCount p k) 1 else t
      if k = 0 then t else (t.bump (elvLaneFec0CorrCw p l) 1).bump (elvLaneFec8CorrSym p l) k) s

/-- A NAK of a space: the space discards until the expected flit arrives. -/
def sendNak (p : Nat) (ctrl : Bool) (s : State) : State :=
  sendIdle p (some ctrl) (s.onPort p (fun q => if ctrl then { q with nakC := true } else { q with nakD := true }))

/-- Flits of a space acknowledged up to a number: they leave the replay buffer, and waiting flits follow. -/
def takeAck (p : Nat) (ctrl : Bool) (last : Nat) (s : State) : State :=
  let q := s.port p
  let b := q.buf ctrl
  let base := (q.tx ctrl + 4096 - b.length) % 4096
  let k := (last + 1 + 4096 - base) % 4096
  if k ≤ b.length then
    drainWait p ctrl (s.onPort p (fun q =>
      if ctrl then { q with bufC := q.bufC.drop k, epOutC := q.epOutC - k }
      else { q with bufD := q.bufD.drop k, epOutD := q.epOutD - k }))
  else s

/-- The acknowledgement and NAK of one space in a flit. -/
def takeSpace (p : Nat) (ctrl : Bool) (h : Nat) (s : State) : State :=
  let s := if bitOf h 12 then takeAck p ctrl (bits h 0 12) s else s
  if bitOf h 13 then replay p ctrl s else s

/-- The acknowledgements, NAKs and credits of a flit; what CTRL has to send goes ahead of DATA (R72). -/
def takeHeader (p : Nat) (f : List Byte) (s : State) : State :=
  let r := leAt f 10 2
  let s := takeSpace p false (leAt f 2 2) (takeSpace p true (leAt f 4 2) s)
  if bitOf r 2 then
    drainHeld p (s.onPort p (fun q => { q with
      credits := Tab.set 0 q.credits (bits r 0 2) (Tab.get 0 q.credits (bits r 0 2) + bits r 3 13) }))
  else s

/-- The units of the VC 0 packets that wait on a port. Control messages wait as 240 bytes, a length no packet of VC 0 has
(R73, R152). -/
def vc0Waiting (q : Port) : Nat := ((q.delivered.filter (fun e => pktVc e == 0 && e.length != 240)).map unitsOf).sum

/-- A packet that has arrived whole waits to be taken; one of VC 0 that finds no space is dropped, counted and reported as
a plan fault against its slot (R72, R576). How much space there is, the spec leaves open. -/
def takePacket (p : Nat) (pkt : List Byte) (s : State) : State :=
  if pktVc pkt = 0 ∧ Config.vc0Space < vc0Waiting (s.port p) + unitsOf pkt then
    fault .plan 3 (bits (leAt pkt 4 2) 0 10) 0 10 (some p) (s.bump (elvDropVc0 p) 1)
  else s.onPort p (fun q => { q with delivered := q.delivered ++ [pkt] })

/-- The packets of a DATA flit put together unit by unit; those that end are delivered. -/
def takeUnits (p : Nat) (f : List Byte) (s : State) : State :=
  State.each (List.range 15) (fun u s =>
    let s := if bitOf (leAt f 6 2) u then s.onPort p (fun q => { q with asm := [], asmOpen := true }) else s
    let q := s.port p
    if q.asmOpen then
      let a := q.asm ++ slice f (12 + 16 * u) 16
      if bitOf (leAt f 8 2) u then takePacket p a (s.onPort p (fun q => { q with asm := [], asmOpen := false }))
      else s.onPort p (fun q => { q with asm := a })
    else s) s

/-- The content of an accepted flit. -/
def takeContent (p : Nat) (ctrl : Bool) (f : List Byte) (s : State) : State :=
  if ctrl then
    let k := leAt f 12 1
    if k = 1 ∨ k = 2 ∨ (0x10 ≤ k ∧ k ≤ 0x15) then
      s.onPort p (fun q => { q with delivered := q.delivered ++ [slice f 12 240] })
    else s.bump (elvErrProto p) 1
  else if s.flag (elvStatFenced p) then s.bump (elvDropFenced p) 1
  else takeUnits p f s

/-- A sequenced flit that passed its checks: accepted, a gap, or a duplicate (R74). -/
def takeSequenced (p : Nat) (ctrl : Bool) (f : List Byte) (s : State) : State :=
  let q := s.port p
  let d := (bits (leAt f 0 2) 0 12 + 4096 - (if ctrl then q.rxC else q.rxD)) % 4096
  if d = 0 then
    let s := s.onPort p (fun q =>
      if ctrl then { q with rxC := (q.rxC + 1) % 4096, seenC := true, nakC := false, owed := q.owed + 1 }
      else { q with rxD := (q.rxD + 1) % 4096, seenD := true, nakD := false, owed := q.owed + 1 })
    let s := takeContent p ctrl f (s.bump (elvFlitsRxCount p) 1)
    if 32 ≤ (s.port p).owed then sendIdle p none s else s
  else if d < 2048 then (if (if ctrl then q.nakC else q.nakD) then s else sendNak p ctrl s)
  else s.bump (elvDupCount p) 1

/-- Whether a port takes flits: UP, in LP, and while it measures, verifies or retrains (R66, R67, R78). -/
def flitsOpen (s : State) (p : Nat) : Bool := decide (5 ≤ s.get (elvStatState p)) && decide (s.get (elvStatState p) ≤ 9)

/-- FLIT_RECEIVE: a flit is checked; a bad one makes the receiver send a NAK; a good one's acknowledgements and credits
are taken, and it is accepted, treated as a gap or dropped as a duplicate. `codewords` are the codewords it lay in, with
the symbols corrected in each. -/
def execFlitReceive (port : Fin 16) (flit : List Byte) (codewords : List (Nat × Option Nat)) (at_ : Nat) (s : State) :
    Host.Outcome State Fault Refusal :=
  let p := port.val
  let s := s.reach at_
  if !flitsOpen s p then done s
  else
    let f := slice flit 0 256
    let fec := s.flag (elvStatFec p)
    let s := if fec then countFec p codewords s else s
    let crcBad := leAt f 252 4 != crc32c (f.take 252)
    let s := if crcBad then s.bump (elvErrCrc p) 1 else s
    let typ := bits (leAt f 0 2) 12 3
    if crcBad || (fec && codewords.any (fun c => c.2.isNone)) then
      let s := if typ ≠ 2 ∧ ¬ (s.port p).nakD then sendNak p false s else s
      done (if typ ≠ 1 ∧ ¬ (s.port p).nakC then sendNak p true s else s)
    else if 3 ≤ typ then done (s.bump (elvErrProto p) 1)
    else
      let s := takeHeader p f s
      if typ = 0 then done s else done (takeSequenced p (typ == 2) f s)

/-- NAK_REPEAT: 500 ns without the expected flit, and the receiver repeats the NAK. -/
def execNakRepeat (port : Fin 16) (ctrl : Bool) (s : State) : Host.Outcome State Fault Refusal :=
  let p := port.val
  if portLive s p ∧ (if ctrl then (s.port p).nakC else (s.port p).nakD) then done (sendIdle p (some ctrl) s) else done s

/-- ACK_IDLE_SEND: an accepted flit nears its acknowledgement bound, and the node sends an IDLE flit. -/
def execAckIdleSend (port : Fin 16) (s : State) : Host.Outcome State Fault Refusal :=
  let p := port.val
  if portLive s p ∧ (s.port p).owed ≠ 0 then done (sendIdle p none s) else done s

/-- ACK_TIMEOUT: a flit has gone 500 ns without acknowledgement, and the sender replays. -/
def execAckTimeout (port : Fin 16) (ctrl : Bool) (at_ : Nat) (s : State) : Host.Outcome State Fault Refusal :=
  let p := port.val
  let s := s.reach at_
  if (portUp s p ∨ (portLive s p ∧ ctrl)) ∧ ((s.port p).buf ctrl) ≠ [] then done (replay p ctrl (s.bump (elvReplayAckTo p) 1)) else done s

/-! ## Retraining and loss (R78, R79) -/

/-- LOSS_OF_SIGNAL: loss of signal or lock for more than 1 µs: a LOS claim and retraining, or DOWN with LOS when
retraining is impossible; an open claim merges it as it would a retraining that fails at once (R563). -/
def lossOfSignal (p : Nat) (canRetrain : Bool) (s : State) : State :=
  let st := s.get (elvStatState p)
  if st ≠ 7 ∧ st ≠ 8 ∧ st ≠ 9 then s
  else if canRetrain then claimAndRetrain p 2 2 s
  else portDown p 1 ((claimRetraining p 2 s).set (telClaimState p) 3)

/-- A retraining that fails: the claim DOWN, and the port with RETRAIN_FAIL (R78, R79). -/
def retrainFails (p : Nat) (s : State) : State :=
  portDown p 7 (if s.get (telClaimState p) = 1 then s.set (telClaimState p) 3 else s)

/-- RETRAIN_DONE: with its 8 probes answered and 256 codewords checked under R68, the mode is kept, the link delay is the mean
just measured, the claim becomes RECOVERED and both replay buffers are resent with REPLAYED set, CTRL ahead of DATA (R72,
R78). A line that does not pass, or a round trip above 320 ns, fails the retraining. -/
def execRetrainDone (port : Fin 16) (line : LineCheck) (s : State) : Host.Outcome State Fault Refusal :=
  let p := port.val
  let q := s.port p
  if s.get (elvStatState p) ≠ 8 ∨ q.probes < 8 ∨ q.rttCount = 0 then done s
  else if 320000 < q.rtt ∨ !linePasses (s.flag (elvStatFec p)) line.uncorrectable line.corrected line.received line.crcError then
    done (retrainFails p s)
  else
    let s := setDelay p q.rtt (enter p 7 s)
    let s := raise (elvEvtRetrainOk p) (if s.get (telClaimState p) = 1 then s.set (telClaimState p) 2 else s)
    let s := fault .link 3 p 0 0 (some p) s
    let s := drainWait p true (resend p true s)
    done (lpDelayed p (drainHeld p (drainWait p false (resend p false s))))

/-- RETRAIN_TIMEOUT: retraining exceeds 50 µs; DOWN with RETRAIN_FAIL, the claim DOWN (R78, R79). -/
def execRetrainTimeout (port : Fin 16) (s : State) : Host.Outcome State Fault Refusal :=
  let p := port.val
  if s.get (elvStatState p) ≠ 8 then done s else done (retrainFails p s)

/-- DEGRADED_WINDOW: a 1 ms window with a corrected-symbol ratio above 2^−12 sets EVT.DEGRADED and is reported. -/
def execDegradedWindow (port : Fin 16) (corrected received : Nat) (s : State) : Host.Outcome State Fault Refusal :=
  let p := port.val
  if received < corrected * 4096 then done (fault .link 5 p 0 0 (some p) (raise (elvEvtDegraded p) s)) else done s

/-- RETRAIN: a write of CTL.RETRAIN takes an UP port into RETRAIN with a DRIVER claim; during a retraining it merges
into the claim (R79, R88). -/
def execRetrain (port : Fin 16) (s : State) : Host.Outcome State Fault Refusal :=
  let p := port.val
  if s.get (elvStatState p) = 7 ∨ s.get (elvStatState p) = 8 then done (claimAndRetrain p 3 0 s) else done s

/-- UNFENCE: a write of CTL.UNFENCE clears FENCED (R80). -/
def execUnfence (port : Fin 16) (s : State) : Host.Outcome State Fault Refusal := done (s.set (elvStatFenced port.val) 0)

/-- RENEGOTIATE: DOWN with DISABLED and DETECT again without backoff (R84). -/
def execRenegotiate (port : Fin 16) (s : State) : Host.Outcome State Fault Refusal :=
  let p := port.val
  let st := s.get (elvStatState p)
  if st = 0 then done s
  else
    let s := if st = 10 then s.set (elvStatCause p) 9 else portDown p 9 s
    if s.flag (elvCfgEnable p) then done (toDetect p s) else done s

/-! ## Low-power link and Quit (R81, R83, R89) -/

/-- LP_REQUEST: answered with an LP acknowledge once no episode is open. -/
def execLpRequest (port : Fin 16) (s : State) : Host.Outcome State Fault Refusal :=
  let p := port.val
  let s := consumeCtrl p 0x12 [] s
  if portUp s p then
    (if (s.port p).epOpen then done (s.onPort p (fun q => { q with lpOwed := true })) else done (lpAnswer p s))
  else if s.get (elvStatState p) = 8 then done (s.onPort p (fun q => { q with lpOwed := true }))
  else done s

/-- LP_ACKNOWLEDGE: every lane but logical lane 0 goes idle; the port is in LP. -/
def execLpAcknowledge (port : Fin 16) (s : State) : Host.Outcome State Fault Refusal :=
  let p := port.val
  let s := consumeCtrl p 0x13 [] s
  if portUp s p then done (enter p 9 s) else done s

/-- LP_EXIT: the idled lanes are retrained before DATA. -/
def execLpExit (port : Fin 16) (s : State) : Host.Outcome State Fault Refusal :=
  let p := port.val
  let s := consumeCtrl p 0x14 [] s
  if s.get (elvStatState p) = 9 then done (enterRetrain p s) else done s

/-- QUIT: the port goes DOWN with cause QUIT and no claim. -/
def execQuit (port : Fin 16) (cause : Byte) (s : State) : Host.Outcome State Fault Refusal :=
  let p := port.val
  let s := consumeCtrl p 0x15 [cause] s
  let st := s.get (elvStatState p)
  if st = 0 ∨ st = 10 then done s else done (portDown p 8 s)

/-- Quit on every UP port, and every port DISABLED (R83, P2). -/
def quitAll (s : State) : State :=
  State.each (List.range 16) (fun p s =>
    let s := if portLive s p then sendCtrl p 0x15 [8] s else s
    enter p 0 (s.onPort p portFresh)) s

end Sys2Proof.Machine
end

