-- ==== Sys2Proof/Machine/Slots.lean ====
section
/-! DEFINITION. The plan banks as the sequencer reads them and the slots of the active plan (R27, R28, R31, R37, R45). -/

namespace Sys2Proof.Machine

/-- A byte of plan bank `b`. -/
def planByte (s : State) (b o : Nat) : Byte := Tab.get 0 s.tick.banks (b * 65536 + o)

/-- `n` bytes of plan bank `b`. -/
def planBytes (s : State) (b o n : Nat) : List Byte := (List.range n).map (fun i => planByte s b (o + i))

/-- A little-endian number of plan bank `b`. -/
def planAt (s : State) (b o n : Nat) : Nat := leNat (planBytes s b o n)

/-- Slot `i` of plan bank `b`: 32 bytes after the 64-byte header. -/
def slotAt (s : State) (b i : Nat) : Slot :=
  let o := 64 + 32 * i
  let w (k : Nat) := planAt s b (o + 4 * k) 4
  ⟨bits (w 0) 0 21, bits (w 0) 21 3, bits (w 0) 24 8, bits (w 1) 0 21, bits (w 2) 0 16, bits (w 2) 16 16,
   if bitOf (w 3) 10 then some (bits (w 3) 0 10) else none, bits (w 3) 16 16, w 4 + w 5 * 2 ^ 32, bits (w 6) 0 8⟩

/-- The active bank. -/
def activeBank (s : State) : Nat := s.get tickStatusActiveBank

/-- Slots of the active plan, 0 when the bank is empty. -/
def planSlots (s : State) : Nat := if s.flag tickStatusBankEmpty then 0 else planAt s (activeBank s) 6 2

/-- No slot: of a class that no item has. -/
def noItem : Slot := ⟨0, 7, 0, 0, 0, 0, none, 0, 0, 0⟩

/-- A slot number that no item has. -/
def noSlot : Nat := 2 ^ 64

/-- A slot by its number: of the active plan below 1,024, else one that an earlier plan left unfinished (R37). -/
def slotOf (s : State) (i : Nat) : Slot :=
  if i < 1024 then slotAt s (activeBank s) i else Tab.get noItem s.tick.old i

/-- The numbers of every slot: those of the active plan and those that earlier plans left unfinished. -/
def allSlots (s : State) : List Nat := List.range (planSlots s) ++ Tab.keys s.tick.old

/-- Cycle length of the active plan. -/
def planCycle (s : State) : Nat := planAt s (activeBank s) 16 2

/-- Where a slot instance stands. -/
def slotState (s : State) (i : Nat) : SlotSt := Tab.get .idle s.tick.slots i

/-- The tick state changed. -/
def State.onTick (f : TickState → TickState) (s : State) : State := { s with tick := f s.tick }

/-- A slot instance set. -/
def setSlot (i : Nat) (v : SlotSt) (s : State) : State :=
  s.onTick (fun t => { t with slots := Tab.set .idle t.slots i v })

/-- A slot instance that will not run: no longer waiting either. -/
def endSlot (i : Nat) (v : SlotSt) (s : State) : State :=
  (setSlot i v s).onTick (fun t => { t with deferred := t.deferred.filter (fun j => j != i) })

/-- Whether a slot runs on the current tick of the cycle. -/
def runsNow (s : State) (i : Nat) : Bool :=
  let x := slotOf s i
  decide (x.first ≤ s.tick.pos) && decide (s.tick.pos < x.first + x.count)

/-- Whether the current tick is the first, and the last, of a slot's range. -/
def firstTick (s : State) (i : Nat) : Bool := (slotOf s i).first == s.tick.pos
def lastTick (s : State) (i : Nat) : Bool := (slotOf s i).first + (slotOf s i).count == s.tick.pos + 1

/-- The DEP_SLOT chain of a slot of a bank, nearest first. -/
def depChainFrom (s : State) (b : Nat) : Nat → Nat → List Nat
  | 0, _ => []
  | k + 1, i =>
    match (slotAt s b i).dep with
    | some d => d :: depChainFrom s b k d
    | none => []

/-- The slots that a slot depends on, directly or through DEP_SLOT, at most `k` of them. -/
def chainOf (s : State) : Nat → Nat → List Nat
  | 0, _ => []
  | k + 1, i =>
    match (slotOf s i).dep with
    | some d => d :: chainOf s k d
    | none => []

/-- The slots that a slot depends on, directly or through DEP_SLOT. -/
def depChain (s : State) (i : Nat) : List Nat := chainOf s (allSlots s).length i

/-- The slots that depend on a slot, directly or through DEP_SLOT. -/
def dependents (s : State) (i : Nat) : List Nat := (allSlots s).filter (fun j => (depChain s j).contains i)

/-- Whether two slots are of one class and unit. -/
def sameUnit (x y : Slot) : Bool := x.cls == y.cls && x.unit == y.unit

/-- Whether another slot of the same class and unit runs. -/
def unitBusy (s : State) (i : Nat) : Bool :=
  (allSlots s).any (fun j => j != i && slotState s j == .running && sameUnit (slotOf s j) (slotOf s i))

/-- Whether no other deferred slot of the same class and unit comes before a slot (R45). -/
def firstDeferred (s : State) (i : Nat) : Bool :=
  match s.tick.deferred.find? (fun j => sameUnit (slotOf s j) (slotOf s i)) with
  | some j => j == i
  | none => true

/-- Whether an engine batch of an earlier tick still waits or runs (R625). -/
def lateEngine (s : State) : Bool :=
  s.tick.deferred.any (fun j => (slotOf s j).cls == 1) ||
    s.tick.overrun.any (fun j => (slotOf s j).cls == 1 && slotState s j == .running)

/-- Whether R625 holds a slot: an all-gather while an engine batch of an earlier tick is not over. -/
def gatherHeld (s : State) (i : Nat) : Bool := (slotOf s i).cls == 0 && (slotOf s i).phase == 3 && lateEngine s

/-- Whether the DEP_SLOT of a slot lets it start: it has completed; or both are collective slots and it has ended late, so
that a confirm can report it (R31, R155). -/
def depMet (s : State) (i : Nat) : Bool :=
  match (slotOf s i).dep with
  | none => true
  | some d =>
    slotState s d == .done || slotState s d == .skipped ||
      (slotState s d == .late && (slotOf s i).cls == 0 && (slotOf s d).cls == 0)

/-- Whether a scheduled slot lacks nothing but its unit and its START. -/
def slotReady (s : State) (i : Nat) : Bool := slotState s i == .sched && depMet s i && !gatherHeld s i

/-- Whether a slot of lower index becomes ready together with a slot of the same unit, or sooner, and still waits (R31). -/
def lowerReady (s : State) (i : Nat) : Bool :=
  (List.range (min i (planSlots s))).any (fun j =>
    sameUnit (slotOf s j) (slotOf s i) && slotReady s j &&
      decide (s.tick.edge + (slotOf s j).start * 625 ≤ max s.now (s.tick.edge + (slotOf s i).start * 625)))

/-- Whether the sequencer may start a slot of a class: the node is in tick lock and not OUT, the instance is scheduled,
its DEP_SLOT lets it start, its unit is free, nothing deferred comes before it, and no lower index that is ready with it
waits; no all-gather while an engine batch of an earlier tick is not over (R24, R31, R45, R521, R625). -/
def startable (s : State) (cls i : Nat) : Bool :=
  (decide (i < planSlots s) || (Tab.keys s.tick.old).contains i) && inLock s && !s.flag fumStatusOut && (slotOf s i).cls == cls &&
    slotReady s i && !unitBusy s i && firstDeferred s i && (s.tick.deferred.contains i || !lowerReady s i)

/-- The slot that a start at index `i` takes: the oldest that an earlier plan left behind and that may start, else slot `i`
of the active plan (R37, R45). -/
def pickSlot (s : State) (cls i : Nat) : Nat :=
  ((Tab.keys s.tick.old).reverse.find? (fun j => j % 1024 == i && startable s cls j)).getD i

/-- A slot started: no earlier than its START offset from the edge, a deferred one at once. -/
def startSlot (i : Nat) (s : State) : State :=
  if s.tick.deferred.contains i then
    setSlot i .running (s.onTick (fun t => { t with deferred := t.deferred.erase i, overrun := t.overrun ++ [i] }))
  else setSlot i .running (s.reach (s.tick.edge + (slotOf s i).start * 625))

/-- A slot that ran ends; a later instance of it that was deferred behind it may start. -/
def finishSlot (i : Nat) (v : SlotSt) (s : State) : State :=
  if slotState s i == .running then
    (setSlot i (if s.tick.deferred.contains i then .sched else v) s).onTick (fun t => { t with
      overrun := t.overrun.filter (fun j => j != i) })
  else s

/-- A slot completed. -/
def completeSlot (i : Nat) (s : State) : State := finishSlot i .done s

/-- The slot numbers that running items of the plan hold replaced. -/
def mapSlots (f : Nat → Nat) (s : State) : State :=
  { s with
    upe := s.upe.map (fun p => (p.1, { p.2 with slot := if p.2.submitted then p.2.slot else f p.2.slot }))
    str := { s.str with ctx := s.str.ctx.map (fun p => (p.1, { p.2 with slot := f p.2.slot })) }
    rlg := { s.rlg with
      batches := s.rlg.batches.map (fun p => (p.1, p.2.map (fun b => if b.submitted then b else { b with slot := f b.slot })))
      fences := s.rlg.fences.map (fun x => if x.by_ = 1 then { x with who := f x.who } else x) }
    mxa := s.mxa.map (fun j => if j.source = 0 then { j with slot := f j.slot } else j)
    kvs := { s.kvs with wins := s.kvs.wins.map (fun p => (p.1, p.2.map (fun w => { w with slot := f w.slot }))) } }

/-- Items that run on when their plan is cleared: no slot waits for them any more. -/
def detachSlots (s : State) : State :=
  (mapSlots (fun _ => noSlot) s).onTick (fun t => { t with slots := [], old := [], overrun := [], deferred := [] })

/-- An item made late: counted, the event set, a LATE record written (R45, R576). -/
def recordLate (i action : Nat) (s : State) : State :=
  fault .late 1 (i % 1024) (slotOf s i).cls action none (raise tickEvtLate (s.bump tickLateItems 1))

end Sys2Proof.Machine
end

