-- ==== Sys2Proof/Machine/CalCore.lean ====
section
/-! DEFINITION. Caldera and the phases of a step (chapter 04, R133 to R171): descriptors, the arithmetic of the reduction
modes, windows, verdicts and the late handling of collective slots. -/

namespace Sys2Proof.Machine

/-! ## Descriptors and segments (R133 to R135) -/

structure Desc where
  rmode : Nat
  inFmt : Nat
  wireFmt : Nat
  outFmt : Nat
  segments : Nat
  flags : Nat
  accBase : Nat
  accCount : Nat
  src : Nat
  dst : Nat
  exp : Nat
  wstat : Nat
  seg : Nat
  deriving DecidableEq, Repr

structure Seg where
  first : Nat
  count : Nat
  inPorts : Nat
  outMask : Nat
  flags : Nat
  expect : Nat
  deriving DecidableEq, Repr

def Seg.root (g : Seg) : Bool := bitOf g.flags 0
def Seg.loc (g : Seg) : Bool := bitOf g.flags 1

/-- The descriptor that 64 bytes spell. -/
def descOf (b : List Byte) : Desc :=
  ⟨leAt b 4 1, leAt b 5 1, leAt b 6 1, leAt b 7 1, leAt b 8 2, leAt b 10 2, bits (leAt b 12 2) 0 14, bits (leAt b 14 2) 0 15,
   leAt b 16 8, leAt b 24 8, leAt b 32 8, leAt b 40 8, leAt b 48 8⟩

/-- The segment that 16 bytes spell. -/
def segOf (b : List Byte) : Seg := ⟨leAt b 0 4, leAt b 4 4, leAt b 8 2, leAt b 10 2, leAt b 12 1, bits (leAt b 14 2) 0 13⟩

/-- The segments that a table spells. -/
def segsOf (b : List Byte) : List Seg := (List.range (b.length / 16)).map (fun i => segOf (slice b (16 * i) 16))

/-- The descriptor and segments that a running slot was started with. -/
def slotDesc (s : State) (i : Nat) : Desc := descOf (Tab.get [] s.cal.descs i)
def slotSegs (s : State) (i : Nat) : List Seg := segsOf (Tab.get [] s.cal.segs i)

/-- The ports of a mask. -/
def portsOf (m : Nat) : List Nat := (List.range 16).filter (fun p => bitOf m p)

/-- Whether the RMODE is one that the PHASE uses. -/
def phaseMode (phase rmode : Nat) : Bool :=
  if phase = 0 then decide (rmode ≤ 2) else if phase = 1 then rmode == 3 else if phase = 2 then rmode == 4
  else if phase = 3 then rmode == 5 else decide (rmode ≤ 3)

/-- Whether a segment keeps the port rules of R135. -/
def segPortsOk (s : State) (phase : Nat) (d : Desc) (g : Seg) : Bool :=
  (portsOf (Nat.lor g.inPorts g.outMask)).all (portOpen s) &&
  (if d.rmode = 5 then decide ((portsOf g.inPorts).length ≤ 1) && !(g.loc && g.inPorts != 0)
   else if g.root then !(phase == 0 && g.outMask != 0)
   else (portsOf g.outMask).length == 1)

/-- The first reason that refuses a descriptor and its segments, 0 for none (R133, R135). -/
def descReason (s : State) (phase : Nat) (b t : List Byte) (poison : Bool) : Nat :=
  let d := descOf b
  let gs := segsOf t
  if poison ∨ leAt b 0 4 ≠ 0x43444553 then 1
  else if 5 < d.rmode ∨ !phaseMode phase d.rmode then 2
  else if 2 < d.inFmt ∨ 2 < d.wireFmt ∨ (d.rmode ≠ 0 ∧ d.wireFmt ≠ 0) ∨ 3 < d.outFmt ∨
      (d.outFmt = 3 ∧ d.rmode ≠ 1 ∧ d.rmode ≠ 2) ∨ (bitOf d.flags 0 ∧ d.rmode ≠ 4) ∨ (bitOf d.flags 1 ∧ d.rmode ≠ 5) ∨
      d.accCount = 0 ∨ 16384 < d.accCount then 3
  else if d.segments = 0 ∨ 4096 < d.segments ∨ gs.length ≠ d.segments ∨ gs.any (fun g => g.count == 0) ∨
      gs.any (fun g => g.root && d.rmode != 5 && (g.expect == 0 || decide (4096 < g.expect))) then 4
  else if gs.any (fun g => !segPortsOk s phase d g) then 5
  else if 4 ≤ d.flags ∨ 4 ≤ bits (leAt b 12 2) 14 2 * 4 ∨ bitOf (leAt b 14 2) 15 ∨ leAt b 56 8 ≠ 0 ∨
      (List.range gs.length).any (fun i => decide (4 ≤ leAt t (16 * i + 12) 1) || leAt t (16 * i + 13) 1 != 0 ||
        bits (leAt t (16 * i + 14) 2) 13 3 != 0) then 6
  else 0

/-! ## Parts and elements (R139, R151, R152) -/

/-- The MODE of a packet of a descriptor. -/
def Desc.mode (d : Desc) : Nat := if d.rmode = 0 then d.wireFmt else d.rmode + 2

/-- Bytes of an element on the wire. -/
def Desc.elemSize (d : Desc) : Nat :=
  if d.rmode = 0 then fmtBytes d.wireFmt else if d.rmode = 1 then 6 else if d.rmode = 2 then 10
  else if d.rmode = 5 then fmtBytes d.inFmt else 1

/-- Elements of a part, and parts of a window. -/
def Desc.elems (d : Desc) : Nat := if d.rmode = 1 then 32 else if d.rmode = 2 then 16 else if d.rmode = 3 then 256
  else if d.rmode = 4 then 16 else 256 / d.elemSize
def Desc.parts (d : Desc) : Nat := if d.rmode = 3 ∨ d.rmode = 4 then 1 else 256 / d.elems

/-- The window a packet names that belongs to a segment: for MAX8, the group of 256 windows. -/
def segOfWindow (d : Desc) (gs : List Seg) (w : Nat) : Option Seg :=
  gs.find? (fun g => if d.rmode = 3 then decide (g.first < w + 256) && decide (w < g.first + g.count)
    else decide (g.first ≤ w) && decide (w < g.first + g.count))

/-- The windows of a segment that Caldera combines: all of them, the groups of MAX8 that fall to it first, or the one
record of CONFIRM. -/
def segWindows (d : Desc) (gs : List Seg) (g : Seg) : List Nat :=
  if d.rmode = 4 then (if gs.head? = some g then [0] else [])
  else if d.rmode = 3 then
    ((List.range ((g.first + g.count - 1) / 256 - g.first / 256 + 1)).map (fun i => (g.first / 256 + i) * 256)).filter
      (fun w => segOfWindow d gs w == some g)
  else (List.range g.count).map (fun i => g.first + i)

/-- Parts that a slot has to do. -/
def slotTotal (s : State) (i : Nat) : Nat :=
  let d := slotDesc s i
  let gs := slotSegs s i
  ((gs.map (fun g => (segWindows d gs g).length)).sum) * d.parts

/-- The collective state changed. -/
def State.onCal (f : CalState → CalState) (s : State) : State := { s with cal := f s.cal }

/-- The key of a window of a slot. -/
def winKey (i w : Nat) : Nat := i * 2 ^ 32 + w

/-- The agreed exponent of a window: none while NOAGREE is set (R146). -/
def agreed (s : State) (d : Desc) (w : Nat) : Option Nat :=
  if bitOf (nodeNat s (d.wstat + w) 1) 4 || refusal s (d.wstat + w) != 0 || nodePoison s (d.wstat + w) ||
      refusal s (d.exp + w) != 0 || nodePoison s (d.exp + w) then none
  else some (nodeNat s (d.exp + w) 1)

/-- Exponent code and significand of an FP32 value (R145). -/
def expCode (b : Nat) : Nat × Nat :=
  let e := bits b 23 8
  let f := bits b 0 23
  if e = 0xFF then (0xFF, 0) else if e = 0 then (if f = 0 then (0, 0) else (1, f)) else (e, f + 2 ^ 23)

/-- The integer of an element under an agreed exponent (R147, R148), as `w`-bit two's complement. -/
def quantise (w g ex b : Nat) : Nat :=
  let (code, m) := expCode b
  if ex = 0 ∨ ex = 0xFF ∨ code = 0 ∨ code = 0xFF then 0
  else
    let mag := rneScale m (((code : Int) + g) - ex)
    wrapInt w (if bitOf b 31 then -(mag : Int) else (mag : Int))

/-- Width and guard shift of an exact mode. -/
def exactWidth (d : Desc) : Nat × Nat := if d.rmode = 1 then (48, 11) else (80, 39)

/-- An input element as FP32 (R144, R145). -/
def toFp32 (fmt b : Nat) : Nat := f32 ((fmtOf fmt).decode b)

/-- A range of the node's memory read by Caldera; none where a byte is refused or poisoned (R143, R175, R215). -/
def wholeGet (a n : Nat) (s : State) : Option (List Byte) × State :=
  let (g, s) := useGet nodeReq a n 0 0 none s
  (if g.refused || g.bad.any id then none else some g.bytes, s)

/-- Elements `k0` to `k0 + n - 1` of a window of the local input, as FP32; none where it cannot be read. -/
def localElems (d : Desc) (w k0 n : Nat) (s : State) : Option (List Nat) × State :=
  let sz := fmtBytes d.inFmt
  let (bs, s) := wholeGet (d.src + w * 256 * sz + k0 * sz) (n * sz) s
  (bs.map (fun bs => (List.range n).map (fun k => toFp32 d.inFmt (leAt bs (k * sz) sz))), s)

/-- The largest exponent code of a window of the local input (R145). -/
def localExp (d : Desc) (w : Nat) (s : State) : Option Nat × State :=
  let (es, s) := localElems d w 0 256 s
  (es.map (fun es => es.foldl (fun m b => max m (expCode b).1) 0), s)

/-- The exponent codes of a group of 256 windows: of every LOCAL segment that holds one (R146). -/
def localGroup (d : Desc) (gs : List Seg) (w : Nat) (s : State) : Option (List Nat) × State :=
  (List.range 256).foldl (fun acc i =>
    if gs.any (fun g => g.loc && decide (g.first ≤ w + i) && decide (w + i < g.first + g.count)) then
      let (e, s) := localExp d (w + i) acc.2
      ((match acc.1, e with
        | some l, some v => some (l ++ [v])
        | _, _ => none), s)
    else (acc.1.map (· ++ [0]), acc.2)) (some [], s)

/-- One part of the local input as wire elements, with its packet flags; none when it is missing. A group of MAX8 takes the
windows of every LOCAL segment that lie in it (R146). -/
def localPart (d : Desc) (gs : List Seg) (w p : Nat) (s : State) : Option (Nat × List Nat) × State :=
  let n := d.elems
  if d.rmode = 0 then
    let (es, s) := localElems d w (p * n) n s
    (es.map (fun es => (0, es)), s)
  else if d.rmode = 3 then
    let (es, s) := localGroup d gs w s
    (es.map (fun es => (0, es)), s)
  else if d.rmode = 5 then
    let (bs, s) := wholeGet (d.src + w * 256 * d.elemSize + p * 256) 256 s
    (bs.map (fun bs => (0, (List.range n).map (fun k => leAt bs (k * d.elemSize) d.elemSize))), s)
  else
    let s := touch nodeReq (d.exp + w) 1 (touch nodeReq (d.wstat + w) 1 s)
    let ex := agreed s d w
    let (es, s) := localElems d w (p * n) n s
    ((match ex, es with
      | some ex, some es =>
        let (wd, gb) := exactWidth d
        some (if ex = 0xFF then 1 else 0, es.map (quantise wd gb ex))
      | _, _ => none), s)

/-- Two's-complement sums, each addition checked for overflow (R149). -/
def addExact (wd : Nat) (a b : List Nat) : List Nat × Bool :=
  let r := (a.zip b).map (fun x =>
    let t := sgn wd x.1 + sgn wd x.2
    (wrapInt wd t, decide (sgn wd (wrapInt wd t) ≠ t)))
  (r.map Prod.fst, r.any Prod.snd)

/-- One input combined into a partial result: elements and packet flags. FLOAT partial results are FP32 (R144). -/
def addInput (d : Desc) (acc inp : Nat × List Nat) : Nat × List Nat :=
  if d.rmode = 0 then (Nat.lor acc.1 inp.1, (acc.2.zip inp.2).map (fun x => f32Add x.1 x.2))
  else if d.rmode = 3 then (Nat.lor acc.1 inp.1, (acc.2.zip inp.2).map (fun x => max x.1 x.2))
  else
    let (es, ov) := addExact (exactWidth d).1 acc.2 inp.2
    (Nat.lor (Nat.lor acc.1 inp.1) (if ov then 2 else 0), es)

/-- Whether bits of a format spell an infinity. -/
def infBits (f : Fmt) (b : Nat) : Bool :=
  match f.decode b with
  | .inf _ => true
  | _ => false

/-- Whether rounding made an infinity of a sum none of whose inputs is one (R142, R144). -/
def roundedInf (f : Fmt) (ins : List (List Nat)) (out : List Nat) : Bool :=
  out.zipIdx.any (fun x => infBits f x.1 && ins.all (fun l => !infBits fmtFp32 (l.getD x.2 0)))

/-- A part combined: the local input first, then the ports in ascending order; packet flags, the contributions summed, the
elements, and whether rounding made an infinity (R141, R142, R144). -/
def combine (d : Desc) (loc : Option (Nat × List Nat)) (ins : List (Nat × Nat × Nat × List Nat)) : Nat × Nat × List Nat × Bool :=
  let ports := (List.range 16).filterMap (fun p => ins.find? (fun x => x.1 == p))
  let conv (x : Nat × Nat × Nat × List Nat) : Nat × List Nat :=
    (x.2.2.1, if d.rmode = 0 then x.2.2.2.map (toFp32 d.wireFmt) else x.2.2.2)
  let all := (match loc with | some l => [l] | none => []) ++ ports.map conv
  let contrib := (ports.map (fun x => x.2.1)).sum + (if loc.isSome then 1 else 0)
  match all with
  | [] => (0, contrib, [], false)
  | a :: rest =>
    let a := if d.rmode = 0 then (a.1, a.2.map (fun x => f32 (ofF32 x))) else a
    let r := rest.foldl (addInput d) a
    if d.rmode = 0 then
      let es := r.2.map (fun x => (fmtOf d.wireFmt).encode (ofF32 x))
      (r.1, contrib, es, roundedInf (fmtOf d.wireFmt) (all.map Prod.snd) es)
    else (r.1, contrib, r.2, false)

/-! ## Packets (R151) -/

/-- A VC 0 packet to the partner of a port. -/
def vc0Packet (s : State) (port : Nat) (d : Desc) (i p w ex flags contrib : Nat) (payload : List Byte) : List Byte :=
  leBytes 2 (s.get (elvPartnerNode port)) ++ leBytes 2 (ownId s + d.mode * 4096) ++ leBytes 2 (i + p * 1024) ++
    leBytes 2 (s.get calStepStep % 4096 + s.get calTryTry * 4096) ++ leBytes 4 w ++ leBytes 1 ex ++ leBytes 1 flags ++
    leBytes 2 (contrib % 8192) ++ payload

/-- Elements laid out as payload. -/
def elemBytes (size : Nat) (es : List Nat) : List Byte := es.flatMap (leBytes size)

/-- A part sent on every port of a mask. -/
def sendPart (mask : Nat) (d : Desc) (i p w flags contrib : Nat) (es : List Nat) (s : State) : State :=
  let ex := if d.rmode = 1 ∨ d.rmode = 2 then (agreed s d w).getD 0 else 0
  State.each (portsOf mask) (fun q t =>
    sendPacket q (vc0Packet t q d i p w ex flags contrib (elemBytes d.elemSize es)) t) s

/-! ## Results at an owner (R142, R150) -/

/-- Bytes of a result element. -/
def outSize (d : Desc) : Nat :=
  if d.outFmt = 3 then (if d.rmode = 1 then 8 else 16) else if d.rmode = 5 then d.elemSize else fmtBytes d.outFmt

/-- A result element, and whether rounding made it an infinity. -/
def outElem (d : Desc) (ex nonfinite e : Nat) : Nat × Bool :=
  let f := fmtOf d.outFmt
  if d.rmode = 0 then
    let v := (fmtOf d.wireFmt).decode e
    (f.encode v, f.overflows v)
  else if d.rmode = 5 then (e, false)
  else
    let wd := (exactWidth d).1
    if d.outFmt = 3 then (wrapInt (if d.rmode = 1 then 64 else 128) (sgn wd e), false)
    else if nonfinite = 1 then (f.nanBits, false)
    else
      let v := Fp.ofGrid false (sgn wd e) ((ex : Int) - (if d.rmode = 1 then 161 else 189))
      (f.encode v, f.overflows v)

/-- Bits [3:0] of a window's status byte written; the others stand (R142). -/
def writeStatus (d : Desc) (w flags : Nat) (s : State) : State :=
  let (g, s) := useGet nodeReq (d.wstat + w) 1 0 0 none s
  store nodeReq (d.wstat + w) [BitVec.ofNat 8 (leNat g.bytes / 16 * 16 + flags % 16)] s

/-- NOAGREE, bit 4 of a window's status byte, set or cleared (R146). -/
def statusBit4 (a : Nat) (v : Bool) (s : State) : State :=
  let (g, s) := useGet nodeReq a 1 0 0 none s
  store nodeReq a [BitVec.ofNat 8 (clearBits (leNat g.bytes) 16 + 16 * b2n v)] s

/-- A mask of ports noted once. -/
def noteMask (m : Nat) (l : List Nat) : List Nat := if m = 0 ∨ l.contains m then l else l ++ [m]

/-- The FLAGS of the descriptor that a slot points to. -/
def descFlags (s : State) (i : Nat) : Nat := nodeNat s ((slotOf s i).desc + 10) 2

/-- Whether a slot is a gather confirm. -/
def isGatherConfirm (s : State) (i : Nat) : Bool :=
  (slotOf s i).cls == 0 && (slotOf s i).phase == 2 && bitOf (descFlags s i) 0

/-- Whether a slot is the step's confirm. -/
def isConfirm (s : State) (i : Nat) : Bool := (slotOf s i).cls == 0 && (slotOf s i).phase == 2 && !bitOf (descFlags s i) 0

/-- Whether a collective slot lies after the commit point (R45). -/
def afterCommit (s : State) (i : Nat) : Bool := (depChain s i).any (isConfirm s)

/-- Whether a slot repeats the all-gather (R167). -/
def isRepeat (s : State) (i : Nat) : Bool :=
  (slotOf s i).cls == 0 && (slotOf s i).phase == 3 && bitOf (descFlags s i) 1

/-- Which confirm hears how a slot ended (R155, R158): 0 the step's; 1 the gather's, of an all-gather and of a reduce-scatter
after the commit point; 2 none, after the commit point and in a try already settled. -/
def hears (s : State) (i : Nat) : Nat :=
  let x := slotOf s i
  let post := afterCommit s i
  if x.phase = 3 ∨ (x.phase = 0 ∧ post) then 1 else if post ∨ s.cal.settled ≠ [] ∨ s.cal.passed.contains i then 2 else 0

/-- A failed phase noted for the confirm that hears of it (R155). -/
def noteFail (i : Nat) (s : State) : State :=
  if hears s i = 0 then s.onCal (fun c => { c with failPeer := true })
  else if hears s i = 1 then s.onCal (fun c => { c with gFail := true }) else s

/-- The windows that one combined window stands for: itself, or for MAX8 those of its group of 256 that a segment holds. -/
def groupWindows (d : Desc) (gs : List Seg) (w : Nat) : List Nat :=
  if d.rmode = 3 then ((List.range 256).map (w + ·)).filter (fun v =>
    gs.any (fun g => decide (g.first ≤ v) && decide (v < g.first + g.count)))
  else [w]

/-- A window that an owner has finished with: its status written, its bytes unless INCOMPLETE, and what it means for
the confirm (R142, R149, R155). -/
def endWindow (i w : Nat) (missing : Nat) (s : State) : State :=
  let d := slotDesc s i
  let k := winKey i w
  let x := Tab.get ⟨0, []⟩ s.cal.wins k
  let inc := bitOf x.flags 2
  let h := hears s i
  let vs := groupWindows d (slotSegs s i) w
  let s := State.each vs (fun v => writeStatus d v (if d.rmode = 5 then (if inc then 4 else 0) else x.flags)) s
  let s := if inc then s.bump calIncompleteWindows vs.length
    else x.parts.foldl (fun t p =>
      store nodeReq (d.dst + w * 256 * outSize d + p.1 * d.elems * outSize d) p.2 t) s
  let s := if bitOf x.flags 0 ∧ d.rmode ≠ 5 then raise calEvtNonfinite s else s
  let s := if bitOf x.flags 1 then fault .data 1 (i % 1024) w 5 none (raise calEvtOverflow s) else s
  s.onCal (fun c => { c with
    wins := Tab.set ⟨0, []⟩ c.wins k ⟨0, []⟩
    ended := Tab.set 0 c.ended k (if inc then 2 else 1)
    nonfinite := c.nonfinite || (h == 0 && bitOf x.flags 0)
    missing := if inc ∧ h = 0 then noteMask missing c.missing else c.missing
    failPeer := c.failPeer || (h == 0 && (bitOf x.flags 1 || (inc && missing == 0)))
    gMissing := if inc ∧ h = 1 then noteMask missing c.gMissing else c.gMissing
    gFail := c.gFail || (h == 1 && inc && missing == 0) })

/-- One finished part of an owned window; `rounded`: combining it made an infinity (R142, R150). -/
def ownPart (i : Nat) (g : Seg) (w p flags contrib : Nat) (check rounded : Bool) (es : List Nat) (s : State) : State :=
  let d := slotDesc s i
  let k := winKey i w
  let inc := (check && contrib != g.expect) || bitOf flags 1
  let ex := if d.rmode = 1 ∨ d.rmode = 2 then (agreed s d w).getD 0 else 0
  let r := es.map (outElem d ex (flags % 2))
  let range := rounded || r.any Prod.snd
  let x := Tab.get ⟨0, []⟩ s.cal.wins k
  let x' : CalWin := ⟨Nat.lor x.flags (flags % 4 + (if inc then 4 else 0) + (if range then 8 else 0)),
    x.parts ++ [(p, elemBytes (outSize d) (r.map Prod.fst))]⟩
  let s := s.onCal (fun c => { c with wins := Tab.set ⟨0, []⟩ c.wins k x' })
  if x'.parts.length = d.parts then endWindow i w g.inPorts s else s

/-- The agreed bytes of a group of windows written, NOAGREE cleared (R146); outside the agreement phase a MAX8 result
goes to DST. Bits [3:0] of the status bytes follow (R142). -/
def ownMax8 (i : Nat) (gs : List Seg) (w : Nat) (es : List Nat) (s : State) : State :=
  let d := slotDesc s i
  let base := if (slotOf s i).phase = 1 then d.exp else d.dst
  let s := State.each (groupWindows d gs w) (fun v t =>
    let t := store nodeReq (base + v) [BitVec.ofNat 8 (es.getD (v - w) 0)] t
    if (slotOf t i).phase = 1 then statusBit4 (d.wstat + v) false t else t) s
  endWindow i w 0 s

/-! ## Slots end (R143, R168) -/

/-- Open entries and windows of a slot discarded. -/
def dropEntries (i : Nat) (s : State) : State :=
  s.onCal (fun c => { c with
    store := c.store.filter (fun e => e.2.slot != i)
    wins := c.wins.filter (fun e => e.1 / 2 ^ 32 != i)
    ended := c.ended.filter (fun e => e.1 / 2 ^ 32 != i)
    progress := Tab.set 0 c.progress i 0
    derive := c.derive.filter (fun j => j != i)
    descs := Tab.set [] c.descs i []
    segs := Tab.set [] c.segs i [] })

/-- The ports on which a window lacks an input, over its parts. -/
def lacking (s : State) (i : Nat) (d : Desc) (g : Seg) (w : Nat) : Nat :=
  let have_ := (s.cal.store.filter (fun e => e.2.slot == i && e.2.window == w)).map (fun e =>
    (e.2.inputs.map (fun x => 2 ^ x.1)).foldl Nat.lor 0)
  let done := (Tab.get ⟨0, []⟩ s.cal.wins (winKey i w)).parts.length
  let open_ := have_.foldl (fun m h => Nat.lor m (Nat.xor g.inPorts (Nat.land g.inPorts h))) 0
  if have_.length + done < d.parts then g.inPorts else open_

/-- Every window of a slot that this node owns and has not finished ends INCOMPLETE (R142); with `all`, every one that it
writes. -/
def endOpenWindows (i : Nat) (all : Bool) (s : State) : State :=
  let d := slotDesc s i
  let gs := slotSegs s i
  if d.rmode = 4 then s
  else gs.foldl (fun s g =>
    if g.root || all then (segWindows d gs g).foldl (fun s w =>
      if Tab.get 0 s.cal.ended (winKey i w) ≠ 0 then s
      else
        let m := lacking s i d g w
        let x := Tab.get ⟨0, []⟩ s.cal.wins (winKey i w)
        endWindow i w m (s.onCal (fun c => { c with
          wins := Tab.set ⟨0, []⟩ c.wins (winKey i w) { x with flags := Nat.lor x.flags 4 } }))) s
    else s) s

/-- The descriptor and the segment table of a slot as read now, and the reason that refuses them, 0 for none (R133, R135). -/
def slotRead (s : State) (i : Nat) : List Byte × List Byte × Nat :=
  let x := slotOf s i
  let bad (a n : Nat) : Bool := !servedRange s a n || nodePoisonRange s a n
  let b := nodeBytes s x.desc 64
  let n := (descOf b).segments
  let a := (descOf b).seg
  let t := if n = 0 ∨ 4096 < n ∨ bad a (16 * n) then [] else nodeBytes s a (16 * n)
  (b, t, descReason s x.phase b t (bad x.desc 64))

/-- The accesses of reading a slot's descriptor and segment table. -/
def touchDesc (i : Nat) (s : State) : State :=
  let x := slotOf s i
  let s := touch nodeReq x.desc 64 s
  let d := descOf (nodeBytes s x.desc 64)
  if d.segments = 0 ∨ 4096 < d.segments then s else touch nodeReq d.seg (16 * d.segments) s

/-- The descriptor and segments of a slot kept for its run. -/
def keepDesc (i : Nat) (b t : List Byte) (s : State) : State :=
  s.onCal (fun c => { c with descs := Tab.set [] c.descs i b, segs := Tab.set [] c.segs i t })

/-- The windows of a slot that has not started, taken from its descriptor when that can be read. -/
def descForLate (i : Nat) (s : State) : State :=
  let s := if Tab.get [] s.cal.descs i = [] then touchDesc i s else s
  let r := slotRead s i
  if Tab.get [] s.cal.descs i = [] ∧ (r.2.2 = 0 ∨ 5 ≤ r.2.2) then keepDesc i r.1 r.2.1 s else s

/-- Whether a slot repeats the all-gather and is the last repeat slot of the plan. -/
def lastRepeat (s : State) (i : Nat) : Bool :=
  isRepeat s i && !(List.range (planSlots s)).any (fun j => decide (i < j) && isRepeat s j)

/-- Whether a slot belongs to the gather of a step: an all-gather, a repeat or a gather confirm. -/
def gatherKind (s : State) (i : Nat) : Bool := ((slotOf s i).cls == 0 && (slotOf s i).phase == 3) || isGatherConfirm s i

/-- Whether slot `a` ends after slot `b` in a cycle. -/
def endsAfter (s : State) (a b : Nat) : Bool :=
  let k (i : Nat) : Nat := ((slotOf s i).first + (slotOf s i).count) * 2 ^ 32 + (slotOf s i).start * 2 ^ 10 + i
  decide (k b < k a)

/-- Whether a slot is the last of the gather of its step, in a plan that confirms a gather: no slot of the gather ends later
before the next confirm of a step (R168). -/
def gatherLast (s : State) (i : Nat) : Bool :=
  let l := List.range (planSlots s)
  gatherKind s i && l.any (isGatherConfirm s) &&
    !l.any (fun j => gatherKind s j && endsAfter s j i && !l.any (fun c => isConfirm s c && endsAfter s c i && endsAfter s j c))

/-- What the end of a slot of the gather brings: no repeat is outstanding after the last one, and when the last slot of the
gather ends without GATHER_DONE accepted, GATHER_FAILED is raised (R168). -/
def gatherEnd (i : Nat) (s : State) : State :=
  let s := if lastRepeat s i then s.set calStatusGatherPending 0 else s
  if gatherLast s i ∧ s.cal.gather ≠ 1 then fault .step 4 0 (s.get calVerdictLast) 3 none (raise calEvtGatherFailed s) else s

/-- The gather confirm that a repeat slot depends on through DEP_SLOT, the nearest (R167). -/
def repeatConfirm (s : State) (i : Nat) : Option Nat := (depChain s i).find? (isGatherConfirm s)

/-- Whether a repeat slot is to run: GATHER_REPEAT was accepted from its gather confirm (R167). -/
def repeatRuns (s : State) (i : Nat) : Bool :=
  match repeatConfirm s i with
  | some c => Tab.get 0 s.cal.gverd c == 2
  | none => false

/-- Repeat slots whose gather confirm has ended otherwise complete at once (R45, R167). -/
def settleRepeats (s : State) : State :=
  let ended (i : Nat) : Bool :=
    match repeatConfirm s i with
    | some c => slotState s c == .done || slotState s c == .late
    | none => true
  State.each ((List.range (planSlots s)).filter (fun i => isRepeat s i && slotState s i == .sched && ended i && !repeatRuns s i))
    (fun i t => gatherEnd i (endSlot i .done t)) s

/-- The held form of the pre-commit abort (R165). -/
def holdStep (s : State) : State :=
  let s := (s.set calStatusState 3).set calStatusOut 1
  fault .step 2 0 (s.get calVerdictLast) 0 none (raise calEvtVerdictLost s)

/-- Whether a slot is an agreement or all-reduce after the commit point, whose late dependents are cancelled (R45). -/
def postReduce (s : State) (i : Nat) : Bool :=
  ((slotOf s i).phase == 1 || (slotOf s i).phase == 4) && afterCommit s i

/-- What R45 does with a late collective slot, its dependents apart. An all-gather that R625 holds takes the second row only;
one before the commit point takes the first row as well. A reduce-scatter after the commit point has no row of its own; it
is handled as an all-gather (DESIGN CHOICE, assumption 68). -/
def lateEffect (i : Nat) (s : State) : State :=
  let x := slotOf s i
  let red := postReduce s i
  let row1 := !afterCommit s i && !gatherHeld s i
  let s := if red then descForLate i s else s
  let s := if slotState s i == .running || red then endOpenWindows i red s else s
  let s := dropEntries i s
  if isGatherConfirm s i then settleRepeats (gatherEnd i (endSlot i .late s))
  else if x.phase = 2 then holdStep (endSlot i .aborted s)
  else if red then raise calEvtPostcommitLate (endSlot i .cancelled s)
  else
    let s := noteFail i (endSlot i .late s)
    let s := if x.phase = 3 ∧ row1 ∧ s.cal.settled = [] ∧ ¬ s.cal.passed.contains i then s.onCal (fun c => { c with failPeer := true })
      else s
    gatherEnd i s

/-- Whether the dependents of a late collective slot are cancelled. -/
def lateCancels (s : State) (i : Nat) : Bool := isConfirm s i || postReduce s i

/-- Every scheduled slot that depends on a rejected slot is cancelled for the tick; a cancelled collective slot takes the
handling of its own phase (R45, R260). -/
def cancelDependents (i : Nat) (s : State) : State :=
  State.each (dependents s i) (fun j s =>
    if slotState s j = .sched then
      (if (slotOf s j).cls = 0 then lateEffect j s else endSlot j .cancelled s)
    else s) s

/-- Every scheduled slot that depends on a slot cancelled, with no more effect (R45, R162, R165). -/
def cancelPlain (i : Nat) (s : State) : State :=
  State.each (dependents s i) (fun j s => if slotState s j = .sched then endSlot j .cancelled s else s) s

/-- The late handling of a collective slot (R45). -/
def lateCollective (i : Nat) (s : State) : State :=
  let c := lateCancels s i
  let s := lateEffect i s
  if c then cancelPlain i s else s

/-- What the late record names as done: abort and retry, the gather repeated, the item deferred, or nothing. -/
def lateAction (s : State) (i : Nat) : Nat :=
  let x := slotOf s i
  if x.cls = 0 then (if x.phase = 3 then 3 else if afterCommit s i ∨ isGatherConfirm s i then 0 else 2)
  else if x.cls = 5 then 0 else 6

/-! ## Verdicts (R157 to R165) -/

/-- The payload of a beacon that this node launches as timekeeper: a tick beacon repeats the units granted in the tick before
(R23). -/
def beaconBytes (s : State) (kind kindData : Nat) : List Byte :=
  let armed := s.flag tickSwitchCtlArmed
  let ext := if kind = 0 then s.get tickHoldStatGranted else s.tick.ext
  leBytes 8 (s.get tickCountCount) ++ leBytes 2 (ownId s + s.get tickTkRank * 4096) ++ leBytes 2 (s.get tickTkEpoch) ++
    leBytes 4 0 ++ leBytes 1 0 ++ leBytes 1 kind ++ leBytes 1 ext ++ leBytes 1 (b2n armed) ++
    leBytes 4 (s.get tickPeriodCycles) ++ leBytes 8 (if armed then s.get tickSwitchAtAt else 0) ++
    leBytes 4 (if armed then s.get tickSwitchPlanId else 0) ++ leBytes 4 0 ++ leBytes 8 kindData

/-- Ports for leaf copies of a beacon: every UP, eligible port that is neither UP nor ALT of the loaded entry, where they
apply, nor in DOWN (R98, R106). -/
def leafPorts (s : State) : Nat :=
  if s.flag fabCtlLeafBeacons then
    ((List.range 16).map (fun p =>
      b2n (portLive s p && bcnEligible s p && !bitOf (s.get tickBeaconPortDown) p &&
        !(s.tick.upOk && p == s.get tickBeaconPortUp) && !(s.tick.altOk && p == s.get tickBeaconPortAlt)) * 2 ^ p)).sum
  else 0

/-- A beacon launched by the timekeeper on its DOWN ports and as leaf copies. -/
def launchBeacon (kind kindData : Nat) (s : State) : State :=
  sendCtrlMask (Nat.lor (s.get tickBeaconPortDown) (leafPorts s)) 1 (beaconBytes s kind kindData) s

/-- The verdict fields of KIND_DATA (R159). -/
def kindData (step try_ verdict cause : Nat) : Nat :=
  step % 2 ^ 32 + try_ % 16 * 2 ^ 32 + verdict * 2 ^ 36 + cause * 2 ^ 40

/-- Running confirm slots, of the step or of the gather. -/
def runningConfirms (s : State) (gather : Bool) : List Nat :=
  (List.range (planSlots s)).filter (fun i =>
    slotState s i == .running && (if gather then isGatherConfirm s i else isConfirm s i))

/-- A RECOVERED claim noted at the start of the step's confirm returns to NONE (R566). -/
def clearClaims (s : State) : State :=
  let s := State.each (portsOf s.flt.cleared) (fun p t =>
    if t.get (telClaimState p) = 2 then t.set (telClaimState p) 0 else t) s
  { s with flt := { s.flt with cleared := 0 } }

/-- What a settled step leaves for the next try or step. -/
def stepReset (s : State) : State :=
  s.onCal (fun c => { c with
    missing := [], failPeer := false, nonfinite := false, startEpoch := none, notice := false, sentFailLink := false })

/-- Whether a slot is an engine or stream batch, which SKIP completes at once (R333; the streams DEDUCED, assumption 68). -/
def skips (x : Slot) : Bool := x.cls == 1 || x.cls == 2

/-- Engine and stream batches that depend on a skipped confirm complete at once (R333). -/
def completeDependents (i : Nat) (s : State) : State :=
  State.each (dependents s i) (fun j s => if skips (slotOf s j) ∧ slotState s j = .sched then endSlot j .done s else s) s

/-- The confirm slots of the step that a verdict ends: those that run, or the first of the tick that no verdict has met,
started or not. -/
def confirmSlots (s : State) : List Nat :=
  match runningConfirms s false with
  | [] => ((List.range (planSlots s)).filter (fun i => runsNow s i && isConfirm s i && !s.cal.launched.contains i)).take 1
  | l => l

/-- The confirm slot of the step that the plan reaches next after this tick. -/
def nextConfirm (s : State) : Option Nat :=
  let cyc := max (planCycle s) 1
  let dist (i : Nat) : Nat := if runsNow s i then cyc else ((slotOf s i).first + cyc - s.tick.pos) % cyc
  ((List.range (planSlots s)).filter (isConfirm s)).foldl (fun m i =>
    match m with
    | none => some i
    | some j => if dist i < dist j then some i else some j) none

/-- A confirm slot that a verdict ends; its open entries are discarded (R143, R160). One that was not to start stays so. -/
def endConfirm (v : SlotSt) (i : Nat) (s : State) : State :=
  let s := dropEntries i (if slotState s i = .running then finishSlot i v s
    else if slotState s i = .sched then endSlot i v s else s)
  s.onCal (fun c => { c with launched := if c.launched.contains i then c.launched else c.launched ++ [i] })

/-- A node accepts COMMIT or SKIP: CAL_STEP advances, CAL_TRY is 0, RECOVERED claims clear (R154, R160, R566). -/
def acceptCommit (skip : Bool) (kd : Nat) (s : State) : State :=
  let cs := confirmSlots s
  let held := s.get calStatusState = 3
  let s := State.each cs (endConfirm (if skip then .skipped else .done)) s
  let s := if skip then State.each cs completeDependents s else s
  let s := (((s.set calVerdictLast kd).set calStepStep (s.get calStepStep + 1)).set calTryTry 0).set calStatusState
    (if skip then 0 else 2)
  let s := if held then raise calEvtVerdictLate s else s
  let s := stepReset (clearClaims s)
  let s := s.onCal (fun c => { c with
    shardValid := !skip, gather := 0, gMissing := [], gFail := false, noticeGather := false, gverd := [] })
  if skip then fault .step 5 0 kd 0 none s else s

/-- Collective slots before the commit point that run. -/
def runningPre (s : State) : List Nat :=
  (List.range (planSlots s)).filter (fun i =>
    slotState s i == .running && (slotOf s i).cls == 0 && (slotOf s i).phase != 2 && hears s i == 0)

/-- A node accepts ABORT: the pre-commit abort, CAL_TRY advances, and RETRY_MAX stops the node's collectives (R154, R162,
R164). The step's confirm slot ends now, or when a later tick reaches it, and what depends on it is cancelled then. -/
def acceptAbort (kd : Nat) (s : State) : State :=
  let cs := confirmSlots s
  let held := s.get calStatusState = 3
  let port := if bits kd 40 8 = 1 ∧ s.cal.sentFailLink then
      (portsOf (s.cal.missing.foldl Nat.lor 0)).find? (fun p => s.get (telClaimState p) != 0) else none
  let ahead := if cs = [] ∧ ¬ held then (nextConfirm s).toList else []
  let pre := runningPre s
  let s := State.each cs (fun i t => cancelPlain i (endConfirm .aborted i t)) s
  let out := s.flag calStatusOut
  let s := ((s.set calVerdictLast kd).set calTryTry (s.get calTryTry + 1)).set calStatusState 0
  let s := stepReset (raise calEvtAbort s)
  let s := s.onCal (fun c => { c with shardValid := false, settled := c.settled ++ ahead, passed := c.passed ++ pre })
  let s := fault .step 1 0 kd 2 port s
  if s.get calCtlRetryMax ≤ s.get calTryTry ∧ (held ∨ ¬ out) then
    fault .step 3 0 kd 0 none (raise calEvtRetryExhausted (s.set calStatusOut 1))
  else s

/-- The gather confirms that a gather verdict ends: those that run, or the first that is scheduled, or those that ended late
without one. -/
def gatherSlots (s : State) : List Nat :=
  let open_ (v : SlotSt) : List Nat := (List.range (planSlots s)).filter (fun i =>
    isGatherConfirm s i && slotState s i == v && Tab.get 0 s.cal.gverd i == 0)
  match runningConfirms s true, (open_ .sched).take 1 with
  | [], [] => open_ .late
  | [], l => l
  | l, _ => l

/-- A node accepts GATHER_DONE or GATHER_REPEAT: its gather confirm completes, and repeat slots that are not to run complete
at once (R160, R161, R167, R168). -/
def acceptGather (again : Bool) (kd : Nat) (s : State) : State :=
  let cs := gatherSlots s
  let v := if again then 2 else 1
  let s := State.each cs (endConfirm .done) s
  let s := (s.set calVerdictLast kd).onCal (fun c => { c with
    gather := v, gFail := false, gMissing := [], gverd := cs.foldl (fun m i => Tab.set 0 m i v) c.gverd })
  let s := if again then raise calEvtGatherRepeat (s.set calStatusGatherPending 1) else s
  settleRepeats (State.each cs gatherEnd s)

/-- A verdict that matches the node's step and try, or its gather, takes effect; any other is ignored (R160, R161,
R171). -/
def acceptVerdict (kd : Nat) (s : State) : State :=
  let step := bits kd 0 32
  let try_ := bits kd 32 4
  let v := bits kd 36 4
  let own := s.get calStepStep
  if v = 0 ∨ v = 1 ∨ v = 4 then
    (if step = own % 2 ^ 32 ∧ try_ = s.get calTryTry then
      (if v = 1 then acceptAbort kd s else acceptCommit (v == 4) kd s)
     else s)
  else if v = 2 ∨ v = 3 then
    (if step = (own + 2 ^ 32 - 1) % 2 ^ 32 ∧ try_ = 0 ∧ s.cal.gather ≠ 1 then acceptGather (v == 3) kd s else s)
  else s

/-- The timekeeper launches a verdict for a confirm slot: one per slot, logged at the index of its count, and accepted by
itself (R157 to R159). -/
def launchVerdict (i verdict cause : Nat) (s : State) : State :=
  if s.cal.launched.contains i ∨ ¬ s.flag tickStatusTk then s
  else
    let gather := verdict = 2 ∨ verdict = 3
    let own := s.get calStepStep
    let kd := if gather then kindData (own + 2 ^ 32 - 1) 0 verdict cause else kindData own (s.get calTryTry) verdict cause
    let s := (launchBeacon 2 kd s).set (calVlogEntry ((s.cal.vlogCount + 1) % 16)) kd
    let s := s.onCal (fun c => { c with vlogCount := c.vlogCount + 1, launched := c.launched ++ [i] })
    acceptVerdict kd s

/-- Whether the step's reduce-scatter began under an earlier epoch (R52). -/
def earlierEpoch (s : State) : Bool :=
  match s.cal.startEpoch with
  | some e => e != s.get tickTkEpoch
  | none => false

/-- The cause of an ABORT or GATHER_REPEAT: the first that applies of R567; `fl`, `fp` the combined flags. -/
def abortCause (s : State) (gather fl fp : Bool) : Nat :=
  if !gather && earlierEpoch s then 4
  else if (if gather then s.cal.noticeGather else s.cal.notice) then 3
  else if fl then 1
  else if fp then 2
  else 6

/-- ABORT, or GATHER_REPEAT for a gather confirm. -/
def launchAbort (i : Nat) (fl fp : Bool) (s : State) : State :=
  let g := isGatherConfirm s i
  launchVerdict i (if g then 3 else 1) (abortCause s g fl fp) s

/-- The timekeeper's decision on the combined confirm of a slot (R157, R158); a step begun under an earlier epoch is not
committed, its ABORT comes at the next round deadline (R52). -/
def decide_ (i : Nat) (g : Seg) (rec_ : Nat) (all : Bool) (s : State) : State :=
  let fl := bitOf rec_ 49
  let fp := bitOf rec_ 50
  let gather := isGatherConfirm s i
  let late := if gather then s.cal.noticeGather else s.cal.notice
  if fl ∨ fp then launchAbort i fl fp s
  else if all ∧ bits rec_ 36 13 = g.expect ∧ (gather ∨ !earlierEpoch s) then
    (if late then launchAbort i false false s
     else if gather then launchVerdict i 2 0 s
     else if bitOf rec_ 51 ∧ s.flag calCtlAbortNonfinite then launchVerdict i 4 5 s
     else launchVerdict i 0 0 s)
  else s

/-! ## Caldera (R139 to R141) -/

/-- One more part done; the slot completes with its last one. -/
def partDone (i : Nat) (s : State) : State :=
  let n := Tab.get 0 s.cal.progress i + 1
  let s := s.onCal (fun c => { c with progress := Tab.set 0 c.progress i n })
  if n = slotTotal s i ∧ (slotDesc s i).rmode ≠ 4 then
    gatherEnd i (dropEntries i (completeSlot i s))
  else s

/-- The node's own confirm record (R153, R155, R161). -/
def ownConfirm (s : State) (gather : Bool) : Nat :=
  let miss := if gather then s.cal.gMissing else s.cal.missing
  let onClaim (m : Nat) : Bool := (portsOf m).any (fun p => s.get (telClaimState p) != 0)
  let claimed := miss.any onClaim
  let peer := (if gather then s.cal.gFail else s.cal.failPeer) || miss.any (fun m => !onClaim m)
  (if gather then (s.get calStepStep + 2 ^ 32 - 1) % 2 ^ 32 else s.get calStepStep % 2 ^ 32 + s.get calTryTry * 2 ^ 32) +
    2 ^ 36 + b2n claimed * 2 ^ 49 + b2n peer * 2 ^ 50 + b2n (!gather && s.cal.nonfinite) * 2 ^ 51 + b2n gather * 2 ^ 52

/-- Two confirm records combined: counts added, flags ORed (R153). -/
def addConfirm (a b : Nat) : Nat :=
  (if a = 0 then b else a) % 2 ^ 36 + (bits a 36 13 + bits b 36 13) % 8192 * 2 ^ 36 +
    ((List.range 4).map (fun k => b2n (bitOf a (49 + k) || bitOf b (49 + k)) * 2 ^ (49 + k))).sum

/-- The accumulator entry of a part (R139). -/
def entryOf (d : Desc) (w p : Nat) : Nat := (d.accBase + (w * d.parts + p) % d.accCount) % 16384

/-- The accumulator entries that a part of a segment occupies: in FLOAT one more than its ports, from its entry on and
wrapping within the reservation; else one (R139). -/
def entryRun (d : Desc) (g : Option Seg) (w p : Nat) : List Nat :=
  let n := if d.rmode = 0 then 1 + ((g.map (fun x => (portsOf x.inPorts).length)).getD 0) else 1
  (List.range n).map (fun j => (d.accBase + (w * d.parts + p + j) % d.accCount) % 16384)

/-- A part with every input present: combined, then sent on, sent down, or written (R138, R141). An overflow of this node's
own additions is reported here (R149), at the root with the window. The node's own confirm record stands among the
inputs. -/
def finishPart (i : Nat) (g : Seg) (w p : Nat) (ins : List (Nat × Nat × Nat × List Nat)) (s : State) : State :=
  let d := slotDesc s i
  if d.rmode = 4 then
    let r := ins.foldl (fun a x => addConfirm a (x.2.2.2.getD 0 0)) 0
    if g.root then decide_ i g r true s
    else State.each (portsOf g.outMask) (fun q t =>
      sendPacket q (vc0Packet t q d i 0 0 0 0 (bits r 36 13) (leBytes 16 r)) t) s
  else
    let gs := slotSegs s i
    let (loc, s) := if g.loc then localPart d gs w p s else (none, s)
    if g.loc ∧ loc.isNone then noteFail i s
    else
      let (flags, contrib, es, rounded) := combine d loc ins
      let allReduce := (slotOf s i).phase = 1 ∨ (slotOf s i).phase = 4
      if g.root then
        let bad := contrib ≠ g.expect ∨ bitOf flags 1
        let s := if allReduce ∧ ¬ bad then sendPart g.inPorts d i p w flags contrib es s else s
        let s := if d.rmode = 3 then
            (if bad then endWindow i w 0 (s.onCal (fun c => { c with wins := Tab.set ⟨0, []⟩ c.wins (winKey i w) ⟨4, []⟩ }))
             else ownMax8 i gs w es s)
          else ownPart i g w p flags contrib true rounded es s
        partDone i s
      else
        let own := bitOf flags 1 ∧ ¬ ins.any (fun x => bitOf x.2.2.1 1)
        let s := if own then fault .data 1 (i % 1024) w 5 none (raise calEvtOverflow s) else s
        let s := sendPart g.outMask d i p w flags contrib es s
        if allReduce then s else partDone i s

/-- One part of a COPY: sent on at once and written where it is delivered. -/
def copyPart (i : Nat) (g : Seg) (w p : Nat) (es : List Nat) (s : State) : State :=
  let d := slotDesc s i
  let s := sendPart g.outMask d i p w 0 1 es s
  partDone i (if g.root then ownPart i g w p 0 1 false false es s else s)

/-- The parts of a segment that need nothing from a port, at the start of a slot. -/
def startParts (i : Nat) (s : State) : State :=
  let d := slotDesc s i
  let gs := slotSegs s i
  gs.foldl (fun s g =>
    if g.inPorts ≠ 0 ∨ ¬ g.loc then s
    else (segWindows d gs g).foldl (fun s w =>
      (List.range d.parts).foldl (fun s p =>
        if d.rmode = 5 then
          (match localPart d gs w p s with
           | (some x, s) => copyPart i g w p x.2 s
           | (none, s) => noteFail i s)
        else finishPart i g w p [] s) s) s) s

end Sys2Proof.Machine
end

