-- ==== Sys2Proof/Machine/Collective.lean ====
section
/-! DEFINITION. The commands of collectives (R133 to R168) but for the arrival of a verdict beacon: the start of a
collective slot, a VC 0 packet, CAL_RESOLVE and CAL_CTL.RESUME. -/

namespace Sys2Proof.Machine

/-- NOAGREE set in the status byte of every window of an agreement slot (R146 step 1). -/
def markNoAgree (i : Nat) (s : State) : State :=
  let d := slotDesc s i
  (slotSegs s i).foldl (fun s g =>
    (List.range g.count).foldl (fun s k => statusBit4 (d.wstat + g.first + k) true s) s) s

/-- A part's inputs held in the accumulator store. -/
def setEntry (k : Nat) (e : CalEntry) (s : State) : State :=
  s.onCal (fun c => { c with store := Tab.set ⟨0, 0, 0, []⟩ c.store k e })

/-- The inputs of a part that a mask of ports still lacks. -/
def lacks (m : Nat) (ins : List (Nat × Nat × Nat × List Nat)) : Bool :=
  (portsOf m).any (fun p => !ins.any (fun x => x.1 == p))

/-- The node's own confirm at the start of a confirm slot (R155): RECOVERED claims noted (R566), the record held or sent;
a record with a failure flag at the root decides at once (R157). -/
def startConfirm (i : Nat) (s : State) : State :=
  let d := slotDesc s i
  let gather := isGatherConfirm s i
  let r := ownConfirm s gather
  let s := if gather then s
    else
      let m := ((List.range 16).map (fun p => b2n (s.get (telClaimState p) == 2) * 2 ^ p)).sum
      ({ s with flt := { s.flt with cleared := m } }).onCal (fun c => { c with sentFailLink := bitOf r 49 })
  match (slotSegs s i).head? with
  | none => s
  | some g =>
    let ins := [(16, 1, 0, [r])]
    if lacks g.inPorts ins then
      let s := setEntry (entryOf d 0 0) ⟨i, 0, 0, ins⟩ s
      if g.root then decide_ i g r false s else s
    else finishPart i g 0 0 ins s

/-- Whether every part of the local input of a slot can be read. -/
def localWhole (s : State) (i : Nat) : Bool :=
  let d := slotDesc s i
  let gs := slotSegs s i
  gs.all (fun g => !g.loc || (segWindows d gs g).all (fun w =>
    (List.range d.parts).all (fun p => (localPart d gs w p s).1.isSome)))

/-- A slot whose descriptor is refused: the reason, a PLAN record, and the handling of a late item of its phase, recorded as
one (R45, R133, R576). -/
def refuseSlot (i r : Nat) (s : State) : State :=
  fault .plan 1 (i % 1024) r 0 none (lateCollective i (recordLate i (lateAction s i) s))

/-- A slot whose descriptor passed begins: a confirm is sent, a repeat that is not to run completes at once, NOAGREE is set for
an agreement, and the parts that need no port are done (R146, R155, R160, R167). A repeat whose buffer is poisoned waits
for its derivation (R167). The epoch of the step is that of its first reduce-scatter (R52). -/
def slotBegin (i : Nat) (s : State) : State :=
  let x := slotOf s i
  let s := s.onCal (fun c => { c with passed := c.passed.filter (fun j => j != i) })
  let s := if x.phase ≤ 1 ∧ ¬ afterCommit s i then s.set calStatusState 1 else s
  if x.phase = 2 then startConfirm i s
  else if isRepeat s i ∧ ¬ repeatRuns s i then gatherEnd i (dropEntries i (completeSlot i s))
  else
    let s := if x.phase = 0 ∧ hears s i = 0 ∧ s.cal.startEpoch.isNone then
        s.onCal (fun c => { c with startEpoch := some (s.get tickTkEpoch) }) else s
    let s := if x.phase = 1 then markNoAgree i s else s
    if isRepeat s i ∧ ¬ localWhole s i then s.onCal (fun c => { c with derive := c.derive ++ [i] }) else startParts i s

/-- COLLECTIVE_SLOT_START: the descriptor and its segments are read and checked, the reason recorded, and the phase begins, or
takes the handling of a late item (R133 to R135, R164). -/
def execCollectiveSlotStart (slot : Fin 1024) (s : State) : Host.Outcome State Fault Refusal :=
  whole (fun s =>
    let i := slot.val
    if !startable s 0 i || s.flag calStatusOut then done s
    else
      let s := touchDesc i (startSlot i s)
      let r := slotRead s i
      let s := s.set calStatusDescReason r.2.2
      if r.2.2 ≠ 0 then done (refuseSlot i r.2.2 s)
      else done (slotBegin i (keepDesc i r.1 r.2.1 s))) s

/-! ## VC 0 packets (R140, R151, R152) -/

def vcMode (p : List Byte) : Nat := bits (leAt p 2 2) 12 4
def vcSlot (p : List Byte) : Nat := bits (leAt p 4 2) 0 10
def vcPart (p : List Byte) : Nat := bits (leAt p 4 2) 10 4
def vcStep (p : List Byte) : Nat := bits (leAt p 6 2) 0 12
def vcTry (p : List Byte) : Nat := bits (leAt p 6 2) 12 4
def vcWindow (p : List Byte) : Nat := leAt p 8 4
def vcExp (p : List Byte) : Nat := leAt p 12 1
def vcFlags (p : List Byte) : Nat := bits (leAt p 13 1) 0 2
def vcContrib (p : List Byte) : Nat := bits (leAt p 14 2) 0 13

/-- The elements of a packet, or the record of CONFIRM. -/
def vcElems (d : Desc) (p : List Byte) : List Nat :=
  if d.rmode = 4 then [leAt p 16 16]
  else (List.range d.elems).map (fun k => leAt p (16 + k * d.elemSize) d.elemSize)

/-- A packet dropped, counted as STALE or MISMATCH. -/
def vcDrop (stale : Bool) (s : State) : State := s.bump (if stale then calDropStale else calDropMismatch) 1

/-- Whether a slot is an all-reduce. -/
def isAllReduce (s : State) (i : Nat) : Bool := (slotOf s i).phase == 1 || (slotOf s i).phase == 4

/-- Whether an entry that a part needs is held by a different window or part (R139). -/
def entryTaken (s : State) (i : Nat) (g : Seg) (w p : Nat) : Bool :=
  let run := entryRun (slotDesc s i) (some g) w p
  s.cal.store.any (fun x =>
    let e := x.2
    let d := slotDesc s e.slot
    e.inputs != [] && !(e.slot == i && e.window == w && e.part == p) &&
      (entryRun d (segOfWindow d (slotSegs s e.slot) e.window) e.window e.part).any run.contains)

/-- An accepted input put into its entry; a complete part is combined (R139, R141). -/
def takeInput (port i : Nat) (g : Seg) (w p : Nat) (pkt : List Byte) (s : State) : State :=
  let d := slotDesc s i
  let es := vcElems d pkt
  if d.rmode = 5 then copyPart i g w p es s
  else
    let k := entryOf d w p
    let e := Tab.get ⟨0, 0, 0, []⟩ s.cal.store k
    if entryTaken s i g w p then
      fault .plan 2 i 0 10 none (s.bump (elvDropVc0 port) 1)
    else if e.inputs.any (fun x => x.1 == port) then vcDrop false s
    else
      let ins := e.inputs ++ [(port, vcContrib pkt, vcFlags pkt, es)]
      if lacks g.inPorts ins ∨ (d.rmode = 4 ∧ ¬ ins.any (fun x => x.1 == 16)) then
        let s := setEntry k ⟨i, w, p, ins⟩ s
        if d.rmode = 4 ∧ g.root then decide_ i g (ins.foldl (fun a x => addConfirm a (x.2.2.2.getD 0 0)) 0) false s else s
      else finishPart i g w p ins (setEntry k ⟨0, 0, 0, []⟩ s)

/-- The final result of an all-reduce on its way down: written here and sent on (R138). -/
def takeResult (i : Nat) (g : Seg) (w p : Nat) (pkt : List Byte) (s : State) : State :=
  let d := slotDesc s i
  let es := vcElems d pkt
  let s := sendPart g.inPorts d i p w (vcFlags pkt) (vcContrib pkt) es s
  let s := if d.rmode = 3 then
      ownMax8 i (slotSegs s i) w es s
    else ownPart i g w p (vcFlags pkt) (vcContrib pkt) false false es s
  partDone i s

/-- Whether a part of a window has been written already. -/
def partWritten (s : State) (i w p : Nat) : Bool :=
  Tab.get 0 s.cal.ended (winKey i w) != 0 || (Tab.get ⟨0, []⟩ s.cal.wins (winKey i w)).parts.any (fun x => x.1 == p)

/-- VC0_PACKET: a packet accepted under the checks of R140 into its entry, combined once its part is whole, or dropped
and counted (R138 to R143). -/
def execVc0Packet (port : Fin 16) (pkt : List Byte) (at_ : Nat) (s : State) : Host.Outcome State Fault Refusal :=
  let s := consume port pkt (s.reach at_)
  let i := vcSlot pkt
  let w := vcWindow pkt
  let p := vcPart pkt
  if vcStep pkt ≠ s.get calStepStep % 4096 ∨ vcTry pkt ≠ s.get calTryTry then done (vcDrop true s)
  else if pktDst pkt ≠ ownId s ∨ planSlots s ≤ i ∨ (slotOf s i).cls ≠ 0 ∨ slotState s i ≠ .running then done (vcDrop false s)
  else
    let d := slotDesc s i
    match segOfWindow d (slotSegs s i) w with
    | none => done (vcDrop false s)
    | some g =>
      if vcMode pkt ≠ d.mode ∨ d.parts ≤ p ∨ (d.rmode = 3 ∧ w % 256 ≠ 0) ∨
          ((d.rmode = 1 ∨ d.rmode = 2) ∧ agreed s d w ≠ some (vcExp pkt)) ∨ partWritten s i w p then done (vcDrop false s)
      else if bitOf g.inPorts port then done (takeInput port i g w p pkt s)
      else if isAllReduce s i ∧ ¬ g.root ∧ bitOf g.outMask port then done (takeResult i g w p pkt s)
      else done (vcDrop false s)

/-! ## CAL_RESOLVE and RESUME (R164 to R166) -/

/-- CAL_RESOLVE: a held node applies the verdict that the driver read on the timekeeper; CAL_VERDICT keeps the last
verdict accepted (R165). -/
def execCalResolve (value : BitVec 64) (s : State) : Host.Outcome State Fault Refusal :=
  let v := value.toNat
  let s := (s.set calResolveStep (bits v 0 32)).set calResolveVerdict (bits v 32 4)
  if !bitOf v 63 ∨ s.get calStatusState ≠ 3 ∨ bits v 0 32 ≠ s.get calStepStep % 2 ^ 32 then done s
  else
    let kd := kindData (s.get calStepStep) (s.get calTryTry) (bits v 32 4) 0
    let last := s.get calVerdictLast
    if bits v 32 4 = 0 then done ((acceptCommit false kd s).set calVerdictLast last)
    else if bits v 32 4 = 1 then done ((acceptAbort kd s).set calVerdictLast last)
    else done s

/-- CAL_RESUME: CAL_CTL.RESUME clears OUT after a re-plan (R164, R166). -/
def execCalResume (s : State) : Host.Outcome State Fault Refusal := done (s.set calStatusOut 0)

end Sys2Proof.Machine
end

