-- ==== Sys2Proof/Machine/Coherence.lean ====
section
/-! DEFINITION. Coherence and ordering (R424 to R451): the messages of L1s and slices, each command the arrival of one
message, and the fences of COH_FENCE. -/

namespace Sys2Proof.Machine

/-! ## The L1 (R425, R427) -/

/-- Whether an L1 has room for a line: fewer than 8 lines and requested lines in its set. -/
def l1Room (x : L1) (line : Nat) : Bool :=
  decide ((x.lines.filter (fun p => l1Set p.1 == l1Set line)).length +
    (x.reqs.filter (fun r => l1Set r.line == l1Set line && decide (r.kind < 2))).length < 8)

/-- Whether an engine may issue array accesses: no fence of its own or of COH_FENCE runs on it (R439, R447). -/
def engineFree (s : State) (e : Nat) : Bool := !bitOf s.coh.fenceEngines e && !bitOf s.coh.batchFence e

/-- The request an L1 sends. -/
def l1Request (kind e tag line : Nat) (s : State) : MReq :=
  ⟨e, kind, line * 128, 128, [], 1, 0, none, cycleNow s, 0, false, tag⟩

/-- The common part of RD_S, RD_X and UPG: the L1 opens the request and the slice receives it (R427, R428). -/
def l1Send (kind e tag line off : Nat) (data : List Byte) (s : State) : State :=
  if !engineFree s e || (s.l1 e).reqs.any (fun q => q.tag == tag || (q.line == line && decide (q.kind < 3))) then s
  else if refusal s (line * 128) ≠ 0 then mapErr e (line * 128) s
  else arrive (l1Request kind e tag line s) (guardCount (line * 128) 128 (l1Open e ⟨tag, line, kind - 3, off, data⟩ s))

/-- RD_S: an L1 without the line asks for it to read; the slice grants it in E or S (R427, R428). -/
def execRdS (eng : Fin 64) (tag : Fin 32) (line : BitVec 41) (s : State) : Host.Outcome State Fault Refusal :=
  done (pumpLine line.toNat (if (l1Line s eng line.toNat).isSome || !l1Room (s.l1 eng) line.toNat then s
    else l1Send 3 eng tag line.toNat 0 [] s))

/-- RD_X: an L1 without the line asks for it to write `data` at `off`; the slice invalidates the holders and grants
DATA_X. -/
def execRdX (eng : Fin 64) (tag : Fin 32) (line : BitVec 41) (off : Fin 128) (data : List Byte) (s : State) :
    Host.Outcome State Fault Refusal :=
  done (pumpLine line.toNat (if (l1Line s eng line.toNat).isSome || !l1Room (s.l1 eng) line.toNat then s
    else l1Send 4 eng tag line.toNat off (data.take (128 - off.val)) s))

/-- UPG: an L1 that holds the line in S asks for ownership; UPG_ACK, or DATA_X when its copy is gone (R434). -/
def execUpg (eng : Fin 64) (tag : Fin 32) (line : BitVec 41) (off : Fin 128) (data : List Byte) (s : State) :
    Host.Outcome State Fault Refusal :=
  done (pumpLine line.toNat (match l1Line s eng line.toNat with
    | some x => if x.st = .s then l1Send 5 eng tag line.toNat off (data.take (128 - off.val)) s else s
    | none => s))

/-- EVICT: an L1 replaces a clean line; the slice clears the holder and answers EVICT_ACK, and takes EVICT as the clean
answer to an open snoop, which stays open as STALE (R427, R432). -/
def execEvict (eng : Fin 64) (tag : Fin 32) (line : BitVec 41) (s : State) : Host.Outcome State Fault Refusal :=
  let l := line.toNat
  match l1Line s eng l with
  | some x =>
    if x.st = .m ∨ (s.l1 eng).reqs.any (fun q => q.tag == tag.val || q.line == l) then done (pumpLine l s)
    else
      let s := l1Open eng ⟨tag, l, 3, 0, []⟩ (l1Remove eng l s)
      let s := sendMsg ⟨.evictAck, eng, sliceOf l, tag, l, [], 0⟩ (clearHolder eng l s)
      match openSnoop s eng l with
      | some y =>
        let s := { s with coh := { s.coh with
          snoops := s.coh.snoops.map (fun z => if z = y then { z with stale := true } else z) } }
        done (pumpLine l (advance l s))
      | none => done (pumpLine l s)
  | none => done (pumpLine l s)

/-- WB: an L1 replaces a dirty line, its data moved to the write-back buffer; the slice writes it and answers WB_ACK, or
holds it while its snoop to that L1 is open (R427, R433). -/
def execWb (eng : Fin 64) (tag : Fin 32) (line : BitVec 41) (s : State) : Host.Outcome State Fault Refusal :=
  let l := line.toNat
  let s := l1Check eng l s
  match l1Line s eng l with
  | some x =>
    if x.st ≠ .m ∨ 8 ≤ (s.l1 eng).wb.length ∨ (s.l1 eng).reqs.any (fun q => q.tag == tag.val || q.line == l) then done (pumpLine l s)
    else
      let s := l1Open eng ⟨tag, l, 4, 0, []⟩ (l1Remove eng l s)
      let s := s.setL1 eng { s.l1 eng with wb := (s.l1 eng).wb ++ [(l, x.data, x.poison)] }
      match openSnoop s eng l with
      | some _ => done { s with coh := { s.coh with heldWb := s.coh.heldWb ++ [(eng.val, l)] } }
      | none =>
        let s := clearHolder eng l (takeDirty l x.data x.poison s)
        done (pumpLine l (sendMsg ⟨.wbAck, eng, sliceOf l, tag, l, [], 0⟩ s))
  | none => done (pumpLine l s)

/-- DATA_S: the line installed in S. -/
def execDataS (eng : Fin 64) (tag : Fin 32) (line : BitVec 41) (s : State) : Host.Outcome State Fault Refusal :=
  done (receiveGrant .dataS .s eng tag line.toNat s)

/-- DATA_E: the line installed in E and the access performed. -/
def execDataE (eng : Fin 64) (tag : Fin 32) (line : BitVec 41) (s : State) : Host.Outcome State Fault Refusal :=
  done (receiveGrant .dataE .e eng tag line.toNat s)

/-- DATA_X: the line installed in M and the write performed; it may also answer an UPG (R434). -/
def execDataX (eng : Fin 64) (tag : Fin 32) (line : BitVec 41) (s : State) : Host.Outcome State Fault Refusal :=
  done (receiveGrant .dataX .m eng tag line.toNat s)

/-- UPG_ACK: the line goes from S to M and the write is performed. -/
def execUpgAck (eng : Fin 64) (tag : Fin 32) (line : BitVec 41) (s : State) : Host.Outcome State Fault Refusal :=
  done (receiveGrant .upgAck .m eng tag line.toNat s)

/-- EVICT_ACK: the eviction's tag is free. It frees no write-back entry (R428). -/
def execEvictAck (eng : Fin 64) (tag : Fin 32) (line : BitVec 41) (s : State) : Host.Outcome State Fault Refusal :=
  match nextMsg s .evictAck eng (sliceOf line.toNat) tag line.toNat with
  | some m => done (l1Close eng tag (takeMsg m s))
  | none => done s

/-- WB_ACK: the write-back entry is freed (R428, R433). -/
def execWbAck (eng : Fin 64) (tag : Fin 32) (line : BitVec 41) (s : State) : Host.Outcome State Fault Refusal :=
  match nextMsg s .wbAck eng (sliceOf line.toNat) tag line.toNat with
  | some m => done (freeWb eng line.toNat (l1Close eng tag (takeMsg m s)))
  | none => done s

/-- WB_SUPERSEDED: the write-back entry is freed without further action. -/
def execWbSuperseded (eng : Fin 64) (tag : Fin 32) (line : BitVec 41) (s : State) : Host.Outcome State Fault Refusal :=
  match nextMsg s .wbSuperseded eng (sliceOf line.toNat) tag line.toNat with
  | some m => done (freeWb eng line.toNat (l1Close eng tag (takeMsg m s)))
  | none => done s

/-! ## Snoops at an L1 -/

/-- A snoop received and answered. -/
def receiveSnoop (k : MsgKind) (e slice tag line : Nat) (s : State) : State :=
  match nextMsg s k e slice tag line with
  | some m => answerSnoop k e slice tag line (takeMsg m s)
  | none => s

/-- SNP_SHARE: the L1 keeps at most S and answers. -/
def execSnpShare (eng : Fin 64) (slice : Fin 32) (tag : Fin 64) (line : BitVec 41) (s : State) :
    Host.Outcome State Fault Refusal := done (receiveSnoop .snpShare eng slice tag line.toNat s)

/-- SNP_INV: the L1 invalidates its line and answers. -/
def execSnpInv (eng : Fin 64) (slice : Fin 32) (tag : Fin 64) (line : BitVec 41) (s : State) :
    Host.Outcome State Fault Refusal := done (receiveSnoop .snpInv eng slice tag line.toNat s)

/-- SNP_DISCARD: the L1 invalidates its line, dirty data discarded. -/
def execSnpDiscard (eng : Fin 64) (slice : Fin 32) (tag : Fin 64) (line : BitVec 41) (s : State) :
    Host.Outcome State Fault Refusal := done (receiveSnoop .snpDiscard eng slice tag line.toNat s)

/-! ## Responses at a slice -/

/-- RSP_GONE: retires a STALE snoop and counts the crossing (R432), or answers that no copy is held. -/
def execRspGone (eng : Fin 64) (slice : Fin 32) (tag : Fin 64) (line : BitVec 41) (s : State) :
    Host.Outcome State Fault Refusal :=
  done (pumpLine line.toNat (receiveRsp .rspGone eng slice tag line.toNat s))

/-- RSP_INV: the clean copy is invalidated. -/
def execRspInv (eng : Fin 64) (slice : Fin 32) (tag : Fin 64) (line : BitVec 41) (s : State) :
    Host.Outcome State Fault Refusal :=
  done (pumpLine line.toNat (receiveRsp .rspInv eng slice tag line.toNat s))

/-- RSP_INV_S: the clean copy is kept in S. -/
def execRspInvS (eng : Fin 64) (slice : Fin 32) (tag : Fin 64) (line : BitVec 41) (s : State) :
    Host.Outcome State Fault Refusal :=
  done (pumpLine line.toNat (receiveRsp .rspInvS eng slice tag line.toNat s))

/-- RSP_DATA: the dirty data is written into the cache, the copy is gone, a held write-back is superseded. -/
def execRspData (eng : Fin 64) (slice : Fin 32) (tag : Fin 64) (line : BitVec 41) (s : State) :
    Host.Outcome State Fault Refusal :=
  done (pumpLine line.toNat (receiveRsp .rspData eng slice tag line.toNat s))

/-- RSP_DATA_S: the dirty data is written into the cache and the holder keeps S (R436). -/
def execRspDataS (eng : Fin 64) (slice : Fin 32) (tag : Fin 64) (line : BitVec 41) (s : State) :
    Host.Outcome State Fault Refusal :=
  done (pumpLine line.toNat (receiveRsp .rspDataS eng slice tag line.toNat s))

/-- SNOOP_TIMEOUT: a snoop unanswered for 4,096 cycles is reported; the line stays BUSY (R449). -/
def execSnoopTimeout (slice : Fin 32) (tag : Fin 64) (s : State) : Host.Outcome State Fault Refusal :=
  match snoopOf s slice tag with
  | some x => done (protocolFault 2 x.eng x.line s)
  | none => done s

/-- The walk of an engine's L1 in a fence: every M line written back and kept in E, or written back and every line
invalidated (R439). -/
def l1Walk (inv : Bool) (e : Nat) (s : State) : State :=
  let s := if s.care.latent = [] then s else State.each (Tab.keys (s.l1 e).lines) (l1Check e) s
  (s.l1 e).lines.foldl (fun s p =>
    let s := if p.2.st = .m then takeDirty p.1 p.2.data p.2.poison s else s
    if inv then clearHolder e p.1 (l1Remove e p.1 s)
    else if p.2.st = .m then l1Put e p.1 { p.2 with st := .e } s else s) s

/-- The directory and the messages in flight settled, lines left to the engines of `late` (R450). -/
def cohSettle (late : Nat) (s : State) : State :=
  let lines : Tab CLine := s.mem.lines.map (fun p =>
    (p.1, { p.2 with holders := Nat.land p.2.holders late, owned := p.2.owned && Nat.land p.2.holders late != 0 }))
  let s : State := { s with mem := { s.mem with lines := lines } }
  { s with coh := { s.coh with txns := [], queue := [], waiting := [], snoops := [], heldWb := [], net := [],
                               batchFence := 0 } }

/-- Every engine's L1 written back and invalidated but those of `late`, and every transaction settled (R450). -/
def l1FlushExcept (late : Nat) (s : State) : State :=
  cohSettle late ((List.range 64).foldl (fun s e =>
    if bitOf late e then s
    else
      let s := (s.l1 e).wb.foldl (fun s w => clearHolder e w.1 (takeDirty w.1 w.2.1 w.2.2 s)) s
      (l1Walk true e s).setL1 e l1Empty) s)

/-- Every L1 written back and invalidated. -/
def l1FlushAll (s : State) : State := l1FlushExcept 0 s

/-- The lines that are left in the L1s invalidated without write-back (R559). -/
def l1Lost (s : State) : State := cohSettle 0 { s with coh := { s.coh with l1 := [] } }

/-! ## Fences (R439 to R442) -/

/-- A write of COH_FENCE.GO: REFUSED while a fence runs, else the fence of the kind starts. -/
def fenceGo (kind : Nat) (s : State) : State :=
  if s.flag cohFenceBusy then raise cohFenceRefused s
  else
    let s := ((s.set cohFenceKind kind).set cohFenceBusy 1).set cohStatusFenceBusy 1
    let s : State := { s with coh := { s.coh with fenceSeq := s.coh.fenceSeq + 1, fenceTimeout := false } }
    if kind < 2 then
      { s with coh := { s.coh with fenceEngines := s.get cohFenceMaskEngines, fenceInv := kind == 1 } }
    else { s with fab := { s.fab with reqs := s.fab.reqs.map (fun r => { r with fenced := true }) } }

/-- ENGINE_FENCE_WB: GO with KIND 0. -/
def execEngineFenceWb (s : State) : Host.Outcome State Fault Refusal := done (fenceGo 0 s)

/-- ENGINE_FENCE_WBINV: GO with KIND 1. -/
def execEngineFenceWbinv (s : State) : Host.Outcome State Fault Refusal := done (fenceGo 1 s)

/-- FABRIC_FENCE: GO with KIND 2 covers every remote request issued before (R441). -/
def execFabricFence (s : State) : Host.Outcome State Fault Refusal := done (fenceGo 2 s)

/-- The end of a fence of COH_FENCE (R442). -/
def fenceEnd (s : State) : State :=
  let s : State := { s with coh := { s.coh with fenceEngines := 0, fenceInv := false } }
  raise cohEvtFenceDone (raise cohFenceDone ((s.set cohFenceBusy 0).set cohStatusFenceBusy 0))

/-- ENGINE_FENCE_COMPLETE: once every engine of the set is at a quad boundary and has no write-back open, every M line is
written back and the fence completes (R439, R442, R447). -/
def execEngineFenceComplete (s : State) : Host.Outcome State Fault Refusal :=
  let es := enginesOf s.coh.fenceEngines
  if !s.flag cohFenceBusy || decide (2 ≤ s.get cohFenceKind) ||
      es.any (fun e => !(s.l1 e).wb.isEmpty || s.get (upeStatState e) == 3) then done s
  else done (fenceEnd (State.each es (l1Walk s.coh.fenceInv) s))

/-- FABRIC_FENCE_COMPLETE: every request issued before the fence has answered or timed out (R441). -/
def execFabricFenceComplete (s : State) : Host.Outcome State Fault Refusal :=
  if !s.flag cohFenceBusy || s.get cohFenceKind != 2 || s.fab.reqs.any (fun r => r.fenced) then done s
  else done (fenceEnd s)

end Sys2Proof.Machine
end

