-- ==== Sys2Proof/Machine/Mmu.lean ====
section
/-! DEFINITION. The general MMU (R363 to R366): the table walk, the TLB and its invalidation. -/

namespace Sys2Proof.Machine

/-- Bits of the page offset of a leaf at a level, and of the alignment of the table below a level. -/
def leafBits (level : Nat) : Nat := if level = 2 then 30 else if level = 3 then 21 else 16
def tableBits (level : Nat) : Nat := if level = 3 then 8 else 12

/-- Index of a virtual address at a level. -/
def levelIndex (level va : Nat) : Nat :=
  if level = 1 then bits va 39 9 else if level = 2 then bits va 30 9 else if level = 3 then bits va 21 9 else bits va 16 5

/-- The walk from the table at `table`: the leaf as (level, entry), or none for NOT_PRESENT; entries are read with hint
KEEP (R365). -/
def mmuWalk (req va : Nat) : Nat → Nat → Nat → State → Option (Nat × Nat) × State
  | 0, _, _, s => (none, s)
  | k + 1, level, table, s =>
    let (b, rf, po, s) := useRead req (table + 8 * levelIndex level va) 8 1 0 s
    let e := leNat b
    let leaf := bitOf e 1
    let addr := bits e 8 40 * 256
    if rf ∨ po ∨ !bitOf e 0 ∨ bits e 4 4 ≠ 0 ∨ bits e 48 16 ≠ 0 ∨ (leaf ∧ level = 1) ∨ (!leaf ∧ level = 4) ∨
        addr % 2 ^ (if leaf then leafBits level else tableBits level) ≠ 0 then (none, s)
    else if leaf then (some (level, e), s)
    else mmuWalk req va k (level + 1) addr s

/-- A leaf entered in the TLB; a full TLB gives up an entry that the spec does not name (a free value). -/
def tlbAdd (e : TlbEntry) (s : State) : State :=
  if s.tlb.length < 4096 then { s with tlb := s.tlb ++ [e] }
  else
    let (v, s) := s.takeFree
    { s with tlb := s.tlb.eraseIdx (v % 4096) ++ [e] }

/-- The TLB entry of an address. -/
def tlbFind (s : State) (asid va : Nat) : Option TlbEntry :=
  s.tlb.find? (fun e => e.asid == asid && decide (e.va ≤ va) && decide (va < e.va + e.size))

/-- The leaf that maps an address: from the TLB, else by a walk from the directory (R363). -/
def mmuLeaf (req asid va : Nat) (s : State) : Option TlbEntry × State :=
  match tlbFind s asid va with
  | some e => (some e, s)
  | none =>
    let (b, rf, po, s) := useRead req (s.get mmuRootAddr + 8 * asid) 8 1 0 s
    let e := leNat b
    let addr := bits e 8 40 * 256
    if rf ∨ po ∨ !bitOf e 0 ∨ bitOf e 1 ∨ bits e 4 4 ≠ 0 ∨ bits e 48 16 ≠ 0 ∨ addr % 4096 ≠ 0 then (none, s)
    else
      match mmuWalk req va 4 1 addr s with
      | (none, s) => (none, s)
      | (some (level, e), s) =>
        let size := 2 ^ leafBits level
        let x : TlbEntry := ⟨asid, va / size * size, size, bits e 8 40 * 256, bitOf e 2, bitOf e 3⟩
        (some x, tlbAdd x s)

/-- A translation (R365): kind 0 and the local address, or 1 NOT_PRESENT, 2 PROTECT, 3 PARKED, 4 PARKED_1G. `touch` says
that the requester heeds MIGRATE. -/
def mmuTranslate (req asid va : Nat) (write touch : Bool) (s : State) : Nat × Nat × State :=
  let bad (k : Nat) (s : State) : Nat × Nat × State := (k, 0, s.bump mmuStatFaults 1)
  if !s.flag mmuCtlEnable ∨ 2 ^ 48 ≤ va then bad 1 s
  else
    match mmuLeaf req asid va s with
    | (none, s) => bad 1 s
    | (some e, s) =>
      if write ∧ !e.write then bad 2 s
      else if touch ∧ e.migrate ∧ deepBase ≤ e.pa then bad (if e.size = 2 ^ 30 then 4 else 3) s
      else (0, e.pa + (va - e.va), s)

/-- The translations of a page dropped. -/
def tlbDrop (f : TlbEntry → Bool) (s : State) : State := { s with tlb := s.tlb.filter (fun e => !f e) }

/-- MMU_INVAL: a write of MMU_INVAL with GO drops the translations of a page, of an address space, or all, and sets DONE
(R366). A reserved scope drops nothing. -/
def execMmuInval (value : BitVec 64) (s : State) : Host.Outcome State Fault Refusal :=
  let v := value.toNat
  let asid := bits v 0 16
  let scope := bits v 16 2
  let va := bits v 32 32 * 65536
  let s := ((s.set mmuInvalAsid asid).set mmuInvalScope scope).set mmuInvalVa (bits v 32 32)
  if !bitOf v 18 ∨ scope = 3 then done s
  else
    let hit (e : TlbEntry) : Bool :=
      if scope = 0 then e.asid == asid && decide (e.va ≤ va) && decide (va < e.va + e.size)
      else if scope = 1 then e.asid == asid else true
    done ((tlbDrop hit s).set mmuInvalDone 1)

end Sys2Proof.Machine
end

