-- ==== Sys2Proof/Machine/RowLogic.lean ====
section
/-! DEFINITION. Row logic in the memory stacks (R246 to R275): admission of a batch, one command at a time on the tier's
rows and the bank accumulators, the chain, poison, and RL_FENCE. Each operation command of the table runs the next command
of a stack's batch; `ecc` gives, by local address, what the controller's decodes of the source rows find. -/

namespace Sys2Proof.Machine

/-! ## Commands (R250, R251) -/

def rlOp (c : List Byte) : Nat := bits (leAt c 0 2) 0 6
def rlMask (c : List Byte) : Nat := bits (leAt c 0 2) 6 4
def rlFmt (c : List Byte) : Nat := bits (leAt c 0 2) 10 2
def rlDst (c : List Byte) : Nat := leAt c 2 2
def rlA (c : List Byte) : Nat := leAt c 4 2
def rlB (c : List Byte) : Nat := leAt c 6 2
def rlC (c : List Byte) : Nat := leAt c 8 2
def rlDist (c : List Byte) : Nat := bits (leAt c 10 2) 0 9

/-- Whether an opcode is of the bitwise group, the accumulator group or the chain. -/
def rlBitwise (op : Nat) : Bool := decide (1 ≤ op) && decide (op ≤ 6)
def rlAcc (op : Nat) : Bool := decide (0x10 ≤ op) && decide (op ≤ 0x13)
def rlChain (op : Nat) : Bool := op == 0x20 || op == 0x21

/-- Whether a command's reserved bits and the fields its opcode does not use are 0. -/
def rlClean (c : List Byte) : Bool :=
  let op := rlOp c
  bits (leAt c 0 2) 12 4 == 0 && bits (leAt c 10 2) 9 7 == 0 && leAt c 12 4 == 0 &&
    (rlAcc op || rlChain op || rlFmt c == 0) &&
    (rlBitwise op || op == 0x13 || rlDst c == 0) &&
    (rlBitwise op || op == 0x11 || op == 0x12 || rlA c == 0) &&
    ((decide (3 ≤ op) && decide (op ≤ 6)) || rlB c == 0) && (op == 6 || rlC c == 0) && (rlChain op || rlDist c == 0)

/-- The banks of a stack that a mask entry selects, as (pseudo-channel, bank). -/
def rlSelected (m : Nat × Nat) : List (Nat × Nat) :=
  ((List.range 32).filter (fun p => bitOf m.1 p)).flatMap (fun p =>
    ((List.range 16).filter (fun b => bitOf m.2 b)).map (fun b => (p, b)))

/-- Chain indices of the selected banks, ascending. -/
def rlSenders (m : Nat × Nat) : List Nat := (rlSelected m).map (fun x => 16 * x.1 + x.2)

/-! ## Admission (R258, R259) -/

/-- Whether a row lies in a partition permitted under R248. -/
def rowPermitted (s : State) (r : Nat) : Bool :=
  decide (r ≤ 49151) && (List.range 16).any (fun p =>
    bitOf (s.get rlgPartEnMask) p && s.flag (memPartCfgEnable p) && !s.flag (memPartCfgDraining p) &&
      !s.flag (memPartCfgMode p) && partCovers s 0 (r / 256) p && s.get (memPartRangeFirst p) % 2 == 0 &&
      s.get (memPartRangeFrames p) % 2 == 0)

/-- Whether a destructive traffic generator runs on a channel. -/
def tgDestructive (s : State) (c : Nat) : Bool := s.flag (hbmTgCtlBusy (c / 32) (c % 32)) && s.get (hbmTgCtlMode (c / 32) (c % 32)) != 0

/-- A batch as its descriptor and command list give it. -/
structure RlDesc where
  head : List Byte
  cmds : List (List Byte)
  masks : List (Nat × Nat)

def rlDescOf (head list_ : List Byte) : RlDesc :=
  ⟨head, (List.range (leAt head 6 2)).map (fun i => slice list_ (16 * i) 16),
   (List.range 16).map (fun i => (leAt head (32 + 8 * i) 4, leAt head (36 + 8 * i) 2))⟩

/-- The mask a command names. -/
def RlDesc.mask (d : RlDesc) (c : List Byte) : Nat × Nat := d.masks.getD (rlMask c) (0, 0)

/-- Whether a chain command breaks CHAIN. -/
def chainBad (d : RlDesc) (c : List Byte) : Bool :=
  let l := rlSenders (d.mask c)
  rlDist c == 0 || l.any (fun i => decide (511 < i + rlDist c)) ||
    (l.zip (l.drop 1)).any (fun x => decide (x.2 < x.1 + rlDist c))

/-- The ranges of a batch as base, bytes, DEST. -/
def rlRanges (head : List Byte) : List (Nat × Nat × Bool) :=
  (List.range (leAt head 9 1)).map (fun i =>
    (leAt head (160 + 16 * i) 8, leAt head (168 + 16 * i) 4 * 1024, leAt head (172 + 16 * i) 1 == 1))

/-- The first failing check of R259 in table order, with the command index; 0 when all pass. `unit` is the slot's UNIT or
the stack submitted to, `bad` says that the descriptor cannot be read, `lost i` that command `i` cannot. -/
def rlReason (s : State) (unit : Nat) (d : RlDesc) (bad : Bool) (lost : Nat → Bool) : Nat × Nat :=
  let h := d.head
  let st := unit % 8
  let idx := List.range d.cmds.length
  let cmd (i : Nat) : List Byte := d.cmds.getD i []
  let find (f : List Byte → Bool) : Option Nat := idx.find? (fun i => f (cmd i))
  let pcs (c : List Byte) : List Nat := (List.range 32).filter (fun p => bitOf (d.mask c).1 p)
  if bad ∨ leAt h 0 4 ≠ 0x524C4742 then (1, 0)
  else if leAt h 4 1 % 8 ≠ unit then (2, 0)
  else if leAt h 6 2 = 0 ∨ 4096 < leAt h 6 2 ∨ leAt h 8 1 = 0 ∨ 16 < leAt h 8 1 ∨ 8 < leAt h 9 1 then (3, 0)
  else match idx.find? (fun i => lost i || !(rlOp (cmd i) == 0 || rlBitwise (rlOp (cmd i)) || rlAcc (rlOp (cmd i)) || rlChain (rlOp (cmd i)))) with
  | some i => (4, i)
  | none => match find (fun c => decide (leAt h 8 1 ≤ rlMask c) || (rlSelected (d.mask c)).isEmpty ||
      Nat.land (d.mask c).1 (s.get (hbmFailedPcMask st)) != 0) with
  | some i => (5, i)
  | none => match find (fun c => (namedRows c).any (fun r => !rowPermitted s r)) with
  | some i => (6, i)
  | none => match find (fun c => rlBitwise (rlOp c) && (namedRows c).any (fun r => r / 512 != rlDst c / 512)) with
  | some i => (7, i)
  | none => match find (fun c => rlChain (rlOp c) && chainBad d c) with
  | some i => (8, i)
  | none => match find (fun c => (rlAcc (rlOp c) || rlChain (rlOp c)) && rlFmt c == 3) with
  | some i => (9, i)
  | none =>
    if (rlRanges h).any (fun r => r.1 % 1024 != 0 || decide (2 ^ 48 ≤ r.1) || r.2.1 == 0) ∨
        (List.range (leAt h 9 1)).any (fun i => decide (1 < leAt h (172 + 16 * i) 1)) then (10, 0)
    else match find (fun c => (pcs c).any (fun p => tgDestructive s (st * 32 + p))) with
    | some i => (11, i)
    | none =>
      if !s.flag rlgCtlEnable then (12, 0)
      else if 8 ≤ leAt h 4 1 ∨ 2 ≤ leAt h 5 1 ∨ leAt h 10 6 ≠ 0 ∨ leAt h 16 8 % 16 ≠ 0 ∨ leAt h 24 8 ≠ 0 ∨
          (List.range 16).any (fun i => leAt h (38 + 8 * i) 2 != 0) ∨
          (List.range 8).any (fun i => leAt h (173 + 16 * i) 3 != 0) then (13, 0)
      else match find (fun c => !rlClean c) with
      | some i => (13, i)
      | none => (0, 0)

/-! ## RL_FENCE (R264, R265) -/

/-- The row-logic state changed. -/
def State.onRlg (f : RlgState → RlgState) (s : State) : State := { s with rlg := f s.rlg }

/-- Lines that the cache holds in ranges. -/
def rangeLines (s : State) (rs : List (Nat × Nat × Bool)) : List Nat :=
  (Tab.keys s.mem.lines).filter (fun l => rs.any (fun r => meets (l * 128) 128 r.1 r.2.1))

/-- The prologue: dirty lines of the ranges written back, every copy invalidated. -/
def fencePrologue (rs : List (Nat × Nat × Bool)) (s : State) : State := State.each (rangeLines s rs) evictLine s

/-- A line invalidated without write-back, its L1 copies discarded. -/
def discardLine (line : Nat) (s : State) : State := dropLine line (snoopLine false true line s)

/-- FENCE_PENDING follows the fences outstanding. -/
def fencePending (s : State) : State := s.set rlgStatusFencePending (b2n (!s.rlg.fences.isEmpty))

/-- The report of a completed fence: the register's DONE and FENCE_DONE, a submitted batch's DONE, a slot's completion. -/
def fenceReport (f : RlgFence) (s : State) : State :=
  if f.by_ = 0 then raise rlgEvtFenceDone (s.set rlgFenceDone 1)
  else if f.by_ = 1 then completeSlot f.who s
  else if f.by_ = 2 then s.set rlgFenceDone 1
  else s

/-- RL_FENCE issued: it covers the batches that no completed fence has covered; with none it completes at once. -/
def fenceIssue (by_ who : Nat) (s : State) : State :=
  let f : RlgFence := ⟨s.rlg.cover.map (fun c => c.id), by_, who⟩
  if f.covers.isEmpty then fenceReport f s
  else fencePending (s.onRlg (fun r => { r with fences := r.fences ++ [f] }))

/-- Whether an issuer still waits for a fence. -/
def fenceWaits (s : State) (by_ who : Nat) : Bool := s.rlg.fences.any (fun f => f.by_ == by_ && f.who == who)

/-- Whether every batch a fence covers has written its last row. -/
def fenceReady (s : State) (f : RlgFence) : Bool :=
  f.covers.all (fun id => s.rlg.cover.all (fun c => c.id != id || c.ended))

/-- RL_FENCE_GO: a write of RLG_FENCE.GO issues a fence (R265). -/
def execRlFenceGo (s : State) : Host.Outcome State Fault Refusal := done (fenceIssue 0 0 s)

/-- RL_FENCE_COMPLETE: the oldest fence whose batches are over invalidates the lines of their DEST ranges without
write-back and completes (R264, R271). -/
def execRlFenceComplete (s : State) : Host.Outcome State Fault Refusal :=
  match s.rlg.fences with
  | [] => done s
  | f :: rest =>
    if !fenceReady s f then done s
    else
      let cs := s.rlg.cover.filter (fun c => f.covers.contains c.id)
      let ds := (cs.flatMap (fun c => c.ranges)).filter (fun r => r.2.2)
      let s := State.each (rangeLines s ds) discardLine s
      let s := s.onRlg (fun r => { r with fences := rest, cover := r.cover.filter (fun c => !f.covers.contains c.id) })
      done (fenceReport f (fencePending s))

/-! ## Batches start and end (R259 to R261, R264) -/

/-- The batch that runs on a stack. -/
def rlBatch (s : State) (st : Nat) : Option RlgBatch := Tab.get none s.rlg.batches st

/-- A stack's batch set. -/
def setBatch (st : Nat) (b : Option RlgBatch) (s : State) : State :=
  s.onRlg (fun r => { r with batches := Tab.set none r.batches st b })

/-- A rejected batch (R259, R260): REJECT recorded, dependents cancelled, a plan fault. -/
def rlReject (st : Nat) (slot : Option Nat) (r : Nat × Nat) (s : State) : State :=
  let s := raise rlgEvtReject (((s.set rlgRejectReason r.1).set rlgRejectCmd r.2).set rlgRejectStack st)
  let s := match slot with
    | some i => cancelDependents i (finishSlot i .cancelled s)
    | none => s
  fault .plan 1 (slot.getD 0 % 1024) r.1 0 none s

/-- A batch checked and, when every check passes, admitted: the fence's prologue runs and the ranges are watched from now
on (R259, R264, R267). -/
def rlAdmit (unit desc : Nat) (slot : Option Nat) (s : State) : State :=
  let (h, hr, hp, s) := useRead 582 desc 288 0 0 s
  let n := leAt h 6 2
  let at_ := leAt h 16 8
  let (l, lr, _, s) := if hr ∨ hp ∨ n = 0 ∨ 4096 < n then ([], false, false, s) else useRead 582 at_ (16 * n) 0 0 s
  let d := rlDescOf h (if l = [] then List.replicate (16 * min n 4096) 0 else l)
  let r := rlReason s unit d (hr || hp) (fun i => lr && refusal s (at_ + 16 * i) != 0 || nodePoison s (at_ + 16 * i))
  let st := unit % 8
  if r.1 ≠ 0 then rlReject st slot r s
  else
    let rs := rlRanges h
    let s := fencePrologue rs s
    let id := s.rlg.nextId
    let s := s.onRlg (fun x => { x with nextId := id + 1, cover := x.cover ++ [⟨id, rs, false⟩] })
    let s := setBatch st (some ⟨id, d.cmds, d.masks, 0, bitOf (leAt h 5 1) 0, slot.isNone, slot.getD 0⟩) s
    (s.set rlgStatusBusy (Nat.lor (s.get rlgStatusBusy) (2 ^ st))).set (rlgStackStatNext st) 0

/-- ROWLOGIC_BATCH_START: a row-logic slot reaches START; its batch is checked and admitted, or rejected (R259, R260). -/
def execRowlogicBatchStart (slot : Fin 1024) (s : State) : Host.Outcome State Fault Refusal :=
  whole (fun s =>
    let i := pickSlot s 3 slot.val
    let u := (slotOf s i).unit
    if !startable s 3 i || (rlBatch s (u % 8)).isSome then done s
    else done (rlAdmit u (slotOf s i).desc (some i) (startSlot i s))) s

/-- RLG_SUBMIT: a write of RLG_STACK[s]_SUBMIT with GO runs a batch while the active bank is empty and the stack runs none,
else SUBMIT_REFUSED is set (R261). -/
def execRlgSubmit (stack : Fin 8) (value : BitVec 64) (s : State) : Host.Outcome State Fault Refusal :=
  let st := stack.val
  let v := value.toNat
  let s := s.set (rlgStackSubmitAddr st) (bits v 0 48)
  if !bitOf v 63 then done s
  else if s.flag tickStatusBankEmpty ∧ (rlBatch s st).isNone then done (rlAdmit st (bits v 0 48) none s)
  else done (raise (rlgStackStatSubmitRefused st) s)

/-- A batch that has written its last row ends; FENCE issues the fence, else the slot or the submission completes. -/
def rlEnd (st : Nat) (b : RlgBatch) (s : State) : State :=
  let s := setBatch st none (s.set rlgStatusBusy (clearBits (s.get rlgStatusBusy) (2 ^ st)))
  let s := s.onRlg (fun r => { r with cover := r.cover.map (fun c => if c.id = b.id then { c with ended := true } else c) })
  if b.fence then fenceIssue (if b.submitted then 2 else 1) b.slot s
  else if b.submitted then s.set rlgFenceDone 1
  else completeSlot b.slot s

/-! ## Rows and accumulators (R247, R262) -/

/-- The 1,024 bytes of a row of a bank. -/
def rowBytes (s : State) (chan bank row : Nat) : List Byte := (List.range 1024).map (fun i => tierByte s (addrHbm s chan bank row i))

/-- The poisoned granules of a row, as a mask. -/
def rowPoison (s : State) (chan bank row : Nat) : Nat :=
  ((List.range 16).map (fun g => b2n (tierPoison s (addrHbm s chan bank row (64 * g))) * 2 ^ g)).sum

/-- A row written with its check bytes, poisoned granules with the poison signature and counted; a failed pseudo-channel
writes nothing. -/
def rowWrite (chan bank row : Nat) (bs : List Byte) (poison : Nat) (s : State) : State :=
  if bitOf (s.get (hbmFailedPcMask (chan / 32))) (chan % 32) then s
  else
    let s := bs.zipIdx.foldl (fun t x => tierPut (addrHbm t chan bank row x.2) x.1 t) s
    let s := (List.range 16).foldl (fun t g =>
      let a := addrHbm t chan bank row (64 * g)
      (if t.care.latent = [] then t else setLatent a .clean t).setPoison a (bitOf poison g)) s
    let n := popcount 16 poison
    if n = 0 then s
    else
      let g := (lowestBit 16 poison).getD 0
      fault .memory 6 (chan / 32) (addrHbm s chan bank row (64 * g)) 5 none (raise rlgEvtPoison (s.bump rlgPoisonPoison n))

/-- The accumulator of a bank, and its poison flags. -/
def accBytes (s : State) (chan bank : Nat) : List Byte :=
  let l := Tab.get [] s.rlg.acc (chan * 16 + bank)
  if l = [] then List.replicate 1024 0 else l
def accPoison (s : State) (chan bank : Nat) : Nat := Tab.get 0 s.rlg.accPoison (chan * 16 + bank)

/-- An accumulator written with its poison flags. -/
def accPut (chan bank : Nat) (bs : List Byte) (poison : Nat) (s : State) : State :=
  s.onRlg (fun r => { r with
    acc := Tab.set [] r.acc (chan * 16 + bank) (if bs.all (fun b => b == 0) then [] else bs)
    accPoison := Tab.set 0 r.accPoison (chan * 16 + bank) poison })

/-- The format code of the adder for a row-logic FMT. -/
def rlAdderFmt (f : Nat) : Nat := if f = 0 then 3 else if f = 1 then 0 else 1

/-- Two accumulator rows added element by element, and the canonical NaN results counted (R252). -/
def rowAdd (fmt : Nat) (x y : List Byte) : List Byte × Nat :=
  let f := rlAdderFmt fmt
  let n := atomicSize f
  let r := (List.range (1024 / n)).map (fun k => adderSum f (leAt x (n * k) n) (leAt y (n * k) n))
  (r.flatMap (fun v => leBytes n v.1), (r.filter (fun v => v.2.1)).length)

/-- A bitwise combination of rows. -/
def rowMap (f : Byte → Byte → Byte → Byte) (x y z : List Byte) : List Byte :=
  ((x.zip y).zip z).map (fun p => f p.1.1 p.1.2 p.2)

/-- The source rows of the selected banks decoded granule by granule (R262); remaps that this calls for wait for the end of the
window (R240). -/
def rlEcc (st : Nat) (sel : List (Nat × Nat)) (rows : List Nat) (ecc : List (Nat × Ecc)) (s : State) : State :=
  if ecc = [] ∧ s.care.latent = [] then s
  else
    decodeAll (sel.flatMap (fun x => rows.flatMap (fun r =>
      (List.range 16).map (fun g => addrHbm s (st * 32 + x.1) x.2 r (64 * g))))) ecc s

/-- Row activations an opcode takes in one bank (R251). -/
def rlActs (op : Nat) : Nat :=
  if op = 1 ∨ op = 2 then 2 else if op = 3 ∨ op = 4 then 3 else if op = 5 ∨ op = 6 then 4
  else if 0x11 ≤ op ∧ op ≤ 0x13 then 1 else 0

/-- The next command of a stack's batch run when its opcode is `op`: the decodes of its source rows, the effect in the
selected banks, the counters, and the end of the batch after its last command (R251, R253, R262). -/
def rlRun (op : Nat) (stack : Fin 8) (ecc : List (Nat × Ecc)) (src : List Byte → List Nat)
    (effect : List Byte → List (Nat × Nat) → State → State) (s : State) : State :=
  let st := stack.val
  match rlBatch s st with
  | none => s
  | some b =>
    match b.cmds[b.next]? with
    | none => s
    | some c =>
      if rlOp c ≠ op ∨ bitOf (s.get rlgStatusSuspended) st ∨ bitOf (s.get fumStatusSelfRefresh) st then s
      else
        let sel := rlSelected (b.masks.getD (rlMask c) (0, 0))
        let s := s.onRlg (fun r => { r with acts := r.acts + rlActs op * sel.length })
        let s := startDue (effect c (sel.map (fun x => (st * 32 + x.1, x.2))) (rlEcc st sel (src c) ecc s))
        let b' := { b with next := b.next + 1 }
        let s := ((setBatch st (some b') s).set (rlgStackStatNext st) (b.next + 1)).bump (rlgStackCmdsCount st) 1
        if b'.next = b.cmds.length then rlEnd st b' s else s

/-- One bitwise command: every result row from its source rows, poisoned granules carried (R251, R262). -/
def bitwise (f : Byte → Byte → Byte → Byte) (src : List Byte → Nat × Nat × Nat) (c : List Byte) (sel : List (Nat × Nat)) (s : State) :
    State :=
  let (ra, rb, rc) := src c
  State.each sel (fun x t =>
    rowWrite x.1 x.2 (rlDst c) (rowMap f (rowBytes t x.1 x.2 ra) (rowBytes t x.1 x.2 rb) (rowBytes t x.1 x.2 rc))
      (Nat.lor (rowPoison t x.1 x.2 ra) (Nat.lor (rowPoison t x.1 x.2 rb) (rowPoison t x.1 x.2 rc))) t) s

/-- RLG_NOP: no effect in any bank. -/
def execRlgNop (stack : Fin 8) (s : State) : Host.Outcome State Fault Refusal :=
  done (rlRun 0 stack [] (fun _ => []) (fun _ _ t => t) s)

/-- COPY: DST = SRC_A. -/
def execCopy (stack : Fin 8) (ecc : List (Nat × Ecc)) (s : State) : Host.Outcome State Fault Refusal :=
  done (rlRun 1 stack ecc (fun c => [rlA c]) (bitwise (fun a _ _ => a) (fun c => (rlA c, rlA c, rlA c))) s)

/-- NOT: DST = ~SRC_A. -/
def execNot (stack : Fin 8) (ecc : List (Nat × Ecc)) (s : State) : Host.Outcome State Fault Refusal :=
  done (rlRun 2 stack ecc (fun c => [rlA c]) (bitwise (fun a _ _ => ~~~a) (fun c => (rlA c, rlA c, rlA c))) s)

/-- AND: DST = SRC_A & SRC_B. -/
def execAnd (stack : Fin 8) (ecc : List (Nat × Ecc)) (s : State) : Host.Outcome State Fault Refusal :=
  done (rlRun 3 stack ecc (fun c => [rlA c, rlB c]) (bitwise (fun a b _ => a &&& b) (fun c => (rlA c, rlB c, rlB c))) s)

/-- OR: DST = SRC_A | SRC_B. -/
def execOr (stack : Fin 8) (ecc : List (Nat × Ecc)) (s : State) : Host.Outcome State Fault Refusal :=
  done (rlRun 4 stack ecc (fun c => [rlA c, rlB c]) (bitwise (fun a b _ => a ||| b) (fun c => (rlA c, rlB c, rlB c))) s)

/-- XOR: DST = SRC_A ^ SRC_B. -/
def execXor (stack : Fin 8) (ecc : List (Nat × Ecc)) (s : State) : Host.Outcome State Fault Refusal :=
  done (rlRun 5 stack ecc (fun c => [rlA c, rlB c]) (bitwise (fun a b _ => a ^^^ b) (fun c => (rlA c, rlB c, rlB c))) s)

/-- MAJ: each bit of DST is the majority of the three source bits. -/
def execMaj (stack : Fin 8) (ecc : List (Nat × Ecc)) (s : State) : Host.Outcome State Fault Refusal :=
  done (rlRun 6 stack ecc (fun c => [rlA c, rlB c, rlC c])
    (bitwise (fun a b c => (a &&& b) ||| (a &&& c) ||| (b &&& c)) (fun c => (rlA c, rlB c, rlC c))) s)

/-- ACC_CLEAR: the accumulator and its poison flags are 0. -/
def execAccClear (stack : Fin 8) (s : State) : Host.Outcome State Fault Refusal :=
  done (rlRun 0x10 stack [] (fun _ => []) (fun _ sel t => State.each sel (fun x t => accPut x.1 x.2 [] 0 t) t) s)

/-- ACC_LOAD: the accumulator becomes SRC_A, its flags the poison of the row. -/
def execAccLoad (stack : Fin 8) (ecc : List (Nat × Ecc)) (s : State) : Host.Outcome State Fault Refusal :=
  done (rlRun 0x11 stack ecc (fun c => [rlA c]) (fun c sel t => State.each sel (fun x t =>
    accPut x.1 x.2 (rowBytes t x.1 x.2 (rlA c)) (rowPoison t x.1 x.2 (rlA c)) t) t) s)

/-- ACC_ADD: SRC_A added into the accumulator in FMT, poisoned granules flagged, NaN results counted (R252, R262). -/
def execAccAdd (stack : Fin 8) (ecc : List (Nat × Ecc)) (s : State) : Host.Outcome State Fault Refusal :=
  done (rlRun 0x12 stack ecc (fun c => [rlA c]) (fun c sel t => State.each sel (fun x t =>
    let (bs, nan) := rowAdd (rlFmt c) (accBytes t x.1 x.2) (rowBytes t x.1 x.2 (rlA c))
    (accPut x.1 x.2 bs (Nat.lor (accPoison t x.1 x.2) (rowPoison t x.1 x.2 (rlA c))) t).bump rlgPoisonNan nan) t) s)

/-- ACC_STORE: DST becomes the accumulator, flagged granules with the poison signature. -/
def execAccStore (stack : Fin 8) (s : State) : Host.Outcome State Fault Refusal :=
  done (rlRun 0x13 stack [] (fun _ => []) (fun c sel t => State.each sel (fun x t =>
    rowWrite x.1 x.2 (rlDst c) (accBytes t x.1 x.2) (accPoison t x.1 x.2) t) t) s)

/-- A chain command (R254): every sender is read first, then each receiver takes or adds its sender's accumulator. -/
def chain (add : Bool) (c : List Byte) (sel : List (Nat × Nat)) (s : State) : State :=
  let vals := sel.map (fun x => (x, accBytes s x.1 x.2, accPoison s x.1 x.2))
  State.each vals (fun v t =>
    let i := v.1.1 % 32 * 16 + v.1.2 + rlDist c
    let ch := v.1.1 / 32 * 32 + i / 16
    let bk := i % 16
    if add then
      let (bs, nan) := rowAdd (rlFmt c) (accBytes t ch bk) v.2.1
      (accPut ch bk bs (Nat.lor (accPoison t ch bk) v.2.2) t).bump rlgPoisonNan nan
    else accPut ch bk v.2.1 v.2.2 t) s

/-- CHAIN_MOVE: each receiver's accumulator becomes its sender's. -/
def execChainMove (stack : Fin 8) (s : State) : Host.Outcome State Fault Refusal :=
  done (rlRun 0x20 stack [] (fun _ => []) (chain false) s)

/-- CHAIN_ADD: each sender's accumulator is added into its receiver's. -/
def execChainAdd (stack : Fin 8) (s : State) : Host.Outcome State Fault Refusal :=
  done (rlRun 0x21 stack [] (fun _ => []) (chain true) s)

/-! ## Suspension and reset (R273, R275) -/

/-- A batch suspended at a command boundary: every accumulator of the stack saved with its flags (R273). -/
def rlSuspend (st : Nat) (s : State) : State :=
  if !bitOf (s.get rlgStatusBusy) st ∨ bitOf (s.get rlgStatusSuspended) st then s
  else
    let ks := (List.range 512).map (fun i => st * 512 + i)
    let s := s.onRlg (fun r => { r with save := ks.foldl (fun m k =>
      Tab.set ([], 0) m k (Tab.get [] r.acc k, Tab.get 0 r.accPoison k)) r.save })
    raise rlgEvtSuspend (s.set rlgStatusSuspended (Nat.lor (s.get rlgStatusSuspended) (2 ^ st)))

/-- The accumulators restored and the batch continued (R273). -/
def rlResume (st : Nat) (s : State) : State :=
  if !bitOf (s.get rlgStatusSuspended) st then s
  else
    let ks := (List.range 512).map (fun i => st * 512 + i)
    let s := s.onRlg (fun r => { r with
      acc := ks.foldl (fun m k => Tab.set [] m k (Tab.get ([], 0) r.save k).1) r.acc
      accPoison := ks.foldl (fun m k => Tab.set 0 m k (Tab.get ([], 0) r.save k).2) r.accPoison })
    s.set rlgStatusSuspended (clearBits (s.get rlgStatusSuspended) (2 ^ st))

/-- The row logic at a compute reset: no further command runs, accumulators clear, outstanding fences complete with
ABORTED, those of the register and of a submitted batch with their report (R275, R265). -/
def rlReset (s : State) : State :=
  let s := State.each (s.rlg.fences.filter (fun f => f.by_ != 1)) fenceReport
    (if s.rlg.fences.isEmpty then s else s.set rlgFenceAborted 1)
  fencePending (s.onRlg (fun r => { r with batches := [], cover := [], fences := [], acc := [], accPoison := [] }))

/-- Whether a running batch names a pseudo-channel (R233). -/
def rlNames (s : State) (c : Nat) : Bool :=
  match rlBatch s (c / 32) with
  | some b => b.cmds.any (fun x => bitOf (b.masks.getD (rlMask x) (0, 0)).1 (c % 32))
  | none => false

/-- TG_START: a write of a TG_CTL register with START (R231 to R233). -/
def execTgStart (chan : Fin 288) (value : BitVec 32) (s : State) : Host.Outcome State Fault Refusal :=
  done (tgStart chan value.toNat (decide (chan.val < 256) && rlNames s chan) s)

end Sys2Proof.Machine
end

