-- ==== Sys2Proof/Machine/StrCore.lean ====
section
/-! DEFINITION. Stream contexts and Glade as the engines and the commands of chapter 08 use them (R276 to R303): the
descriptor, tiles, slot allocation, drain groups, wait-for registers and faults. Context states: 0 IDLE, 1 RUNNING,
2 WAITING, 3 BARRIER, 4 FAULTED, 5 HALTED, 6 HOLDING. -/

namespace Sys2Proof.Machine

/-! ## Contexts -/

/-- A context with no history. -/
def ctxEmpty : StrCtx := ⟨[], 0, false, noSlot, [], [], [], [], false, false, 0, false, 0, 0, 0, false, false, none, 0, 0, 0, []⟩

def State.ctx (s : State) (c : Nat) : StrCtx := Tab.get ctxEmpty s.str.ctx c

/-- A context changed. -/
def State.onCtx (c : Nat) (f : StrCtx → StrCtx) (s : State) : State :=
  { s with str := { s.str with ctx := Tab.set ctxEmpty s.str.ctx c (f (s.ctx c)) } }

/-- Descriptor fields (R277). -/
def StrCtx.tileBytes (x : StrCtx) : Nat := 4096 * 2 ^ min (leAt x.desc 4 1) 4
def StrCtx.tileSlots (x : StrCtx) : Nat := max 1 (x.tileBytes / 16384)
def StrCtx.depth (x : StrCtx) : Nat := leAt x.desc 5 1
def StrCtx.wdepth (x : StrCtx) : Nat := leAt x.desc 6 1
def StrCtx.xlate (x : StrCtx) : Bool := bitOf (leAt x.desc 7 1) 0
def StrCtx.look (x : StrCtx) : Bool := bitOf (leAt x.desc 7 1) 1
def StrCtx.inHint (x : StrCtx) : Nat := leAt x.desc 8 1
def StrCtx.outHint (x : StrCtx) : Nat := leAt x.desc 9 1
def StrCtx.uses (x : StrCtx) : Nat := leAt x.desc 10 1
def StrCtx.group (x : StrCtx) : Nat := leAt x.desc 11 1 % 16
def StrCtx.tileCycles (x : StrCtx) : Nat := leAt x.desc 12 4
def StrCtx.progLen (x : StrCtx) : Nat := leAt x.desc 24 1
def StrCtx.asid (x : StrCtx) : Nat := leAt x.desc 26 2

def strState (s : State) (c : Nat) : Nat := s.get (strStatState c)
def setStr (c v : Nat) (s : State) : State := s.set (strStatState c) v

/-- The layer of a group. -/
def layerOf (s : State) (g : Nat) : Nat := s.get (gldGroupStatLayer g)

/-- Whether an input tile is offered to the consumer: ready, and not held by its tag (R283, R292). -/
def offered (s : State) (x : StrCtx) (t : InTile) : Bool :=
  t.ready && !t.drop && (!x.look || decide ((t.tag + 65536 - layerOf s x.group) % 65536 = 0) ||
    decide (32768 ≤ (t.tag + 65536 - layerOf s x.group) % 65536))

/-- The tile the consumer reads or reads next, when it is offered. -/
def strHead (s : State) (c : Nat) : Option InTile :=
  (s.ctx c).inq.head?.bind (fun t => if offered s (s.ctx c) t then some t else none)

/-- Whether a tile holds slots. -/
def InTile.held (t : InTile) : Bool := t.reserved + t.shared != 0

/-- Reserved and shared slots that a context holds. -/
def StrCtx.reservedHeld (x : StrCtx) : Nat := (x.inq.map (fun t => t.reserved)).sum + (x.outq.map (fun t => t.reserved)).sum
def StrCtx.sharedHeld (x : StrCtx) : Nat := (x.inq.map (fun t => t.shared)).sum

/-- Free shared slots of the pool (R286). -/
def sharedFree (s : State) : Nat :=
  4096 - s.get gldStatusFloorSum - (s.str.ctx.map (fun p => p.2.sharedHeld)).sum

/-- Members of a drain group (R290): contexts whose running batch names it without LOOKAHEAD; a halted one is none. -/
def membersOf (s : State) (g : Nat) : List Nat :=
  (s.str.ctx.filter (fun p => p.2.active && !p.2.look && p.2.group == g && !p.2.held && strState s p.1 != 0 &&
    strState s p.1 != 5)).map Prod.fst

/-- Whether a member has arrived: in BARRIER with every tile released and committed. -/
def arrived (s : State) (c : Nat) : Bool := strState s c == 3 && (s.ctx c).inq.isEmpty && (s.ctx c).outq.isEmpty

/-! ## Wait-for and the derived registers (R299) -/

/-- Whether a context waits. -/
def strWaits (s : State) (c : Nat) : Bool := strState s c == 2 || strState s c == 3

/-- Whether a cap keeps a context from shared slots (R286, R302). -/
def capped (s : State) (c : Nat) : Bool :=
  let x := s.ctx c
  let m := s.get (strFloorShareMax c)
  x.barred || (m != 0 && decide (m < x.sharedHeld + x.tileSlots))

/-- Whether tiles of a context take reserved slots only (R288). -/
def reservedOnly (x : StrCtx) : Bool := x.inHint == 2 || x.look

/-- The owner of the oldest allocated shared slot that a context does not own. -/
def oldestOwner (s : State) (c : Nat) : Option Nat :=
  ((s.str.ctx.flatMap (fun p => if p.1 = c then [] else (p.2.inq.filter (fun t => t.shared != 0)).map (fun t => (t.stamp, p.1)))).foldl
    (fun b x => match b with
      | none => some x
      | some y => if x.1 < y.1 then some x else some y) (none : Option (Nat × Nat))).map Prod.snd

/-- The wait-for register of a context: kind (0 SPACE, 1 SIBLING, 2 BARRIER) and context (R299). -/
def waitFor (s : State) (c : Nat) : Option (Nat × Nat) :=
  let e := c / 8
  let x := s.ctx c
  if !strWaits s c then none
  else if s.flag (upeStatStallValid e) ∧ s.get (upeStatStallPort e) ≠ c % 8 then some (1, e * 8 + s.get (upeStatStallPort e))
  else if strState s c = 3 then ((membersOf s x.group).find? (fun m => !arrived s m)).map (fun m => (2, m))
  else if x.wait = 2 ∧ ¬ reservedOnly x ∧ ¬ capped s c then (oldestOwner s c).map (fun o => (0, o))
  else none

/-- The registers that follow from a context's queues and wait. -/
def syncCtx (c : Nat) (s : State) : State :=
  let x := s.ctx c
  let s := (s.set (strSlotsReserved c) x.reservedHeld).set (strSlotsShared c) x.sharedHeld
  let s := s.set (strEmittedIndex c) (s.get (strConsumedCount c) + (x.inq.takeWhile (fun t => t.held && !t.drop)).length)
  match waitFor s c with
  | some w => ((s.set (strWaitforValid c) 1).set (strWaitforKind c) w.1).set (strWaitforCtx c) w.2
  | none => s.set (strWaitforValid c) 0

/-- The derived registers of every context, of Glade and of the groups. -/
def strSync (s : State) : State :=
  let s := s.set gldStatusSharedFree (sharedFree s)
  let s := State.each (List.range 16) (fun g t =>
    t.set (gldGroupStatDraining g) (b2n ((membersOf t g).any (fun c => strState t c == 3)))) s
  State.each (Tab.keys s.str.ctx) syncCtx s

/-! ## Waiting and running -/

/-- A context waits for something; a wait that goes on keeps its start, and a wait for slots its own (R288, R300). -/
def strWait (c why : Nat) (s : State) : State :=
  let s := s.onCtx c (fun x =>
    let x := if why = 2 ∧ x.wait ≠ 2 then { x with space := s.now } else x
    if x.wait = 0 ∧ strState s c ≠ 3 then { x with wait := why, since := s.now, traces := 0 } else { x with wait := why })
  setStr c 2 s

/-- Whether the tag of a look-ahead context is above the next layer, so that it holds (R292). -/
def tagHolds (s : State) (c : Nat) : Bool :=
  let x := s.ctx c
  let ahead := (x.tag + 65536 - layerOf s x.group) % 65536
  x.look && decide (1 < ahead) && decide (ahead < 32768)

/-- A context runs on, or holds (R292; a HOLDING context runs no instruction, assumption 56). -/
def strRun (c : Nat) (s : State) : State :=
  setStr c (if tagHolds s c then 6 else 1) (s.onCtx c (fun x => { x with wait := 0 }))

/-- PC set; running past the last instruction executes END (R279). -/
def strPc (c n : Nat) (s : State) : State :=
  (s.set (strStatPc c) n).onCtx c (fun x => { x with past := decide (x.progLen ≤ n) })

/-- The next instruction. -/
def strNext (c : Nat) (s : State) : State := strRun c (strPc c (s.get (strStatPc c) + 1) s)

/-- A fault of a context (R294, R295): position kept, FAULTED; kinds other than PARKED are reported to the driver. -/
def strFault (c kind va : Nat) (s : State) : State :=
  let s := ((setStr c 4 s).set (strFaultKind c) kind).set (strFaultVaAddr c) va
  let s := s.onCtx c (fun x => { x with wait := 0, refused := none })
  if kind = 3 then s.set (strEvtFault c) 1
  else fault .stream kind c va 7 none (raise (strEvtFault c) s)

/-! ## Slots of Glade (R286 to R288) -/

/-- Contexts that wait for shared slots: first the cycle members that a victim's slots go to, then in the order in which they
began waiting for them (R288, R302). -/
def sharedWaiters (s : State) : List Nat :=
  let l := (s.str.ctx.filter (fun p => p.2.wait == 2 && strState s p.1 == 2 && !reservedOnly p.2 && !capped s p.1 &&
    decide (s.get (strFloorFloor p.1) < p.2.reservedHeld + p.2.tileSlots))).map (fun p => (p.2.space, p.1))
  let ws := (sortBy (fun a b => decide (a.1 < b.1) || (a.1 == b.1 && decide (a.2 ≤ b.2))) l).map Prod.snd
  let hs := (s.str.ctx.flatMap (fun p => p.2.heirs)).eraseDups.filter ws.contains
  hs ++ ws.filter (fun c => !hs.contains c)

/-- The slots that a tile of a context takes now, as (reserved, shared); `queue` keeps a new request behind older waiters. -/
def slotsFor (s : State) (c : Nat) (only queue : Bool) : Option (Nat × Nat) :=
  let x := s.ctx c
  let n := x.tileSlots
  if x.reservedHeld + n ≤ s.get (strFloorFloor c) then some (n, 0)
  else if only ∨ capped s c ∨ sharedFree s < n ∨ (queue ∧ (sharedWaiters s).any (fun d => d != c)) then none
  else some (0, n)

/-- The first tile of a queue that holds no slots. -/
def unheld (x : StrCtx) : Option Nat := x.inq.findIdx? (fun t => !t.held)

/-- A context that has got its tile of a victim's slots waits for no more of them (R302). -/
def dropHeir (c : Nat) (s : State) : State :=
  State.each ((s.str.ctx.filter (fun p => p.2.heirs.contains c)).map Prod.fst) (fun v t =>
    t.onCtx v (fun x => { x with heirs := x.heirs.filter (fun d => d != c) })) s

/-- A queue entry allocated. -/
def allocAt (c i r sh : Nat) (s : State) : State :=
  let s := (dropHeir c s).onCtx c (fun x => { x with inq := x.inq.modify i (fun t => { t with reserved := r, shared := sh, stamp := s.str.stamp, ready := false, drop := false }) })
  { s with str := { s.str with stamp := s.str.stamp + 1 } }

/-- A new input tile put at the end of the queue (R283). -/
def pushTile (c base r sh : Nat) (s : State) : State :=
  let s := (dropHeir c s).onCtx c (fun x => { x with inq := x.inq ++ [⟨base, x.tag, r, sh, s.str.stamp, false, [], [], false⟩] })
  { s with str := { s.str with stamp := s.str.stamp + 1 } }

/-! ## Programs (R280) -/

def insnOp (w : Nat) : Nat := bits w 0 6
def insnD (w : Nat) : Nat := bits w 6 3
def insnS (w : Nat) : Nat := bits w 9 3
def insnT (w : Nat) : Nat := bits w 12 3
def insnImm (w : Nat) : Nat := bits w 16 48

/-- The immediate, sign-extended to 64 bits. -/
def insnSimm (w : Nat) : Nat := wrapInt 64 (sgn 48 (insnImm w))

/-- An address register, and one written. -/
def aReg (s : State) (c i : Nat) : Nat := Tab.get 0 (s.ctx c).a i
def setA (c i v : Nat) (s : State) : State := s.onCtx c (fun x => { x with a := Tab.set 0 x.a i (v % 2 ^ 64) })
def lReg (s : State) (c i : Nat) : Nat := Tab.get 0 (s.ctx c).l i
def setL (c i v : Nat) (s : State) : State := s.onCtx c (fun x => { x with l := Tab.set 0 x.l i (v % 2 ^ 32) })

/-- The address that an instruction forms. -/
def insnAddr (s : State) (c w : Nat) : Nat := (aReg s c (insnS w) + insnSimm w) % 2 ^ 64

/-- The next instruction of a context, END past the last one. -/
def strInsn (s : State) (c : Nat) : Nat := if (s.ctx c).past then 0x1F else s.get (strProgInsn c (s.get (strStatPc c)))

/-- One instruction of a context: when it runs, or waits for the same instruction, and its opcode is `op`. Entries of the
input queue whose tiles were dropped are fetched again first (R297, R302, R307); a refused line of a tile faults it
(R295); a held batch stands (R305). -/
def strStep (op : Nat) (c : Nat) (f : Nat → State → State) (s : State) : State :=
  let x := s.ctx c
  let st := strState s c
  if !x.active ∨ x.ended ∨ x.halting ∨ x.held ∨ (st ≠ 1 ∧ st ≠ 2) then s
  else if (unheld x).isSome ∧ x.wait ≠ 4 then strSync (strWait c 2 s)
  else
    match x.refused with
    | some a => strSync (strFault c 6 a s)
    | none =>
      let w := strInsn s c
      if insnOp w = op then strSync (f w s) else s

/-! ## Translation of tiles -/

/-- Local addresses of a range, in pieces of at most one 64 KiB page: kind and address of the first fault, and the pieces
as (length, address). -/
def strPieces (c : Nat) (write : Bool) : Nat → Nat → Nat → State → (Nat × Nat) × List (Nat × Nat) × State
  | 0, _, _, s => ((0, 0), [], s)
  | k + 1, va, n, s =>
    if n = 0 then ((0, 0), [], s)
    else if !(s.ctx c).xlate then ((0, 0), [(n, va)], s)
    else
      let m := min n (65536 - va % 65536)
      let (kind, pa, s) := mmuTranslate (64 + c) (s.ctx c).asid va write true s
      if kind ≠ 0 then ((kind, va), [], s)
      else
        let (f, l, s) := strPieces c write k (va + m) (n - m) s
        (f, (m, pa) :: l, s)

/-- A range of a context's addresses. -/
def strRange (c : Nat) (write : Bool) (va n : Nat) (s : State) : (Nat × Nat) × List (Nat × Nat) × State :=
  strPieces c write (n / 65536 + 2) va n s

/-- The lines of pieces, as local addresses. -/
def lineAddrs (l : List (Nat × Nat)) : List Nat :=
  l.flatMap (fun p => (List.range ((p.1 + 127) / 128)).map (fun i => p.2 + 128 * i))

/-! ## What engines do with tiles (chapter 09) -/

/-- The consumer begins the tile at the head of the queue (R285). -/
def strBegin (c : Nat) (s : State) : State :=
  s.onCtx c (fun x => { x with tileNow := s.get (strConsumedCount c), began := cycleNow s })

/-- The deadline of the requests for an entry of the input queue: B + (i − k) × TILE_CYCLES, and that of a write-behind tile: the
cycle of its EMITW plus WDEPTH × TILE_CYCLES, with 32-bit wrap (R285). -/
def tileDeadline (s : State) (c i : Nat) : Nat :=
  let x := s.ctx c
  (x.began + (s.get (strConsumedCount c) + i - x.tileNow) * x.tileCycles) % 2 ^ 32
def outDeadline (x : StrCtx) (t : OutTile) : Nat := (t.emitted + x.wdepth * x.tileCycles) % 2 ^ 32

/-- The consumer releases the tile it has read: its slots and entry are freed, a victim's bar lifts (R284, R302). -/
def strRelease (c : Nat) (s : State) : State :=
  let s := s.onCtx c (fun x => { x with inq := x.inq.drop 1, barred := false })
  s.set (strConsumedCount c) (s.get (strConsumedCount c) + 1)

/-- The output tile that the engine fills. -/
def strOut (s : State) (c : Nat) : Option OutTile := (s.ctx c).outq.find? (fun t => !t.full)

/-- Bytes filled into the output tile; it is marked full when it holds a whole tile (R287). -/
def strFill (c : Nat) (bs : List Byte) (poison : List Nat) (s : State) : State :=
  let n := (s.ctx c).tileBytes
  s.onCtx c (fun x =>
    match x.outq.findIdx? (fun t => !t.full) with
    | none => x
    | some i => { x with outq := x.outq.modify i (fun t =>
        let d := t.data ++ bs
        { t with data := d, poison := t.poison ++ poison, full := decide (n ≤ d.length) }) })

/-! ## Halting (R298, R308) -/

/-- The input tiles of a context dropped: their entries keep the bases. -/
def dropTiles (c : Nat) (s : State) : State :=
  s.onCtx c (fun x => { x with inq := x.inq.map (fun t => { t with reserved := 0, shared := 0, ready := false, data := [], poison := [], drop := false }) })

end Sys2Proof.Machine
end

