-- ==== Sys2Proof/Machine/EngCore.lean ====
section
/-! DEFINITION. The update engine as its commands share it (R310 to R332, R406 to R415): the descriptor, the counter
generator and the LFSR lanes, EM48, conversions, registers and operands. Engine states: 0 IDLE, 1 ADMIT, 2 FETCH,
3 COMPUTE, 4 WAITING, 5 HALTED, 6 DERIVE. -/

namespace Sys2Proof.Machine

/-! ## Generators (R406, R412) -/

/-- Rotation of a 64-bit word to the left by 21. -/
def rotl21 (b : BitVec 64) : BitVec 64 := b.rotateLeft 21

/-- One round of the counter generator. -/
def gRound (key : BitVec 64) (ab : BitVec 64 × BitVec 64) (i : Nat) : BitVec 64 × BitVec 64 :=
  let a := (ab.1 + ab.2) * 0xD1B54A32D192ED03#64
  let a := a ^^^ (a >>> 32)
  let b := rotl21 ab.2 ^^^ a
  (a, b + key + BitVec.ofNat 64 (i + 1))

/-- The counter generator G (R406). -/
def gWord (key stream c : Nat) : Nat :=
  let k := BitVec.ofNat 64 key
  let st := BitVec.ofNat 64 (stream % 2 ^ 32)
  let r := (List.range 10).foldl (gRound k) (BitVec.ofNat 64 c, k ^^^ (st <<< 32) ^^^ st)
  ((r.1 >>> 32) ^^^ r.2).toNat % 2 ^ 32

/-- One step of an LFSR with tap mask `t`: the output bit and the next state. -/
def lfsrStep (t s : Nat) : Nat × Nat := (s % 2, if s % 2 = 1 then Nat.xor (s / 2) t else s / 2)

/-- One draw: 32 steps, output bit i from step i (R412). -/
def lfsrDraw (t s : Nat) : Nat × Nat :=
  (List.range 32).foldl (fun (r : Nat × Nat) i => let x := lfsrStep t r.2; (r.1 + x.1 * 2 ^ i, x.2)) (0, s)

/-- The KEYED state of lane `l` of engine `e` (R413). -/
def keyedState (k e l : Nat) : Nat :=
  let v := gWord k 0xFFFFFF00 (128 * e + 2 * l + 1) * 2 ^ 32 + gWord k 0xFFFFFF00 (128 * e + 2 * l)
  if v = 0 then 1 else v

/-! ## Engines -/

/-- An engine with no history. -/
def engEmpty : Eng := ⟨[], 0, false, 0, false, 0, 0, 0, 0, false, 0, false, 0, 0, 0, 0, [], [], false, none⟩

def State.eng (s : State) (e : Nat) : Eng := Tab.get engEmpty s.upe e

/-- An engine changed. -/
def State.onEng (e : Nat) (f : Eng → Eng) (s : State) : State := { s with upe := Tab.set engEmpty s.upe e (f (s.eng e)) }

def engState (s : State) (e : Nat) : Nat := s.get (upeStatState e)
def setEng (e v : Nat) (s : State) : State := s.set (upeStatState e) v

/-- The stall port reported (R318), and none. -/
def setStall (e p : Nat) (s : State) : State := strSync ((s.set (upeStatStallPort e) p).set (upeStatStallValid e) 1)
def noStall (e : Nat) (s : State) : State :=
  if s.flag (upeStatStallValid e) then strSync ((s.set (upeStatStallPort e) 0).set (upeStatStallValid e) 0) else s

/-- Descriptor fields (R311 to R313). -/
def Eng.elems (x : Eng) : Nat := leAt x.desc 8 8
def Eng.quads (x : Eng) : Nat := (x.elems + 255) / 256
def Eng.flag (x : Eng) (i : Nat) : Bool := bitOf (leAt x.desc 16 2) i
def Eng.statPort (x : Eng) : Option Nat := if bitOf (leAt x.desc 18 1) 7 then some (leAt x.desc 18 1 % 8) else none
def portWord (d : List Byte) (p : Nat) : Nat := leAt d (32 + 4 * p) 4
def Eng.port (x : Eng) (p : Nat) : Nat := portWord x.desc p
def portIn (w : Nat) : Bool := bitOf w 0
def portOut (w : Nat) : Bool := bitOf w 1
def portInFmt (w : Nat) : Nat := bits w 2 3
def portOutFmt (w : Nat) : Nat := bits w 5 3
def portRegIn (w : Nat) : Nat := bits w 8 4
def portRegOut (w : Nat) : Nat := bits w 12 4
def Eng.inPorts (x : Eng) : List Nat := (List.range 8).filter (fun p => portIn (x.port p))
def Eng.outPorts (x : Eng) : List Nat := (List.range 8).filter (fun p => portOut (x.port p))

/-- Bytes of an element in a port format: FP32, BF16, FP16, EXT16, C48RAW, C80RAW. -/
def portSize (f : Nat) : Nat := if f = 0 then 4 else if f = 4 then 8 else if f = 5 then 16 else 2

/-- Counter of batch element `j` (R331). -/
def counterOf (step n index0 j : Nat) : Nat := (step * n + index0 + j) % 2 ^ 64
def Eng.counter (x : Eng) (j : Nat) : Nat := counterOf x.step (leAt x.desc 168 8) (leAt x.desc 160 8) j

/-! ## EM48 (R330, R331) -/

/-- The EM48 pattern as a format: 8-bit exponent, 39-bit fraction, sign on top. -/
def fmtEm48 : Fmt := ⟨8, 39, true⟩

/-- The value of an EM48 pair from its words H and X; with exponent 255, H alone gives it. -/
def ofEm48 (h x : Nat) : Fp := if bits h 23 8 = 255 then ofF32 h else fmtEm48.decode (h * 2 ^ 16 + x % 2 ^ 16)

/-- The words H and X of a value rounded once to EM48. -/
def toEm48 (v : Fp) : Nat × Nat := let p := fmtEm48.encode v; (p / 2 ^ 16, p % 2 ^ 16)

/-- EMRND: the pattern rounded to the nearest FP32 pattern, ties to even. -/
def emRound (h x : Nat) : Nat :=
  if (ofEm48 h x).isNan then fmtFp32.nanBits
  else if bits h 23 8 = 255 then h
  else if 0x8000 < x % 2 ^ 16 ∨ (x % 2 ^ 16 = 0x8000 ∧ h % 2 = 1) then h + 1 else h

/-- SRBF: the stochastic rounding of a pair to BF16 with the generator word `r`, in FP32 form (R331). -/
def srbf (h x r : Nat) : Nat :=
  if (ofEm48 h x).isNan then fmtFp32.nanBits
  else if bits h 23 8 = 255 then h
  else
    let p := bits h 0 31 * 2 ^ 16 + x % 2 ^ 16
    let k := p / 2 ^ 32 + (if 2 ^ 32 ≤ p % 2 ^ 32 + r then 1 else 0)
    b2n (bitOf h 31) * 2 ^ 31 + k * 2 ^ 16

/-! ## Conversions (R321, R322) -/

/-- An input element of `b` bits in format `f` as FP32, with the window's EXP and WSTAT bytes. -/
def convIn (f b exp wstat : Nat) : Nat :=
  if f = 0 then b
  else if f = 1 ∨ f = 2 then f32 ((fmtOf f).decode b)
  else if f = 3 then b
  else if bitOf wstat 4 ∨ exp = 0 then 0
  else if exp = 255 then fmtFp32.nanBits
  else f32 (Fp.ofGrid false (sgn (if f = 4 then 64 else 128) b) ((exp : Int) - (if f = 4 then 161 else 189)))

/-- A lane's 32 bits as an output element of format `f`. -/
def convOut (f v : Nat) : Nat := if f = 0 then v else if f = 3 then v % 2 ^ 16 else (fmtOf f).encode (ofF32 v)

/-- Whether an output element is a NaN; EXT16 holds no value of its own. -/
def outNan (f b : Nat) : Bool := f != 3 && ((fmtOf f).decode b).isNan

/-! ## Registers and operands (R323, R324) -/

/-- A lane: 32 bits and its poison mark. -/
def lane (v : Nat) (p : Bool) : Nat := v % 2 ^ 32 + b2n p * 2 ^ 32
def laneBits (x : Nat) : Nat := x % 2 ^ 32
def lanePoison (x : Nat) : Bool := bitOf x 32

/-- The 64 lanes of a register of a bank. -/
def vreg (s : State) (e b r : Nat) : List Nat :=
  let l := Tab.get [] (s.eng e).v (b * 16 + r)
  if l = [] then List.replicate 64 0 else l

/-- A register of a bank written. -/
def setV (e b r : Nat) (l : List Nat) (s : State) : State :=
  s.onEng e (fun x => { x with v := Tab.set [] x.v (b * 16 + r) (if l.all (fun v => v == 0) then [] else l) })

def ruleOp (w : Nat) : Nat := bits w 0 7
def ruleD (w : Nat) : Nat := bits w 7 4
def ruleA (w : Nat) : Nat := bits w 11 4
def ruleB (w : Nat) : Nat := bits w 15 4
def ruleC (w : Nat) : Nat := bits w 19 4
def ruleSel (w : Nat) : Nat := bits w 23 2
def ruleK (w : Nat) : Nat := bits w 25 6

/-- An operand: the register, or the constant K[K] where KSEL replaces it (1 A, 2 B, 3 C). -/
def operand (s : State) (e b w which : Nat) : List Nat :=
  if ruleSel w = which then List.replicate 64 (s.get (upeConstValue e (ruleK w)))
  else vreg s e b (if which = 1 then ruleA w else if which = 2 then ruleB w else ruleC w)

/-- Lanes combined: one, two or three operands; a poisoned operand lane marks the result lane. -/
def lanes1 (f : Nat → Nat) (a : List Nat) : List Nat := a.map (fun x => lane (f (laneBits x)) (lanePoison x))
def lanes2 (f : Nat → Nat → Nat) (a b : List Nat) : List Nat :=
  (a.zip b).map (fun p => lane (f (laneBits p.1) (laneBits p.2)) (lanePoison p.1 || lanePoison p.2))
def lanes3 (f : Nat → Nat → Nat → Nat) (a b c : List Nat) : List Nat :=
  (a.zip (b.zip c)).map (fun p => lane (f (laneBits p.1) (laneBits p.2.1) (laneBits p.2.2))
    (lanePoison p.1 || lanePoison p.2.1 || lanePoison p.2.2))

/-! ## The rule program (R319, R325) -/

/-- The next instruction: END past the last one. -/
def ruleInsn (s : State) (e : Nat) : Nat :=
  let x := s.eng e
  if x.pc < x.len then s.get (upeRuleInsn e (x.entry + x.pc)) else 0x3F

/-- Issue cost of an opcode per beat (R325). -/
def issueCost (op : Nat) : Nat :=
  if op = 0x3F then 0
  else if (0x10 ≤ op ∧ op ≤ 0x13) ∨ op = 0x18 ∨ op = 0x21 ∨ op = 0x22 ∨ op = 0x24 then 2 else 1

/-- The next instruction of an engine's program run for beats 0 to 3 in turn when its opcode is `op`. -/
def ruleStep (op e : Nat) (f : Nat → Nat → State → State) (s : State) : State :=
  let w := ruleInsn s e
  if !(s.eng e).active ∨ engState s e ≠ 3 ∨ ruleOp w ≠ op then s
  else
    let s := State.each (List.range 4) (fun b t => f w b t) s
    (s.bump (upeComputeCycCount e) (4 * issueCost op)).onEng e (fun x => { x with pc := x.pc + 1 })

/-- Lane-wise instructions of one, two and three operands, on one beat. -/
def beat1 (f : Nat → Nat) (e w b : Nat) (t : State) : State := setV e b (ruleD w) (lanes1 f (operand t e b w 1)) t
def beat2 (f : Nat → Nat → Nat) (e w b : Nat) (t : State) : State :=
  setV e b (ruleD w) (lanes2 f (operand t e b w 1) (operand t e b w 2)) t
def beat3 (f : Nat → Nat → Nat → Nat) (e w b : Nat) (t : State) : State :=
  setV e b (ruleD w) (lanes3 f (operand t e b w 1) (operand t e b w 2) (operand t e b w 3)) t

/-- Batch element of lane `l` of bank `b` in the quad that is computed. -/
def elemOf (s : State) (e b l : Nat) : Nat := 256 * s.get (upeQuadsCount e) + 64 * b + l

/-- Whether a lane is active (R320). -/
def activeLane (s : State) (e b l : Nat) : Bool := decide (elemOf s e b l < (s.eng e).elems)

/-! ## L1 arrays (R313, R327) -/

/-- Base, MODE, PERIOD and OFFSET of array `k` of a descriptor. -/
def laBase (d : List Byte) (k : Nat) : Nat := leAt d (64 + 16 * k) 6
def laRow (d : List Byte) (k : Nat) : Bool := bitOf (leAt d (64 + 16 * k) 8) 48
def laPeriod (d : List Byte) (k : Nat) : Nat := leAt d (72 + 16 * k) 4
def laOffset (d : List Byte) (k : Nat) : Nat := leAt d (76 + 16 * k) 4

/-- The address of the array element of batch element `j`. -/
def laAddr (d : List Byte) (k j : Nat) : Nat :=
  let u := j + laOffset d k
  laBase d k + 4 * (if laRow d k then u / laPeriod d k else u % laPeriod d k)

/-- An array element read: 32 bits, poison, refused. An element of an array whose ADDR is not aligned may lie in two lines. -/
def laRead (e a : Nat) (s : State) : Nat × Bool × Bool × State :=
  let (bs, po, rf, s) := (pieces a 4).foldl (fun acc p =>
    let (bs, po, rf, s) := acc
    let (b, q, r, s) := l1Read e p.1 p.2 s
    (bs ++ b, po || q, rf || r, s)) ([], false, false, s)
  (leNat bs, po, rf, s)

/-- An array element written; a refused write is dropped and reported. -/
def laWrite (e a v : Nat) (po : Bool) (s : State) : State :=
  State.each (pieces a 4) (fun p t => (l1Write e p.1 (slice (leBytes 4 v) (p.1 - a) p.2) po t).2) s

/-- Sum of a balanced binary tree over 2^k values, neighbours first, each addition rounded (R327). -/
def treeSum : Nat → List Nat → Nat
  | 0, l => l.getD 0 0
  | k + 1, l => treeSum k ((List.range (2 ^ k)).map (fun i => f32Add (l.getD (2 * i) 0) (l.getD (2 * i + 1) 0)))

end Sys2Proof.Machine
end

