-- ==== Sys2Proof/Machine/Rules.lean ====
section
/-! DEFINITION. The instructions of rule programs (R325): each command runs the next instruction of an engine's program,
for beats 0 to 3 in turn, when the engine is in COMPUTE and the instruction has the command's opcode. The effect of an
instruction on one beat is a definition of its own, which the rotation programs of the KV service use too (R389). -/

namespace Sys2Proof.Machine

/-- NOP: no effect. -/
def ruleNopBeat (_e _w _b : Nat) (t : State) : State := t

/-- NOP: the next instruction of the engine run when it is this one. -/
def execRuleNop (eng : Fin 64) (s : State) : Host.Outcome State Fault Refusal :=
  done (ruleStep 0x00 eng (ruleNopBeat eng) s)

/-- VADD: D = A + B. -/
def vaddBeat (e w b : Nat) (t : State) : State := beat2 f32Add e w b t

/-- VADD: the next instruction of the engine run when it is this one. -/
def execVadd (eng : Fin 64) (s : State) : Host.Outcome State Fault Refusal :=
  done (ruleStep 0x01 eng (vaddBeat eng) s)

/-- VSUB: D = A − B. -/
def vsubBeat (e w b : Nat) (t : State) : State := beat2 (fun a b => f32 ((ofF32 a).sub (ofF32 b))) e w b t

/-- VSUB: the next instruction of the engine run when it is this one. -/
def execVsub (eng : Fin 64) (s : State) : Host.Outcome State Fault Refusal :=
  done (ruleStep 0x02 eng (vsubBeat eng) s)

/-- VMUL: D = A × B. -/
def vmulBeat (e w b : Nat) (t : State) : State := beat2 f32Mul e w b t

/-- VMUL: the next instruction of the engine run when it is this one. -/
def execVmul (eng : Fin 64) (s : State) : Host.Outcome State Fault Refusal :=
  done (ruleStep 0x03 eng (vmulBeat eng) s)

/-- VFMA: D = A × B + C, one rounding. -/
def vfmaBeat (e w b : Nat) (t : State) : State := beat3 f32Fma e w b t

/-- VFMA: the next instruction of the engine run when it is this one. -/
def execVfma (eng : Fin 64) (s : State) : Host.Outcome State Fault Refusal :=
  done (ruleStep 0x04 eng (vfmaBeat eng) s)

/-- VFNMA: D = C − A × B, one rounding. -/
def vfnmaBeat (e w b : Nat) (t : State) : State := beat3 (fun a b c => f32 ((ofF32 c).sub ((ofF32 a).mul (ofF32 b)))) e w b t

/-- VFNMA: the next instruction of the engine run when it is this one. -/
def execVfnma (eng : Fin 64) (s : State) : Host.Outcome State Fault Refusal :=
  done (ruleStep 0x05 eng (vfnmaBeat eng) s)

/-- The larger, and the smaller, of two FP32 values: canonical NaN when either is NaN, −0.0 below +0.0 (R326). -/
def f32Max (a b : Nat) : Nat :=
  let x := ofF32 a
  let y := ofF32 b
  if x.isNan ∨ y.isNan then fmtFp32.nanBits
  else if x.lt y then b
  else if y.lt x then a
  else if bitOf a 31 then b else a
def f32Min (a b : Nat) : Nat :=
  let x := ofF32 a
  let y := ofF32 b
  if x.isNan ∨ y.isNan then fmtFp32.nanBits
  else if x.lt y then a
  else if y.lt x then b
  else if bitOf a 31 then a else b

/-- VMAX: D = max(A, B). -/
def vmaxBeat (e w b : Nat) (t : State) : State := beat2 f32Max e w b t

/-- VMAX: the next instruction of the engine run when it is this one. -/
def execVmax (eng : Fin 64) (s : State) : Host.Outcome State Fault Refusal :=
  done (ruleStep 0x06 eng (vmaxBeat eng) s)

/-- VMIN: D = min(A, B). -/
def vminBeat (e w b : Nat) (t : State) : State := beat2 f32Min e w b t

/-- VMIN: the next instruction of the engine run when it is this one. -/
def execVmin (eng : Fin 64) (s : State) : Host.Outcome State Fault Refusal :=
  done (ruleStep 0x07 eng (vminBeat eng) s)

/-- VABS: D = |A|. -/
def vabsBeat (e w b : Nat) (t : State) : State := beat1 (fun a => f32 (ofF32 a).abs) e w b t

/-- VABS: the next instruction of the engine run when it is this one. -/
def execVabs (eng : Fin 64) (s : State) : Host.Outcome State Fault Refusal :=
  done (ruleStep 0x08 eng (vabsBeat eng) s)

/-- VNEG: D = −A. -/
def vnegBeat (e w b : Nat) (t : State) : State := beat1 (fun a => f32 (ofF32 a).neg) e w b t

/-- VNEG: the next instruction of the engine run when it is this one. -/
def execVneg (eng : Fin 64) (s : State) : Host.Outcome State Fault Refusal :=
  done (ruleStep 0x09 eng (vnegBeat eng) s)

/-- The sign of an FP32 value as +1.0, −1.0 or +0.0. -/
def f32Sign (a : Nat) : Nat :=
  let x := ofF32 a
  if x.isNan then fmtFp32.nanBits else if x.isZero then 0 else if x.isNeg then 0xBF800000 else 0x3F800000

/-- VSIGN: D = the sign of A. -/
def vsignBeat (e w b : Nat) (t : State) : State := beat1 f32Sign e w b t

/-- VSIGN: the next instruction of the engine run when it is this one. -/
def execVsign (eng : Fin 64) (s : State) : Host.Outcome State Fault Refusal :=
  done (ruleStep 0x0A eng (vsignBeat eng) s)

/-- VSEL: D = C ≠ 0 as bits ? A : B; poison of C and of the selected operand only (R323). -/
def vselBeat (e w b : Nat) (t : State) : State :=
    setV e b (ruleD w) (((operand t e b w 1).zip ((operand t e b w 2).zip (operand t e b w 3))).map (fun p =>
      let v := if laneBits p.2.2 ≠ 0 then p.1 else p.2.1
      lane (laneBits v) (lanePoison v || lanePoison p.2.2))) t

/-- VSEL: the next instruction of the engine run when it is this one. -/
def execVsel (eng : Fin 64) (s : State) : Host.Outcome State Fault Refusal :=
  done (ruleStep 0x0B eng (vselBeat eng) s)

/-- VCMPLT: D = all ones where A < B. -/
def vcmpltBeat (e w b : Nat) (t : State) : State := beat2 (fun a b => if (ofF32 a).lt (ofF32 b) then 0xFFFFFFFF else 0) e w b t

/-- VCMPLT: the next instruction of the engine run when it is this one. -/
def execVcmplt (eng : Fin 64) (s : State) : Host.Outcome State Fault Refusal :=
  done (ruleStep 0x0C eng (vcmpltBeat eng) s)

/-- The value 1.0. -/
def fpOne : Fp := .fin false 1 0

/-- VRCP: D = 1 / A. -/
def vrcpBeat (e w b : Nat) (t : State) : State := beat1 (fun a => f32 (fpOne.div (ofF32 a))) e w b t

/-- VRCP: the next instruction of the engine run when it is this one. -/
def execVrcp (eng : Fin 64) (s : State) : Host.Outcome State Fault Refusal :=
  done (ruleStep 0x10 eng (vrcpBeat eng) s)

/-- VSQRT: D = √A. -/
def vsqrtBeat (e w b : Nat) (t : State) : State := beat1 (fun a => f32 (ofF32 a).sqrt) e w b t

/-- VSQRT: the next instruction of the engine run when it is this one. -/
def execVsqrt (eng : Fin 64) (s : State) : Host.Outcome State Fault Refusal :=
  done (ruleStep 0x11 eng (vsqrtBeat eng) s)

/-- VRSQRT: D = 1 / √A. -/
def vrsqrtBeat (e w b : Nat) (t : State) : State := beat1 (fun a => f32 (fpOne.div (ofF32 a).sqrt)) e w b t

/-- VRSQRT: the next instruction of the engine run when it is this one. -/
def execVrsqrt (eng : Fin 64) (s : State) : Host.Outcome State Fault Refusal :=
  done (ruleStep 0x12 eng (vrsqrtBeat eng) s)

/-- VDIV: D = A / B. -/
def vdivBeat (e w b : Nat) (t : State) : State := beat2 (fun a b => f32 ((ofF32 a).div (ofF32 b))) e w b t

/-- VDIV: the next instruction of the engine run when it is this one. -/
def execVdiv (eng : Fin 64) (s : State) : Host.Outcome State Fault Refusal :=
  done (ruleStep 0x13 eng (vdivBeat eng) s)

/-- A 32-bit draw as a value in [0, 1) (R332). -/
def uniform (r : Nat) : Nat := f32 (.fin false (r / 256) (-24))

/-- One draw of all 64 LFSR lanes of an engine (R412). -/
def drawLanes (e : Nat) (s : State) : List Nat × State :=
  let x := s.eng e
  let ds := (List.range 64).map (fun l => lfsrDraw (s.get (rngPolyTaps l)) (Tab.get (0, 0) x.gen l).1)
  let gen := ds.zipIdx.foldl (fun t d => Tab.set (0, 0) t d.2 (d.1.2, ((Tab.get (0, 0) x.gen d.2).2 + 1) % 2 ^ 64)) x.gen
  (ds.map Prod.fst, s.onEng e (fun y => { y with gen := gen }))

/-- VRND: K 1 draws from the LFSR lanes, any other K from the counter generator (R332, R408). -/
def vrndBeat (e w b : Nat) (t : State) : State :=
    let k := ruleK w
    if k = 1 then
      let (ds, t) := drawLanes e t
      setV e b (ruleD w) (ds.map uniform) t
    else
      let x := t.eng e
      let st := (leAt x.desc 200 4 + (k - 1)) % 2 ^ 32
      setV e b (ruleD w) ((List.range 64).map (fun l => uniform (gWord x.key st (x.counter (elemOf t e b l))))) t

/-- VRND: the next instruction of the engine run when it is this one. -/
def execVrnd (eng : Fin 64) (s : State) : Host.Outcome State Fault Refusal :=
  done (ruleStep 0x18 eng (vrndBeat eng) s)

/-- EMSET: the pair D holds A with an extension of 0. -/
def emsetBeat (e w b : Nat) (t : State) : State :=
    let a := operand t e b w 1
    setV e b (ruleD w + 1) (a.map (fun x => lane 0 (lanePoison x))) (setV e b (ruleD w) a t)

/-- EMSET: the next instruction of the engine run when it is this one. -/
def execEmset (eng : Fin 64) (s : State) : Host.Outcome State Fault Refusal :=
  done (ruleStep 0x20 eng (emsetBeat eng) s)

/-- The pair D replaced by a value of the pair and other operands, rounded once (R330). -/
def emPut (e b d : Nat) (f : Fp → Nat → Fp) (poison : Nat → Bool) (s : State) : State :=
  let h := vreg s e b d
  let x := vreg s e b (d + 1)
  let r := (List.range 64).map (fun l =>
    let hl := h.getD l 0
    let xl := x.getD l 0
    (toEm48 (f (ofEm48 (laneBits hl) (laneBits xl)) l), lanePoison hl || lanePoison xl || poison l))
  setV e b (d + 1) (r.map (fun v => lane v.1.2 v.2)) (setV e b d (r.map (fun v => lane v.1.1 v.2)) s)

/-- EMADD: pair D = pair D + B × C. -/
def emaddBeat (e w b : Nat) (t : State) : State :=
    let x := operand t e b w 2
    let y := operand t e b w 3
    emPut e b (ruleD w) (fun p l => p.add ((ofF32 (laneBits (x.getD l 0))).mul (ofF32 (laneBits (y.getD l 0)))))
      (fun l => lanePoison (x.getD l 0) || lanePoison (y.getD l 0)) t

/-- EMADD: the next instruction of the engine run when it is this one. -/
def execEmadd (eng : Fin 64) (s : State) : Host.Outcome State Fault Refusal :=
  done (ruleStep 0x21 eng (emaddBeat eng) s)

/-- EMUPD: pair D = pair D × A + B × C. -/
def emupdBeat (e w b : Nat) (t : State) : State :=
    let a := operand t e b w 1
    let x := operand t e b w 2
    let y := operand t e b w 3
    emPut e b (ruleD w)
      (fun p l => (p.mul (ofF32 (laneBits (a.getD l 0)))).add
        ((ofF32 (laneBits (x.getD l 0))).mul (ofF32 (laneBits (y.getD l 0)))))
      (fun l => lanePoison (a.getD l 0) || lanePoison (x.getD l 0) || lanePoison (y.getD l 0)) t

/-- EMUPD: the next instruction of the engine run when it is this one. -/
def execEmupd (eng : Fin 64) (s : State) : Host.Outcome State Fault Refusal :=
  done (ruleStep 0x22 eng (emupdBeat eng) s)

/-- EMRND: D = pair A rounded to FP32. -/
def emrndBeat (e w b : Nat) (t : State) : State :=
    setV e b (ruleD w) (lanes2 emRound (vreg t e b (ruleA w)) (vreg t e b (ruleA w + 1))) t

/-- EMRND: the next instruction of the engine run when it is this one. -/
def execEmrnd (eng : Fin 64) (s : State) : Host.Outcome State Fault Refusal :=
  done (ruleStep 0x23 eng (emrndBeat eng) s)

/-- SRBF: D = pair A rounded stochastically to BF16 with the word of the element's counter (R331). -/
def srbfBeat (e w b : Nat) (t : State) : State :=
    let x := t.eng e
    let h := vreg t e b (ruleA w)
    let ex := vreg t e b (ruleA w + 1)
    setV e b (ruleD w) ((List.range 64).map (fun l =>
      let r := gWord x.key (leAt x.desc 152 4) (x.counter (elemOf t e b l))
      lane (srbf (laneBits (h.getD l 0)) (laneBits (ex.getD l 0)) r) (lanePoison (h.getD l 0) || lanePoison (ex.getD l 0)))) t

/-- SRBF: the next instruction of the engine run when it is this one. -/
def execSrbf (eng : Fin 64) (s : State) : Host.Outcome State Fault Refusal :=
  done (ruleStep 0x24 eng (srbfBeat eng) s)

/-- RNBF: D = A rounded to BF16, nearest-even, held as FP32. -/
def rnbfBeat (e w b : Nat) (t : State) : State := beat1 (fun a => fmtBf16.encode (ofF32 a) * 2 ^ 16) e w b t

/-- RNBF: the next instruction of the engine run when it is this one. -/
def execRnbf (eng : Fin 64) (s : State) : Host.Outcome State Fault Refusal :=
  done (ruleStep 0x25 eng (rnbfBeat eng) s)

/-- VLD: D = LA[k][index] in the active lanes; the spec states no value for an inactive lane, which touches no array
element (R320; assumption 3). -/
def vldBeat (e w b : Nat) (t : State) : State :=
    let d := (t.eng e).desc
    let (l, t) := (List.range 64).foldl (fun (acc : List Nat × State) l =>
      let (r, u) := acc
      if activeLane u e b l then
        let (v, po, rf, u) := laRead e (laAddr d (ruleK w % 4) (elemOf u e b l)) u
        (r ++ [lane v (po || rf)], u)
      else
        let (v, u) := u.takeFree
        (r ++ [lane v false], u)) ([], t)
    setV e b (ruleD w) l t

/-- VLD: the next instruction of the engine run when it is this one. -/
def execVld (eng : Fin 64) (s : State) : Host.Outcome State Fault Refusal :=
  whole (fun s =>
    done (ruleStep 0x28 eng (vldBeat eng) s)) s

/-- VST: LA[k][index] = A in the active lanes, ascending. -/
def vstBeat (e w b : Nat) (t : State) : State :=
    let d := (t.eng e).desc
    let a := operand t e b w 1
    State.each (List.range 64) (fun l u =>
      if activeLane u e b l then
        laWrite e (laAddr d (ruleK w % 4) (elemOf u e b l)) (laneBits (a.getD l 0)) (lanePoison (a.getD l 0)) u
      else u) t

/-- VST: the next instruction of the engine run when it is this one. -/
def execVst (eng : Fin 64) (s : State) : Host.Outcome State Fault Refusal :=
  whole (fun s =>
    done (ruleStep 0x29 eng (vstBeat eng) s)) s

/-- VACC: LA[k][index] = LA[k][index] + A × B, one rounding, lanes ascending. -/
def vaccBeat (e w b : Nat) (t : State) : State :=
    let d := (t.eng e).desc
    let x := vreg t e b (ruleA w)
    let y := vreg t e b (ruleB w)
    State.each (List.range 64) (fun l u =>
      if activeLane u e b l then
        let at_ := laAddr d (ruleK w % 4) (elemOf u e b l)
        let (v, po, rf, u) := laRead e at_ u
        if rf then u
        else laWrite e at_ (f32Fma (laneBits (x.getD l 0)) (laneBits (y.getD l 0)) v)
          (po || lanePoison (x.getD l 0) || lanePoison (y.getD l 0)) u
      else u) t

/-- VACC: the next instruction of the engine run when it is this one. -/
def execVacc (eng : Fin 64) (s : State) : Host.Outcome State Fault Refusal :=
  whole (fun s =>
    done (ruleStep 0x2A eng (vaccBeat eng) s)) s

/-- VRSUM: the tree sum of the lanes' products added to the array element of lane 0 (R327). -/
def vrsumBeat (e w b : Nat) (t : State) : State :=
    if !activeLane t e b 0 then t
    else
      let x := vreg t e b (ruleA w)
      let y := vreg t e b (ruleB w)
      let live := (List.range 64).filter (fun l => activeLane t e b l)
      let ps := (List.range 64).map (fun l =>
        if activeLane t e b l then f32Mul (laneBits (x.getD l 0)) (laneBits (y.getD l 0)) else 0)
      let at_ := laAddr (t.eng e).desc (ruleK w % 4) (elemOf t e b 0)
      let (v, po, rf, t) := laRead e at_ t
      if rf then t
      else laWrite e at_ (f32Add v (treeSum 6 ps))
        (po || live.any (fun l => lanePoison (x.getD l 0) || lanePoison (y.getD l 0))) t

/-- VRSUM: the next instruction of the engine run when it is this one. -/
def execVrsum (eng : Fin 64) (s : State) : Host.Outcome State Fault Refusal :=
  whole (fun s =>
    done (ruleStep 0x2B eng (vrsumBeat eng) s)) s

/-- QSTAT: D = all ones in the lanes that meet mask K: bits 0 to 3 by the window's status, bit 4 by the lane's poison on
the status port; never poisoned (R323, R328). -/
def qstatBeat (e w b : Nat) (t : State) : State :=
    let x := t.eng e
    let k := ruleK w
    setV e b (ruleD w) ((List.range 64).map (fun l =>
      if Nat.land k (x.wstat % 16) ≠ 0 ∨ (bitOf k 4 ∧ bitOf x.mark (64 * b + l)) then 0xFFFFFFFF else 0)) t

/-- QSTAT: the next instruction of the engine run when it is this one. -/
def execQstat (eng : Fin 64) (s : State) : Host.Outcome State Fault Refusal :=
  done (ruleStep 0x30 eng (qstatBeat eng) s)

/-- One instruction of any opcode but END on one beat; a reserved opcode has no effect. -/
def ruleBeat (e w b : Nat) (t : State) : State :=
  if ruleOp w = 0x00 then ruleNopBeat e w b t
  else if ruleOp w = 0x01 then vaddBeat e w b t
  else if ruleOp w = 0x02 then vsubBeat e w b t
  else if ruleOp w = 0x03 then vmulBeat e w b t
  else if ruleOp w = 0x04 then vfmaBeat e w b t
  else if ruleOp w = 0x05 then vfnmaBeat e w b t
  else if ruleOp w = 0x06 then vmaxBeat e w b t
  else if ruleOp w = 0x07 then vminBeat e w b t
  else if ruleOp w = 0x08 then vabsBeat e w b t
  else if ruleOp w = 0x09 then vnegBeat e w b t
  else if ruleOp w = 0x0A then vsignBeat e w b t
  else if ruleOp w = 0x0B then vselBeat e w b t
  else if ruleOp w = 0x0C then vcmpltBeat e w b t
  else if ruleOp w = 0x10 then vrcpBeat e w b t
  else if ruleOp w = 0x11 then vsqrtBeat e w b t
  else if ruleOp w = 0x12 then vrsqrtBeat e w b t
  else if ruleOp w = 0x13 then vdivBeat e w b t
  else if ruleOp w = 0x18 then vrndBeat e w b t
  else if ruleOp w = 0x20 then emsetBeat e w b t
  else if ruleOp w = 0x21 then emaddBeat e w b t
  else if ruleOp w = 0x22 then emupdBeat e w b t
  else if ruleOp w = 0x23 then emrndBeat e w b t
  else if ruleOp w = 0x24 then srbfBeat e w b t
  else if ruleOp w = 0x25 then rnbfBeat e w b t
  else if ruleOp w = 0x28 then vldBeat e w b t
  else if ruleOp w = 0x29 then vstBeat e w b t
  else if ruleOp w = 0x2A then vaccBeat e w b t
  else if ruleOp w = 0x2B then vrsumBeat e w b t
  else if ruleOp w = 0x30 then qstatBeat e w b t
  else t

/-- END: the program ends for every beat; the engine goes to FETCH with outputs to write. After the last quad of a batch
with FENCE, the engine's fence is issued (R319, R440). -/
def execRuleEnd (eng : Fin 64) (s : State) : Host.Outcome State Fault Refusal :=
  let e := eng.val
  let x := s.eng e
  if !x.active ∨ engState s e ≠ 3 ∨ ruleOp (ruleInsn s e) ≠ 0x3F then done s
  else
    let s := (setEng e 2 s).onEng e (fun x => { x with pend := true })
    if x.flag 2 ∧ s.get (upeQuadsCount e) + 1 = x.quads then
      done { s with coh := { s.coh with batchFence := Nat.lor s.coh.batchFence (2 ^ e) } }
    else done s

end Sys2Proof.Machine
end

