-- ==== Sys2Proof/Machine/Engines.lean ====
section
/-! DEFINITION. The commands of the update engines (R310 to R342): batch start, FETCH, completion, halt, save and restore,
submission, the rule store, and the derive pass. -/

namespace Sys2Proof.Machine

/-! ## The admission check (R314, R324) -/

/-- What an opcode uses: D, A, B, C, and its kind: 0 plain, 1 array, 2 VRND, 3 QSTAT, 4 pair D, 5 pair A; none for a
reserved opcode. -/
def ruleShape (op : Nat) : Option (Bool × Bool × Bool × Bool × Nat) :=
  if op = 0x00 ∨ op = 0x3F then some (false, false, false, false, 0)
  else if op = 0x04 ∨ op = 0x05 ∨ op = 0x0B then some (true, true, true, true, 0)
  else if op = 0x08 ∨ op = 0x09 ∨ op = 0x0A ∨ op = 0x10 ∨ op = 0x11 ∨ op = 0x12 ∨ op = 0x25 then some (true, true, false, false, 0)
  else if (1 ≤ op ∧ op ≤ 0x0C) ∨ op = 0x13 then some (true, true, true, false, 0)
  else if op = 0x18 then some (true, false, false, false, 2)
  else if op = 0x20 then some (true, true, false, false, 4)
  else if op = 0x21 then some (true, false, true, true, 4)
  else if op = 0x22 then some (true, true, true, true, 4)
  else if op = 0x23 ∨ op = 0x24 then some (true, true, false, false, 5)
  else if op = 0x28 then some (true, false, false, false, 1)
  else if op = 0x29 then some (false, true, false, false, 1)
  else if op = 0x2A ∨ op = 0x2B then some (false, true, true, false, 1)
  else if op = 0x30 then some (true, true, false, false, 3)
  else none

/-- Whether an instruction passes the INSN check of a descriptor: a field that KSEL replaces counts as unused. -/
def ruleOk (d : List Byte) (w : Nat) : Bool :=
  match ruleShape (ruleOp w) with
  | none => false
  | some (ud, ua, ub, uc, k) =>
    let sel := ruleSel w
    let kf := ruleK w
    !bitOf w 31 && (ud || ruleD w == 0) && ((ua && sel != 1) || ruleA w == 0) && ((ub && sel != 2) || ruleB w == 0) &&
      ((uc && sel != 3) || ruleC w == 0) &&
      (sel == 0 || ((k == 0 || k == 4) && (if sel = 1 then ua else if sel = 2 then ub else uc) && decide (kf < leAt d 19 1))) &&
      (sel != 0 || (if k = 1 then decide (kf < 4) && laBase d kf != 0
        else if k = 2 then true else if k = 3 then decide (kf < 32) else kf == 0)) &&
      (k != 4 || ruleD w % 2 == 0) && (k != 5 || ruleA w % 2 == 0) &&
      (k != 3 || (bitOf (leAt d 18 1) 7 && ruleA w == leAt d 18 1 % 8))

/-- VINIT entries of a descriptor: register, constant, VALID. -/
def vinits (d : List Byte) : List (Nat × Nat × Bool) :=
  (List.range 8).map (fun i => let w := leAt d (208 + 2 * i) 2; (bits w 0 4, bits w 4 6, bitOf w 15))

/-- Whether a used array fails the ARRAY check. -/
def laBad (s : State) (d : List Byte) (k : Nat) : Bool :=
  let p := laPeriod d k
  let o := laOffset d k
  laBase d k != 0 && (p == 0 || p % 256 != 0 || o % 256 != 0 ||
    !servedRange s (laBase d k) (4 * (if laRow d k then (o + leAt d 8 8 - 1) / p + 1 else p)))

/-- Whether a reserved field of a descriptor is not 0. -/
def engReserved (d : List Byte) : Bool :=
  decide (1024 ≤ leAt d 4 2) || decide (2048 ≤ leAt d 6 2) || decide (16 ≤ leAt d 16 2) || bits (leAt d 18 1) 3 4 != 0 ||
    leAt d 20 4 != 0 || (List.range 8).any (fun p => decide (65536 ≤ portWord d p)) ||
    (List.range 4).any (fun k => bits (leAt d (64 + 16 * k) 8) 49 15 != 0) || leAt d 204 4 != 0 ||
    (List.range 8).any (fun i => bits (leAt d (208 + 2 * i) 2) 10 5 != 0) || leAt d 224 32 != 0

/-- The first failing check of R314 in table order with the instruction index, 0 for none. `bad` says that the
descriptor cannot be read, `lost` that a constant returned POISON. -/
def engReason (s : State) (e at_ : Nat) (d : List Byte) (bad lost : Bool) : Nat × Nat :=
  let entry := bits (leAt d 4 2) 0 10
  let len := bits (leAt d 6 2) 0 11
  let ps := List.range 8
  let w (p : Nat) : Nat := portWord d p
  let ins := ps.filter (fun p => portIn (w p))
  let sp := leAt d 18 1 % 8
  let en := bitOf (leAt d 18 1) 7
  let cont := bitOf (leAt d 16 2) 3
  let kc := leAt d 19 1
  if bad ∨ leAt d 0 4 ≠ 0x55504542 then (1, 0)
  else if len = 0 ∨ 1024 < len ∨ 1024 < entry + len then (2, 0)
  else match (List.range len).find? (fun i => !ruleOk d (s.get (upeRuleInsn e (entry + i)))) with
  | some i => (3, i)
  | none =>
    if ps.all (fun p => !portIn (w p) && !portOut (w p)) ∨ ps.any (fun p => decide (5 < portInFmt (w p))) ∨
        ps.any (fun p => decide (3 < portOutFmt (w p))) ∨
        ins.any (fun p => ins.any (fun q => p != q && portRegIn (w p) == portRegIn (w q))) then (4, 0)
    else if ins.any (fun p => decide (4 ≤ portInFmt (w p)) && !(en && p == sp)) ∨ (en ∧ ¬ portIn (w sp)) then (5, 0)
    else if (List.range 4).any (laBad s d) then (6, 0)
    else if 64 < kc ∨ leAt d 24 8 % 4 ≠ 0 ∨ (vinits d).any (fun v => v.2.2 && decide (kc ≤ v.2.1)) ∨ lost then (7, 0)
    else if leAt d 8 8 = 0 ∨ 2 ^ 40 < leAt d 8 8 then (8, 0)
    else if engState s e ≠ (if cont then 5 else 0) then (9, 0)
    else if cont ∧ (s.eng e).at_ ≠ at_ then (10, 0)
    else if engReserved d then (11, 0)
    else (0, 0)

/-- A rejected engine batch: handled as R260 handles a row-logic batch. -/
def engReject (e : Nat) (slot : Option Nat) (r : Nat × Nat) (s : State) : State :=
  let s := if e < 64 then raise (upeEvtReject e) ((s.set (upeRejectReason e) r.1).set (upeRejectInsn e) r.2) else s
  let s := match slot with
    | some i => cancelDependents i (finishSlot i .cancelled s)
    | none => s
  fault .plan 1 (slot.getD 0 % 1024) r.1 0 none s

/-- The lanes of an engine seeded in KEYED mode (R413). -/
def seedKeyed (e : Nat) (s : State) : State :=
  s.onEng e (fun x => { x with
    seeded := true
    gen := (List.range 64).map (fun l => (l, (keyedState (s.get rngLfsrKeyKey) e l, 0))) })

/-- An engine cluster (0 to 7) or the matrix array (16) ungated (R526). -/
def ungate (u : Nat) (s : State) : State :=
  { s with fum := { s.fum with gated := clearBits s.fum.gated (2 ^ u) } }

/-- A batch checked and, when every check passes, admitted: constants loaded, VINIT applied to all banks, the step and the key read, lanes seeded that a reset cleared (R314, R332, R338, R407, R414). -/
def engAdmit (e at_ : Nat) (slot : Option Nat) (s : State) : State :=
  let (d, rf, po, s) := useRead e at_ 256 0 0 s
  let kc := leAt d 19 1
  let ca := leAt d 24 8
  let (ks, _, kpo, s) := if rf ∨ po ∨ kc = 0 ∨ 64 < kc then ([], false, false, s) else useRead e ca (4 * kc) 0 0 s
  let r := engReason s e at_ d (rf || po) kpo
  if r.1 ≠ 0 then engReject e slot r s
  else
    let cont := bitOf (leAt d 16 2) 3
    let s := (List.range 64).foldl (fun t k => t.set (upeConstValue e k) (leAt ks (4 * k) 4)) s
    let s := ungate (e / 8) (if (s.eng e).seeded then s else seedKeyed e s)
    let key := leAt d 144 8
    let s := s.onEng e (fun x => { x with
      desc := d, at_ := at_, active := true, slot := slot.getD 0, submitted := slot.isNone
      entry := bits (leAt d 4 2) 0 10, len := bits (leAt d 6 2) 0 11
      step := if cont then x.step else if bitOf (leAt d 16 2) 0 then leAt d 156 4 else s.get calVerdictLast % 2 ^ 32
      key := if key = 0 then s.get rngKeyKey else key
      pend := false, pc := 0, halting := false })
    let s := (vinits d).foldl (fun t v => if v.2.2 then
        State.each (List.range 4) (fun b u => setV e b v.1 (List.replicate 64 (u.get (upeConstValue e v.2.1))) u) t
      else t) s
    let s := if cont then s else s.set (upeQuadsCount e) 0
    noStall e (setEng e 2 s)

/-! ## Borrowing by the KV service (R385) -/

/-- Whether an open window has borrowed an engine. -/
def borrowed (s : State) (e : Nat) : Bool :=
  s.kvs.wins.any (fun p => match p.2 with | some w => bitOf w.borrowed e | none => false)

/-- A KV-service window set. -/
def setWin (p : Nat) (w : Option KvWin) (s : State) : State :=
  { s with kvs := { s.kvs with wins := Tab.set none s.kvs.wins p w } }

/-- Engines of open windows that are IDLE are borrowed. -/
def kvBorrow (s : State) : State :=
  (Tab.keys s.kvs.wins).foldl (fun s p =>
    match Tab.get none s.kvs.wins p with
    | some w =>
      let free := (enginesOf w.mask).filter (fun e => engState s e == 0 && !borrowed s e)
      setWin p (some { w with borrowed := Nat.lor w.borrowed ((free.map (fun e => 2 ^ e)).sum) }) s
    | none => s) s

/-! ## Starting a batch -/

/-- Whether another engine slot of the same cluster starts at the same START in this tick (R315). -/
def clusterShares (s : State) (i : Nat) : Bool :=
  let x := slotOf s i
  (List.range (planSlots s)).any (fun j => j != i && runsNow s j && (slotOf s j).cls == 1 && (slotOf s j).start == x.start &&
    (slotOf s j).unit / 8 == x.unit / 8)

/-- ENGINE_BATCH_START: an engine slot reaches START; its batch is checked and admitted or rejected. While a submitted
batch runs on the engine, or a KV-service window has borrowed it, the slot waits (R314, R315, R334, R385). -/
def execEngineBatchStart (slot : Fin 1024) (s : State) : Host.Outcome State Fault Refusal :=
  whole (fun s =>
    let i := pickSlot s 1 slot.val
    let x := slotOf s i
    let e := x.unit
    if !startable s 1 i ∨ (e < 64 ∧ ((s.eng e).active ∨ borrowed s e)) then done s
    else if 64 ≤ e then done (engReject e (some i) (11, 0) (startSlot i s))
    else
      let u := startSlot i s
      done (engAdmit e x.desc (some i)
        (if clusterShares s i then u.reach (u.tick.edge + (x.start + e % 8 * 8) * 625) else u))) s

/-- ENGINE_SUBMIT: a write of SUBMIT with GO runs a batch on an IDLE engine, else SUBMIT_REFUSED is set (R334). -/
def execEngineSubmit (eng : Fin 64) (value : BitVec 64) (s : State) : Host.Outcome State Fault Refusal :=
  let e := eng.val
  let v := value.toNat
  let s := s.set (upeSubmitAddr e) (bits v 0 48)
  if !bitOf v 63 then done s
  else if engState s e = 0 ∧ ¬ borrowed s e then done (engAdmit e (bits v 0 48) none s)
  else done (raise (upeEvtSubmitRefused e) s)

/-! ## FETCH (R317, R318, R320 to R323) -/

/-- The lowest port that is not ready for the FETCH: an input without its next quad, an output without space in an allocated
tile, which every FETCH asks for (R318). -/
def unready (s : State) (e : Nat) (reads : Bool) : Option Nat :=
  let x := s.eng e
  (List.range 8).find? (fun p =>
    (reads && portIn (x.port p) && (strHead s (8 * e + p)).isNone) ||
    (portOut (x.port p) && (strOut s (8 * e + p)).isNone))

/-- The outputs of the computed quad of one port: bytes of the active elements in order with their poison marks. -/
def outElems (s : State) (e p : Nat) : List (Nat × Bool) :=
  let f := portOutFmt ((s.eng e).port p)
  (List.range 4).flatMap (fun b =>
    let l := vreg s e b (portRegOut ((s.eng e).port p))
    ((List.range 64).filter (fun k => activeLane s e b k)).map (fun k =>
      (convOut f (laneBits (l.getD k 0)), lanePoison (l.getD k 0))))

/-- One output port's part of a FETCH: the bytes filled in, poisoned and NaN lanes counted, poison reported (R322, R323,
R326). -/
def writePort (e p : Nat) (s : State) : State :=
  let c := 8 * e + p
  let f := portOutFmt ((s.eng e).port p)
  let n := portSize f
  let l := outElems s e p
  match strOut s c with
  | none => s
  | some t =>
    let o := t.data.length
    let marks := (l.zipIdx.filter (fun x => x.1.2)).map (fun x => (o + n * x.2) / 32)
    let s := strFill c (l.flatMap (fun x => leBytes n x.1)) marks.eraseDups s
    let s := s.bump (upeNanLanes e) (l.filter (fun x => outNan f x.1)).length
    match marks.head? with
    | none => s
    | some k =>
      let a := t.base + 32 * k
      let u := if (s.ctx c).xlate then 0 else match physOf s a with
        | some ph => if ph.tier = 0 then ph.chan / 32 else 8 + ph.chan
        | none => 0
      fault .memory 6 u a 5 none (raise (upeEvtPoison e) (s.bump (upePoisonLanes e) (l.filter (fun x => x.2)).length))

/-- The output tiles of a port marked full at the end of the batch (R318). -/
def closeOut (e p : Nat) (s : State) : State :=
  s.onCtx (8 * e + p) (fun x => { x with outq := x.outq.map (fun t => if t.data = [] then t else { t with full := true }) })

/-- The computed quad's outputs written; after the last quad the output tiles are full. -/
def writeQuad (e : Nat) (s : State) : State :=
  let x := s.eng e
  let s := State.each x.outPorts (writePort e) s
  let q := s.get (upeQuadsCount e) + 1
  let s := (s.set (upeQuadsCount e) q).onEng e (fun x => { x with pend := false })
  if q = x.quads then State.each x.outPorts (closeOut e) s else s

/-- Bytes of a quad of a port, and the place of quad `q` in its tile. -/
def quadBytes (f : Nat) : Nat := 256 * portSize f
def quadOff (s : State) (e p q : Nat) : Nat := q * quadBytes (portInFmt ((s.eng e).port p)) % (s.ctx (8 * e + p)).tileBytes

/-- One input port's part of a FETCH: the quad's elements converted into REG_IN of the four banks, the tile released after
its last quad; with FENCE set the batch's last tiles stay until the fence completes (R318, R321, R440). -/
def readPort (e p q : Nat) (s : State) : State :=
  let c := 8 * e + p
  let x := s.eng e
  let f := portInFmt (x.port p)
  let n := portSize f
  match strHead s c with
  | none => s
  | some t =>
    let o := quadOff s e p q
    let s := if o = 0 ∨ s.get (strConsumedCount c) ≠ (s.ctx c).tileNow then strBegin c s else s
    let stat := x.statPort == some p
    let bad (i : Nat) : Bool := t.poison.contains ((o + n * i) / 128) || (stat && bitOf x.mark 256)
    let s := State.each (List.range 4) (fun b u => setV e b (portRegIn (x.port p)) ((List.range 64).map (fun l =>
      let i := 64 * b + l
      lane (convIn f (leAt t.data (o + n * i) n) x.exp x.wstat) (bad i))) u) s
    let s := if stat then s.onEng e (fun y => { y with
        mark := ((List.range 256).map (fun i => b2n (bad i) * 2 ^ i)).sum }) else s
    let last := q + 1 == x.quads
    if (o + quadBytes f = t.data.length ∨ last) ∧ ¬ (last ∧ x.flag 2) then strRelease c s else s

/-- The EXP and WSTAT bytes of the quad's window read for the status port; bit 256 of the marks says that one of them
could not be read. -/
def readStatus (e q : Nat) (s : State) : State :=
  let x := s.eng e
  match x.statPort with
  | none => s.onEng e (fun y => { y with exp := 0, wstat := 0, mark := 0 })
  | some _ =>
    let (a, r1, p1, s) := useRead e (leAt x.desc 128 8 + q) 1 0 0 s
    let (b, r2, p2, s) := useRead e (leAt x.desc 136 8 + q) 1 0 0 s
    s.onEng e (fun y => { y with exp := leNat a, wstat := leNat b, mark := if r1 ∨ p1 ∨ r2 ∨ p2 then 2 ^ 256 else 0 })

/-- The next quad read. -/
def readQuad (e : Nat) (s : State) : State :=
  let q := s.get (upeQuadsCount e)
  let s := readStatus e q s
  let s := State.each (s.eng e).inPorts (fun p t => readPort e p q t) s
  (setEng e 3 s).onEng e (fun x => { x with pc := 0 })

/-- Whether writing the computed quad leaves no output tile partly filled. -/
def cleanAfter (s : State) (e : Nat) : Bool :=
  (s.eng e).outPorts.all (fun p =>
    match strOut s (8 * e + p) with
    | none => true
    | some t => t.data.length + quadBytes (portOutFmt ((s.eng e).port p)) == (s.ctx (8 * e + p)).tileBytes)

/-- The constants of an engine cleared: no reset keeps them (R6). -/
def clearConsts (e : Nat) (s : State) : State := State.each (List.range 64) (fun k t => t.clear (upeConstValue e k)) s

/-- An engine that has halted: HALTED, its slot left with the position kept, so that a later slot can continue it (R336, R341;
DEDUCED, assumption 73). A plan reset that halted it leaves no constants (R6). -/
def engHalted (e : Nat) (s : State) : State :=
  let i := (s.eng e).slot
  let sub := (s.eng e).submitted
  let s := noStall e (setEng e 5 (s.onEng e (fun x => { x with halting := false, active := false })))
  let s := s.on (s.rst.kind == 5) (clearConsts e)
  if !sub ∧ slotState s i = .running ∧ (slotOf s i).cls = 1 ∧ (slotOf s i).unit = e then finishSlot i .cancelled s else s

/-- Core cycles of a FETCH that moves `n` bytes (R318). -/
def fetchCycles (n : Nat) : Nat := 2 + (n + 1023) / 1024

/-- Elements of quad `q` of a batch. -/
def quadElems (x : Eng) (q : Nat) : Nat := min 256 (x.elems - 256 * q)

/-- Bytes that the next FETCH moves. -/
def fetchBytes (s : State) (e : Nat) (reads writes : Bool) : Nat :=
  let x := s.eng e
  let q := s.get (upeQuadsCount e)
  (if reads then (x.inPorts.map (fun p => quadElems x (q + b2n writes) * portSize (portInFmt (x.port p)))).sum else 0) +
    (if writes then (x.outPorts.map (fun p => quadElems x q * portSize (portOutFmt (x.port p)))).sum else 0)

/-- The cycles of a FETCH counted, and those of the wait that it ends. -/
def countFetch (e : Nat) (reads writes : Bool) (s : State) : State :=
  let s := if engState s e = 4 then s.bump (upeWaitCycCount e) ((s.now - (s.eng e).since) / 625) else s
  if reads ∨ writes then s.bump (upeFetchCycCount e) (fetchCycles (fetchBytes s e reads writes)) else s

/-- A halting engine halts, when it is at a quad boundary that leaves no output tile partly filled; at the last FETCH it
completes instead (R336). -/
def tryHalt (e : Nat) (s : State) : Option State :=
  let x := s.eng e
  if !x.halting then none
  else if !x.pend then (if s.get (upeQuadsCount e) = x.quads then none else some (engHalted e (countFetch e false false s)))
  else if s.get (upeQuadsCount e) + 1 < x.quads ∧ (unready s e false).isNone ∧ cleanAfter s e then
    some (engHalted e (writeQuad e (countFetch e false true s)))
  else none

/-- ENGINE_FETCH: the outputs of the computed quad are written and the next quad is read once every port is ready;
otherwise the engine waits and reports its stall port. A fence over the engine holds it at the boundary (R317, R318,
R336, R447). -/
def execEngineFetch (eng : Fin 64) (s : State) : Host.Outcome State Fault Refusal :=
  whole (fun s =>
    let e := eng.val
    let x := s.eng e
    let st := engState s e
    if !x.active ∨ (st ≠ 2 ∧ st ≠ 4) ∨ bitOf s.coh.fenceEngines e then done s
    else
      let q := s.get (upeQuadsCount e) + b2n x.pend
      let reads := decide (q < x.quads)
      if !reads ∧ !x.pend then done s
      else
        match tryHalt e s with
        | some t => done (strSync t)
        | none =>
          match unready s e reads with
          | some p =>
            let s := if st = 4 then s else (setEng e 4 s).onEng e (fun x => { x with since := s.now })
            done (setStall e p s)
          | none =>
            let s := setEng e 2 (countFetch e reads x.pend s)
            let s := if x.pend then writeQuad e s else s
            let s := if reads then readQuad e s else s
            done (strSync (noStall e s))) s

/-! ## Completion (R316, R335, R440) -/

/-- The derive record of a completed batch. -/
def deriveRec (x : Eng) : DeriveRec :=
  ⟨leAt x.desc 176 8, leAt x.desc 184 8, leAt x.desc 192 8, x.elems, x.key, leAt x.desc 152 4, leAt x.desc 160 8,
   leAt x.desc 168 8, x.step⟩

/-- ENGINE_BATCH_COMPLETE: every quad computed and written, the batch's fence completed with its write-backs
acknowledged, the last input tiles released; a derive record is kept, DONE set, and the slot completes. -/
def execEngineBatchComplete (eng : Fin 64) (s : State) : Host.Outcome State Fault Refusal :=
  let e := eng.val
  let x := s.eng e
  let st := engState s e
  if !x.active ∨ (st ≠ 2 ∧ st ≠ 4) ∨ x.pend ∨ s.get (upeQuadsCount e) ≠ x.quads ∨ (x.flag 2 ∧ (s.l1 e).wb ≠ []) then done s
  else
    let s := if x.flag 2 then
        let s := l1Walk false e s
        let s : State := { s with coh := { s.coh with batchFence := clearBits s.coh.batchFence (2 ^ e) } }
        State.each x.inPorts (fun p t => strRelease (8 * e + p) t) s
      else s
    let s := if x.flag 1 then
        (s.set (upeStatDeriveValid e) 1).onEng e (fun y => { y with derive_ := some (deriveRec x) })
      else s
    let s := s.on (x.halting && s.rst.kind == 5) (clearConsts e)
    let s := raise (upeEvtDone e) (setEng e 0 (s.onEng e (fun y => { y with active := false, halting := false })))
    done (kvBorrow (strSync (noStall e (if x.submitted then s else completeSlot x.slot s))))

/-! ## Halt, save and restore (R336 to R338, R415) -/

/-- A write of HALT: the engine halts at the first clean quad boundary; one that waits there halts at once. -/
def engHalt (e : Nat) (s : State) : State :=
  let x := s.eng e
  let st := engState s e
  if !x.active ∨ (st ≠ 2 ∧ st ≠ 3 ∧ st ≠ 4) then s
  else
    let s := s.onEng e (fun x => { x with halting := true })
    if st = 4 then match tryHalt e s with
      | some t => strSync t
      | none => s
    else s

/-- ENGINE_HALT: a write of CTL.HALT. -/
def execEngineHalt (eng : Fin 64) (s : State) : Host.Outcome State Fault Refusal := done (engHalt eng s)

/-- The 17,472 bytes of a save record (R337, R415). -/
def engRecord (s : State) (e : Nat) : List Byte :=
  let x := s.eng e
  leBytes 4 0x55504358 ++ leBytes 2 x.entry ++ leBytes 2 x.len ++ leBytes 8 x.at_ ++ leBytes 8 (s.get (upeQuadsCount e)) ++
    leBytes 4 x.step ++ List.replicate 36 0 ++
    (List.range 64).flatMap (fun l => let g := Tab.get (0, 0) x.gen l; leBytes 8 g.1 ++ leBytes 8 g.2) ++
    (List.range 64).flatMap (fun i => (vreg s e (i / 16) (i % 16)).flatMap (fun v => leBytes 4 (laneBits v)))

/-- ENGINE_SAVE: a HALTED engine's record is written to SAVE_ADDR and SAVE_DONE set. -/
def execEngineSave (eng : Fin 64) (s : State) : Host.Outcome State Fault Refusal :=
  let e := eng.val
  if engState s e ≠ 5 then done s
  else
    let (_, s) := useWrite e (s.get (upeSaveAddrAddr e)) (engRecord s e) 0 0 s
    done (raise (upeEvtSaveDone e) s)

/-- ENGINE_RESTORE: an IDLE engine reads its record and, when MAGIC matches, enters HALTED at the saved position. -/
def execEngineRestore (eng : Fin 64) (s : State) : Host.Outcome State Fault Refusal :=
  let e := eng.val
  if engState s e ≠ 0 then done s
  else
    let (b, rf, po, s) := useRead e (s.get (upeSaveAddrAddr e)) 17472 0 0 s
    if rf ∨ po ∨ leAt b 0 4 ≠ 0x55504358 then done s
    else
      let s := s.onEng e (fun x => { x with
        entry := bits (leAt b 4 2) 0 10, len := bits (leAt b 6 2) 0 11, at_ := leAt b 8 8, step := leAt b 24 4
        seeded := true
        gen := (List.range 64).foldl (fun t l => Tab.set (0, 0) t l (leAt b (64 + 16 * l) 8, leAt b (72 + 16 * l) 8)) [] })
      let s := (List.range 64).foldl (fun t i =>
        setV e (i / 16) (i % 16) ((List.range 64).map (fun l => leAt b (1088 + 256 * i + 4 * l) 4)) t) s
      done (setEng e 5 (s.set (upeQuadsCount e) (leAt b 16 8)))

/-! ## The rule store (R329) -/

/-- Whether a rule-store entry belongs to the program of a batch that is admitted, halted or running. -/
def ruleHeld (s : State) (e i : Nat) : Bool :=
  let x := s.eng e
  (x.active || engState s e == 5) && decide (x.entry ≤ i) && decide (i < x.entry + x.len)

/-- A rule-store entry written, or the write dropped with RULE_DROP. -/
def ruleWrite (e i v : Nat) (s : State) : State :=
  if ruleHeld s e i then raise (upeEvtRuleDrop e) s else s.set (upeRuleInsn e i) v

/-- RULE_STORE_WRITE: a write of UPE_ENG[e]_RULE[i]. -/
def execRuleStoreWrite (eng : Fin 64) (index : Fin 1024) (value : BitVec 32) (s : State) : Host.Outcome State Fault Refusal :=
  done (ruleWrite eng index value.toNat s)

/-! ## The derive pass (R335) -/

/-- The derive record of an engine whose working copy holds a poisoned granule. -/
def deriveDue (s : State) (e : Nat) : Option DeriveRec :=
  if !s.flag (upeStatDeriveValid e) then none
  else (s.eng e).derive_.bind (fun r => if nodePoisonRange s r.wc (2 * r.elems) then some r else none)

/-- The repeat slots that wait for a derive pass. -/
def waitingRepeats (s : State) : List Nat := s.cal.derive.filter (fun i => slotState s i == .running && !localWhole s i)

/-- Waiting repeat slots go on: their own parts are sent now (R167). -/
def resumeRepeats (l : List Nat) (s : State) : State :=
  State.each l startParts (s.onCal (fun c => { c with derive := c.derive.filter (fun j => !l.contains j) }))

/-- The working copy of a record written anew from the masters; a poisoned master word poisons its element (R323, R335). -/
def deriveRun (e : Nat) (r : DeriveRec) (s : State) : State :=
  let (h, s) := useGet e r.hi (4 * r.elems) 0 0 none s
  let (x, s) := useGet e r.ext (2 * r.elems) 0 0 none s
  let out := (List.range r.elems).map (fun j =>
    srbf (leAt h.bytes (4 * j) 4) (leAt x.bytes (2 * j) 2) (gWord r.key r.stream (counterOf r.step r.n r.index0 j)) / 2 ^ 16)
  let bad := (List.range r.elems).filter (fun j => h.bad.getD (4 * j) false || x.bad.getD (2 * j) false)
  State.each bad (fun j t => nodePoisonWrite (r.wc + 2 * j) 2 t) (store e r.wc (out.flatMap (leBytes 2)) s)

/-- DERIVE_PASS: while a repeat slot that found POISON waits, an engine that runs no batch derives its working copy anew
and sets DERIVE; once no due record is left the repeat slot goes on (R335). -/
def execDerivePass (eng : Fin 64) (s : State) : Host.Outcome State Fault Refusal :=
  whole (fun s =>
    let e := eng.val
    let ws := waitingRepeats s
    match deriveDue s e with
    | none => done s
    | some r =>
      if (s.eng e).active ∨ ws = [] then done s
      else
        let s := raise (upeEvtDerive e) (deriveRun e r s)
        done (if (List.range 64).any (fun k => (deriveDue s k).isSome) then s else resumeRepeats ws s)) s

/-- A compute reset's effect on the engines: IDLE, registers, constants, lanes and derive records cleared (R342). -/
def engClear (s : State) : State := { s with upe := [] }

end Sys2Proof.Machine
end

