-- ==== Sys2Proof/Machine/Hash.lean ====
section
/-! DEFINITION. SHA-256 and SHA-384 (R404, R482) over byte lists, with the constants computed as the roots of primes that
FIPS 180-4 defines them by, and ECDSA on NIST P-384 (R483; the curve's parameters are PRESUMED from FIPS 186-5). -/

namespace Sys2Proof.Machine

/-- The integer cube root, bit by bit from bit `k - 1` down. -/
def icbrtFrom : Nat → Nat → Nat → Nat
  | 0, _, r => r
  | k + 1, n, r => let t := r + 2 ^ k; icbrtFrom k n (if t * t * t ≤ n then t else r)

/-- The first 80 primes. -/
def primes80 : List Nat :=
  (List.range 410).filter (fun n => decide (2 ≤ n) && (List.range n).all (fun d => decide (d < 2) || n % d != 0))

/-- Round constants of SHA-512 and SHA-384: 64 bits of the fractional parts of the cube roots of the first 80 primes; their
upper halves are those of SHA-256. -/
def shaK : List Nat := primes80.map (fun p => icbrtFrom 70 (p * 2 ^ 192) 0 % 2 ^ 64)

/-- Initial values: fractional bits of square roots of primes. -/
def sha256Iv : List Nat := (primes80.take 8).map (fun p => isqrt (p * 2 ^ 64) % 2 ^ 32)
def sha384Iv : List Nat := ((primes80.drop 8).take 8).map (fun p => isqrt (p * 2 ^ 128) % 2 ^ 64)

/-- Rotations and functions of a SHA-2 member with `w`-bit words: Σ0, Σ1, σ0, σ1. -/
structure ShaFns where
  w : Nat
  s0 : List Nat
  s1 : List Nat
  g0 : List Nat
  g1 : List Nat
  rounds : Nat

def sha256Fns : ShaFns := ⟨32, [2, 13, 22], [6, 11, 25], [7, 18, 3], [17, 19, 10], 64⟩
def sha512Fns : ShaFns := ⟨64, [28, 34, 39], [14, 18, 41], [1, 8, 7], [19, 61, 6], 80⟩

def rotr (w x n : Nat) : Nat := x / 2 ^ n + x % 2 ^ n * 2 ^ (w - n)
/-- Three rotations exclusive-ored. -/
def bigSigma (w : Nat) (l : List Nat) (x : Nat) : Nat :=
  Nat.xor (rotr w x (l.getD 0 0)) (Nat.xor (rotr w x (l.getD 1 0)) (rotr w x (l.getD 2 0)))
/-- Two rotations and a shift exclusive-ored. -/
def smallSigma (w : Nat) (l : List Nat) (x : Nat) : Nat :=
  Nat.xor (rotr w x (l.getD 0 0)) (Nat.xor (rotr w x (l.getD 1 0)) (x / 2 ^ l.getD 2 0))

/-- The message schedule, newest word first. -/
def shaSchedule (f : ShaFns) : Nat → List Nat → List Nat
  | 0, l => l
  | k + 1, l =>
    let v := (smallSigma f.w f.g1 (l.getD 1 0) + l.getD 6 0 + smallSigma f.w f.g0 (l.getD 14 0) + l.getD 15 0) % 2 ^ f.w
    shaSchedule f k (v :: l)

/-- One round on the eight working words. -/
def shaRound (f : ShaFns) (v : List Nat) (kw : Nat) : List Nat :=
  let a := v.getD 0 0
  let b := v.getD 1 0
  let c := v.getD 2 0
  let e := v.getD 4 0
  let g := v.getD 6 0
  let ch := Nat.xor g (Nat.land e (Nat.xor (v.getD 5 0) g))
  let maj := Nat.xor (Nat.land a b) (Nat.xor (Nat.land a c) (Nat.land b c))
  let t1 := v.getD 7 0 + bigSigma f.w f.s1 e + ch + kw
  let t2 := bigSigma f.w f.s0 a + maj
  [(t1 + t2) % 2 ^ f.w, a, b, c, (v.getD 3 0 + t1) % 2 ^ f.w, e, v.getD 5 0, g]

/-- One block of 16 big-endian words. -/
def shaBlock (f : ShaFns) (ks : List Nat) (h : List Nat) (block : List Byte) : List Nat :=
  let n := f.w / 8
  let ws := (List.range 16).map (fun i => beNat (slice block (n * i) n))
  let sched := (shaSchedule f (f.rounds - 16) ws.reverse).reverse
  let v := (sched.zip ks).foldl (fun v p => shaRound f v (p.1 + p.2)) h
  (h.zip v).map (fun p => (p.1 + p.2) % 2 ^ f.w)

/-- `n` bytes of a number, most significant first. -/
def beBytes (n v : Nat) : List Byte := (leBytes n v).reverse

/-- A padded message in blocks of `b` bytes with a length field of `l` bytes. -/
def shaPad (b l : Nat) (m : List Byte) : List Byte :=
  let z := (b - (m.length + 1 + l) % b) % b
  m ++ [0x80] ++ List.replicate z 0 ++ beBytes l (8 * m.length)

def shaRun (f : ShaFns) (ks iv : List Nat) (b l : Nat) (m : List Byte) : List Nat :=
  let p := shaPad b l m
  (List.range (p.length / b)).foldl (fun h i => shaBlock f ks h (slice p (b * i) b)) iv

/-- SHA-256: 32 bytes. -/
def sha256 (m : List Byte) : List Byte :=
  (shaRun sha256Fns ((shaK.take 64).map (fun k => k / 2 ^ 32)) sha256Iv 64 8 m).flatMap (beBytes 4)

/-- SHA-384: 48 bytes. -/
def sha384 (m : List Byte) : List Byte :=
  ((shaRun sha512Fns shaK sha384Iv 128 16 m).take 6).flatMap (beBytes 8)

/-! ## ECDSA on P-384 -/

def p384P : Nat := 2 ^ 384 - 2 ^ 128 - 2 ^ 96 + 2 ^ 32 - 1
def p384N : Nat := 0xffffffffffffffffffffffffffffffffffffffffffffffffc7634d81f4372ddf581a0db248b0a77aecec196accc52973
def p384B : Nat := 0xb3312fa7e23ee7e4988e056be3f82d19181d9c6efe8141120314088f5013875ac656398d8a2ed19d2a85c8edd3ec2aef
def p384Gx : Nat := 0xaa87ca22be8b05378eb1c71ef320ad746e1d3b628ba79b9859f741e082542a385502f25dbf55296c3a545e3872760ab7
def p384Gy : Nat := 0x3617de4a96262c6f5d9e98bf9292dc29f8f41dbd289a147ce9da3113b5f0b8c00a60b1ce1d7e819d7a431d7c90ea0e5f

/-- `b ^ e mod m`, over the `k` low bits of `e`. -/
def powMod (m b : Nat) : Nat → Nat → Nat
  | 0, _ => 1 % m
  | k + 1, e => let r := powMod m (b * b % m) k (e / 2); if e % 2 = 1 then r * b % m else r

/-- The inverse modulo a prime. -/
def invMod (m a : Nat) : Nat := powMod m (a % m) 384 (m - 2)

/-- Sum of two points, none for the point at infinity. -/
def ecAdd (a b : Option (Nat × Nat)) : Option (Nat × Nat) :=
  match a, b with
  | none, b => b
  | a, none => a
  | some (x1, y1), some (x2, y2) =>
    let p := p384P
    if x1 = x2 ∧ (y1 + y2) % p = 0 then none
    else
      let l := if x1 = x2 then (3 * x1 * x1 + (p - 3)) * invMod p (2 * y1) % p
        else (y2 + p - y1) * invMod p (x2 + p - x1) % p
      let x := (l * l + 2 * p - x1 - x2) % p
      some (x, (l * (x1 + p - x) + p - y1) % p)

/-- A multiple of a point, over the `k` low bits of the factor. -/
def ecMul : Nat → Nat → Option (Nat × Nat) → Option (Nat × Nat)
  | 0, _, _ => none
  | k + 1, e, q => let r := ecMul k (e / 2) (ecAdd q q); if e % 2 = 1 then ecAdd q r else r

/-- Whether (r, s) signs the hash `z` under the public key (x, y). -/
def ecdsaOk (x y z r s : Nat) : Bool :=
  let n := p384N
  let onCurve := decide (x < p384P) && decide (y < p384P) && (y * y % p384P == (x * x * x + (p384P - 3) * x + p384B) % p384P)
  if !onCurve ∨ r = 0 ∨ n ≤ r ∨ s = 0 ∨ n ≤ s then false
  else
    let w := invMod n s
    match ecAdd (ecMul 384 (z * w % n) (some (p384Gx, p384Gy))) (ecMul 384 (r * w % n) (some (x, y))) with
    | some (u, _) => u % n == r
    | none => false

end Sys2Proof.Machine
end

