-- ==== Sys2Proof/Machine/Random.lean ====
section
/-! DEFINITION. The noise source and the seeding of LFSR lanes (R402 to R405, R413, R421). Samples come from outside, as the
operand of the command that ends a block or a test. -/

namespace Sys2Proof.Machine

/-- The random-source state changed. -/
def State.onRng (f : RngState → RngState) (s : State) : State := { s with rng := f s.rng }

/-- One sample through both continuous health tests; failures are counted, and the result says whether one failed (R402). -/
def healthSample (x : Nat) (s : State) : Bool × State :=
  let g := s.rng
  let run := if g.last = some x then g.run + 1 else 1
  let start := g.taken = 0
  let first := if start then x else g.first
  let same := if start then 1 else if x = g.first then g.same + 1 else g.same
  let rct := run == 11
  let apt := same == 177 && !start && x == g.first
  let taken := (g.taken + 1) % 512
  let s := s.onRng (fun g => { g with last := some x, run := run, first := first, taken := taken, same := same })
  let s := if rct then s.bump rngHealthRctFail 1 else s
  (rct || apt, if apt then s.bump rngHealthAptFail 1 else s)

/-- Samples through the tests: whether any failed. -/
def healthAll (l : List Nat) (s : State) : Bool × State :=
  l.foldl (fun acc x => let (b, s) := healthSample x acc.2; (acc.1 || b, s)) (false, s)

/-- A NOISE seeding ends early: the engines with lanes still to seed are skipped (R413). -/
def seedStop (s : State) : State :=
  let es := (s.rng.lanes.map (fun l => l / 64)).eraseDups
  let s := s.set rngSkippedEngines (Nat.lor (s.get rngSkippedEngines) ((es.map (fun e => 2 ^ e)).sum))
  s.onRng (fun g => { g with lanes := [] })

/-- A lane's state set, 0 replaced by 1, and its draw count cleared. -/
def seedLane (e l v : Nat) (s : State) : State :=
  s.onEng e (fun x => { x with seeded := true, gen := Tab.set (0, 0) x.gen l (if v = 0 then 1 else v, 0) })

/-- Seed words given to the lanes of a NOISE seeding, while both last. -/
def seedFeed : Nat → State → State
  | 0, s => s
  | k + 1, s =>
    match s.rng.words, s.rng.lanes with
    | w :: ws, l :: ls =>
      seedFeed k ((seedLane (l / 64) (l % 64) w s).onRng (fun g => { g with words := ws, lanes := ls }))
    | _, _ => s

/-- The next seed word taken, or 0 with SEED_VALID clear; no word while READY is 0 (R403, R405). -/
def rngSeedTake (s : State) : Nat × State :=
  match (if s.flag rngStatusReady then s.rng.words else []) with
  | w :: ws => (w, (s.onRng (fun g => { g with words := ws })).set rngStatusSeedValid 1)
  | [] => (0, s.set rngStatusSeedValid 0)

/-- RNG_SEED_READ: a read of RNG_SEED returns the next seed word and consumes it. -/
def execRngSeedRead (s : State) : Host.Outcome State Fault Refusal :=
  let (v, s) := rngSeedTake s
  done (s.emit (.value v))

/-- The start-up test begins; until it passes the source delivers no seed material (R403, R421). -/
def sourceTest (s : State) : State :=
  (s.set rngStatusReady 0).onRng (fun g => { g with testing := true, words := [], last := none, run := 0, taken := 0, same := 0 })

/-- SOURCE_EN written: the source starts with its start-up test, or stops. -/
def sourceEnable (on : Bool) (s : State) : State :=
  if on ∧ ¬ s.flag rngCtlSourceEn then sourceTest (s.set rngCtlSourceEn 1)
  else if on then s
  else ((s.set rngCtlSourceEn 0).set rngStatusReady 0).onRng (fun g => { g with testing := false, words := [] })

/-- RETEST: a write of RNG_CTL.RETEST runs the start-up test of a running source. -/
def execRetest (s : State) : Host.Outcome State Fault Refusal :=
  if s.flag rngCtlSourceEn then done (sourceTest s) else done s

/-- STARTUP_TEST_DONE: the 1,024 samples pass both tests and READY is set, or they fail and a waiting seeding ends (R403,
R404, R421). -/
def execStartupTestDone (samples : List (Fin 16)) (s : State) : Host.Outcome State Fault Refusal :=
  if !s.rng.testing ∨ samples.length ≠ 1024 then done s
  else
    let (bad, s) := healthAll (samples.map (fun x => x.val)) s
    let s := s.onRng (fun g => { g with testing := false })
    if bad then done (seedStop s)
    else done (((s.set rngStatusReady 1).set rngStatusFailed 0).onRng (fun g => { g with fails := 0 }))

/-- The source fails: FAILED set, READY cleared, EVT.FAIL and a random-source fault; a NOISE seeding stops (R404, R413). -/
def sourceFail (s : State) : State :=
  let s := (s.set rngStatusFailed 1).set rngStatusReady 0
  seedStop (fault .random 1 0 0 0 none (raise rngEvtFail s))

/-- The four seed words of a block: SHA-256 over its 256 samples, two to a byte, the first in the low half, the words
little-endian (the spec names neither order). -/
def blockWords (l : List Nat) : List Nat :=
  let h := sha256 ((List.range 128).map (fun i => BitVec.ofNat 8 (l.getD (2 * i) 0 + 16 * l.getD (2 * i + 1) 0)))
  (List.range 4).map (fun i => leAt h (8 * i) 8)

/-- NOISE_BLOCK: a block of 256 samples conditioned into seed words, up to 8 held, or discarded on a health failure (R404,
R405). -/
def execNoiseBlock (samples : List (Fin 16)) (s : State) : Host.Outcome State Fault Refusal :=
  if !s.flag rngCtlSourceEn ∨ !s.flag rngStatusReady ∨ s.rng.testing ∨ samples.length ≠ 256 then done s
  else
    let l := samples.map (fun x => x.val)
    let (bad, s) := healthAll l s
    if bad then
      let s := s.onRng (fun g => { g with fails := g.fails + 1 })
      done (if s.rng.fails = 3 then sourceFail s else s)
    else done (seedFeed 8 (s.onRng (fun g => { g with fails := 0, words := (g.words ++ blockWords l).take 8 })))

/-- LFSR_SEED: a write of RNG_LFSR_CMD with GO seeds the masked engines that are IDLE or HALTED, keyed at once or from seed
words as they come, and skips the others; GO during a seeding is ignored (R413). -/
def execLfsrSeed (value : BitVec 32) (s : State) : Host.Outcome State Fault Refusal :=
  let v := value.toNat
  if s.flag rngStatusSeeding then done s
  else
    let s := s.set rngLfsrCmdMode (bits v 1 1)
    if !bitOf v 0 then done s
    else
      let mask := s.get rngLfsrMaskEngines
      let s := s.set rngStatusSeeding 1
      if bitOf v 1 ∧ !s.flag rngStatusReady then done (s.set rngSkippedEngines mask)
      else
        let free (e : Nat) : Bool := engState s e == 0 || engState s e == 5
        let es := (enginesOf mask).filter free
        let s := s.set rngSkippedEngines (((enginesOf mask).filter (fun e => !free e)).map (fun e => 2 ^ e)).sum
        if bitOf v 1 then
          done (seedFeed 8 (s.onRng (fun g => { g with lanes := es.flatMap (fun e => (List.range 64).map (fun l => 64 * e + l)) })))
        else done (State.each es seedKeyed s)

/-- SEED_DONE: a seeding command has ended; SEED_DONE is set. -/
def execSeedDone (s : State) : Host.Outcome State Fault Refusal :=
  if !s.flag rngStatusSeeding ∨ s.rng.lanes ≠ [] then done s
  else done (raise rngEvtSeedDone (s.set rngStatusSeeding 0))

/-- Whether the node takes a polynomial table: bit 63 of every entry is 1, and no two are equal (R410). -/
def polyOk (l : List Nat) : Bool := l.all (fun t => bitOf t 63) && l.eraseDups.length == l.length

/-- The table of Imken's default image: entry 0 as R412 gives it; the others the spec does not state (assumption 2). -/
def defaultTaps (l : Nat) : Nat := if l = 0 then 0xD800000000000000 else (Config.defaultTaps l).toNat

/-- The polynomial table checked: a bad one sets POLY_BAD and the default table takes its place (R410). -/
def polyCheck (s : State) : State :=
  if polyOk ((List.range 64).map (fun l => s.get (rngPolyTaps l))) then s.set rngStatusPolyBad 0
  else State.each (List.range 64) (fun l t => t.set (rngPolyTaps l) (defaultTaps l)) (s.set rngStatusPolyBad 1)

end Sys2Proof.Machine
end

