-- ==== Sys2Proof/Machine/RegLook.lean ====
section
/-! DEFINITION. The BAR0 block map (R616): which register holds an offset, which field a bit address names, and the list of
registers whose values the image gives. -/

namespace Sys2Proof.Machine

/-- One instance of a register block: its base offset and its spans. -/
structure Block where
  base : Nat
  spans : List Span

/-- The block instance that holds a BAR0 offset (R616); contexts and global stream registers share a block. -/
def blockAt (o : Nat) : Option Block :=
  if o < 0x100000 then some ⟨0, idSpans⟩
  else if o < 0x200000 then some ⟨0x100000, tickSpans⟩
  else if o < 0x300000 then some ⟨o / 0x10000 * 0x10000, elvSpans (o / 0x10000 % 16)⟩
  else if o < 0x400000 then none
  else if o < 0x600000 then some ⟨0x400000, fabSpans⟩
  else if o < 0x800000 then some ⟨0x600000, calSpans⟩
  else if o < 0xa00000 then some ⟨0x800000, memSpans⟩
  else if o < 0xa80000 then some ⟨o / 0x10000 * 0x10000, hbmSpans (o / 0x10000 % 16)⟩
  else if o < 0xb00000 then none
  else if o < 0xc00000 then some ⟨0xb00000, dtcSpans⟩
  else if o < 0xd00000 then some ⟨0xc00000, rlgSpans⟩
  else if o < 0xd80000 then some ⟨o / 0x400 * 0x400, strSpans (o / 0x400 % 512)⟩
  else if o < 0xe00000 then some ⟨0xd80000, strgSpans⟩
  else if o < 0x1000000 then some ⟨0xe00000, gldSpans⟩
  else if o < 0x1400000 then some ⟨o / 0x10000 * 0x10000, upeSpans (o / 0x10000 % 64)⟩
  else if o < 0x1500000 then some ⟨0x1400000, mxaSpans⟩
  else if o < 0x1600000 then some ⟨0x1500000, kvsSpans⟩
  else if o < 0x1700000 then some ⟨0x1600000, rngSpans⟩
  else if o < 0x1800000 then some ⟨0x1700000, cohSpans⟩
  else if o < 0x1900000 then some ⟨0x1800000, fumSpans⟩
  else if o < 0x1a00000 then some ⟨0x1900000, rstSpans⟩
  else if o < 0x1b00000 then some ⟨0x1a00000, hstSpans⟩
  else if o < 0x1c00000 then some ⟨0x1b00000, mmuSpans⟩
  else if o < 0x1d00000 then some ⟨0x1c00000, telSpans⟩
  else none

/-- A register: its offset, its bytes and its fields. -/
structure Reg where
  off : Nat
  size : Nat
  flds : List Fld

/-- The register that holds a byte of BAR0, if the index assigns one (R617, R618). -/
def regAt (o : Nat) : Option Reg :=
  match blockAt o with
  | none => none
  | some b =>
    b.spans.findSome? (fun p =>
      (p.index (o - b.base)).map (fun i => ⟨b.base + p.off + i * p.stride, p.size, p.flds i⟩))

/-- A field stored within bounds: the nearer bound of a value outside them. -/
def clampFld (f : Fld) (lo hi : Nat) (s : State) : State := s.set f (max lo (min hi (s.get f)))

/-- The fields of the register at an offset that the node stores within bounds, each with its bounds (R112, R158, R184, R223,
R513, R518). -/
def boundsAt (o : Nat) : List (Fld × Nat × Nat) :=
  let stack := (List.range 8).flatMap (fun k => [(hbmCtlCeLimit k, 1, 255), (hbmScrubGapCycles k, 256, 2 ^ 24 - 1)])
  ([(tickMarginDefaultPct, 0, 50), (fabReqTimeoutUs, 200, 2 ^ 32 - 1), (calCtlRetryMax, 1, 15), (dtcCtlCeLimit, 1, 255),
    (dtcScrubGapCycles, 256, 2 ^ 24 - 1), (fumBudgetNextWatts, 450, 1350), (fumBudgetDefaultWatts, 450, 1350),
    (fumHotShare, 25, 100), (fumCoolWatts, 450, 1350)] ++ stack ++
    (List.range 16).map (fun p => (memPartBurstKib p, 1, 65535))).filter (fun x => x.1.reg == o)

/-- The field a bit address names. -/
def fieldOf (key : Nat) : Option Fld :=
  match regAt (key / 8) with
  | some r => r.flds.find? (fun f => f.key == key)
  | none => none

/-- Fields with an image value that the DEFAULTS section must not give (R485). -/
def notInDefaults (f : Fld) : Bool :=
  [tickPeriodCycles, tickRankRank, fabNodeIdId, gldStatusFloorSum, fumBudgetWatts].any (fun g => g == f)

/-- The fields of a register that the DEFAULTS section gives. -/
def imageFlds (r : Reg) : List Fld := r.flds.filter (fun f => f.img && !notInDefaults f)

/-- The first offset of every block instance. -/
def blockBases : List Nat :=
  [0, 0x100000] ++ (List.range 16).map (fun n => 0x200000 + n * 0x10000) ++ [0x400000, 0x600000, 0x800000] ++
    (List.range 8).map (fun n => 0xa00000 + n * 0x10000) ++ [0xb00000, 0xc00000] ++
    (List.range 512).map (fun n => 0xd00000 + n * 0x400) ++ [0xd80000, 0xe00000] ++
    (List.range 64).map (fun n => 0x1000000 + n * 0x10000) ++
    (List.range 9).map (fun n => 0x1400000 + n * 0x100000)

/-- Every register with a field that DEFAULTS must give. -/
def imageRegs : List Reg :=
  blockBases.flatMap (fun o =>
    match blockAt o with
    | none => []
    | some b => b.spans.flatMap (fun p =>
        if (imageFlds ⟨0, 0, p.flds 0⟩).isEmpty then []
        else (List.range p.cnt).map (fun i => (⟨b.base + p.off + i * p.stride, p.size, p.flds i⟩ : Reg))))

/-! ## What a reset or a power state clears (R6 to R8, R537) -/

/-- Whether a reset clears a field: 2 module, 3 fabric, 4 compute, 5 plan (R6, R537). -/
def clears (kind : Nat) (k : Kept) : Bool :=
  match k with
  | .none => true
  | .pl => decide (kind ≤ 4)
  | .cp => decide (kind ≤ 3)
  | .md => decide (kind ≤ 2)
  | .pw | .nv => false

/-- Every field that a reset clears back at its reset value. -/
def clearRegs (kind : Nat) (s : State) : State :=
  { s with regs := s.regs.filter (fun p =>
    match fieldOf p.1 with
    | some f => !clears kind f.kept
    | none => true) }

/-- Every fabric-derived field back at its reset value (R7). -/
def clearFb (s : State) : State :=
  { s with regs := s.regs.filter (fun p =>
    match fieldOf p.1 with
    | some f => !f.fb
    | none => true) }

end Sys2Proof.Machine
end

