-- ==== Sys2Proof/Machine/Tick.lean ====
section
/-! DEFINITION. The fabric tick between its edges (R16 to R26, R38 to R53): beacons, lock, takeover, hold requests, hold
grants, late notices and verdict beacons. -/

namespace Sys2Proof.Machine

/-! ## Beacons (R16, R19, R23) -/

def bTick (b : List Byte) : Nat := leAt b 0 8
def bNode (b : List Byte) : Nat := bits (leAt b 8 2) 0 12
def bRank (b : List Byte) : Nat := bits (leAt b 8 2) 12 3
def bEpoch (b : List Byte) : Nat := leAt b 10 2
def bAcc (b : List Byte) : Nat := leAt b 12 4
def bHops (b : List Byte) : Nat := leAt b 16 1
def bKind (b : List Byte) : Nat := leAt b 17 1
def bExt (b : List Byte) : Nat := leAt b 18 1
def bSwitch (b : List Byte) : Bool := bitOf (leAt b 19 1) 0
def bSwitchTick (b : List Byte) : Nat := leAt b 24 8
def bSwitchPlan (b : List Byte) : Nat := leAt b 32 4
def bKindData (b : List Byte) : Nat := leAt b 40 8

/-- Epoch `a` is higher than `b` in serial order (R16). -/
def epochHigher (a b : Nat) : Bool :=
  let d := (a + 65536 - b) % 65536
  decide (1 ≤ d) && decide (d ≤ 32767)

/-- Whether the beacon's source is the accepted one. -/
def sameSource (s : State) (b : List Byte) : Bool :=
  bEpoch b == s.get tickTkEpoch && bRank b == s.get tickTkRank && bNode b == s.get tickTkNode

/-- Whether the source of a beacon is accepted (R16). -/
def sourceOk (s : State) (b : List Byte) : Bool :=
  !s.tick.heard || sameSource s b || epochHigher (bEpoch b) (s.get tickTkEpoch) ||
    (bEpoch b == s.get tickTkEpoch && decide (bRank b < s.get tickTkRank))

/-- Whether a beacon is one of this timekeeper's own that has come back: no beacon from another source (R18). -/
def ownBeacon (s : State) (b : List Byte) : Bool :=
  s.flag tickStatusTk && bNode b == ownId s && bEpoch b == s.get tickTkEpoch

/-- Whether a port is an upstream port for beacons of a rank: the UP port of the rank's entry, or its ALT port while UP is
down; the entry of the node's own rank names none (R19, R98, R99). -/
def upstreamPort (s : State) (p rank : Nat) : Bool :=
  let e := beaconEntry s (routeBank s) rank
  s.flag fabStatusRoutes && bcnValid e && rank != s.get tickRankRank &&
    (p == bcnUp e || (bcnAltValid e && p == bcnAlt e && !portLive s (bcnUp e)))

/-- Whether a beacon may be accepted on a port of an eligible rank (R19, R24, R26, R62): while ACQUIRING any port; with an
active route bank an upstream port; without one the acquisition port, or any port for a node that is not in tick lock or is
timekeeper. -/
def beaconPortOk (s : State) (p rank : Nat) : Bool :=
  let lock := s.get tickStatusLock
  bcnEligible s p && (lock == 1 ||
    (if s.flag fabStatusRoutes then upstreamPort s p rank else s.flag tickStatusTk || lock == 0 || s.tick.acqPort == some p))

/-- The copy of a beacon that is forwarded: ACC_DELAY plus the link delay and the forwarding time, HOPS plus 1. -/
def forwarded (b : List Byte) (delay fwd : Nat) : List Byte :=
  slice b 0 12 ++ leBytes 4 (bAcc b + delay + fwd) ++ leBytes 1 (bHops b + 1) ++ slice b 17 31

/-- A beacon that arrived on an upstream port forwarded on the DOWN ports and as leaf copies; a node without an active route
bank has no upstream port and forwards none (R19, R26, R106). -/
def forwardBeacon (p : Nat) (b : List Byte) (fwd : Nat) (s : State) : State :=
  if upstreamPort s p (bRank b) then
    sendCtrlMask (clearBits (Nat.lor (s.get tickBeaconPortDown) (leafPorts s)) (2 ^ p)) 1
      (forwarded b (s.get (tickLinkDelayPs p)) fwd) s
  else s

/-- The accepted source recorded; a new epoch is a takeover, and a timekeeper that accepts another source yields (R16 to
R18). -/
def acceptSource (b : List Byte) (s : State) : State :=
  let new := s.tick.heard && epochHigher (bEpoch b) (s.get tickTkEpoch)
  let s := ((s.set tickTkNode (bNode b)).set tickTkRank (bRank b)).set tickTkEpoch (bEpoch b)
  let s := s.onTick (fun t => { t with heard := true, yielding := t.yielding || s.flag tickStatusTk })
  if new then fault .tick 4 0 (s.get tickCountCount) 0 none (raise tickEvtTakeover s) else s

/-! ## Lock (R21, R24, R25) -/

/-- The node leaves tick lock: UNLOCKED, LOCK_LOST and a tick fault; the reference is held (R25, R467). -/
def lockLost (s : State) : State :=
  let s := fault .tick 1 0 (s.get tickCountCount) 0 none s
  let s := (s.set tickStatusLock 0).onTick (fun t => { t with acqPort := none, inPhase := 0, outPhase := 0 })
  raise tickEvtLockLost (clockTo 3 (s.get idClkStatPort) s)

/-- Entry to ACQUIRING on a port: the tick number and the edge come from the beacon, the reference from the port (R24,
R26, R467). -/
def acquire (p : Nat) (b : List Byte) (edge : Nat) (s : State) : State :=
  let s := clockTo 1 p ((s.set tickStatusLock 1).set tickCountCount (bTick b))
  let s := s.onTick (fun t => { t with
    running := true, edge := edge, ext := 0, inPhase := 0, outPhase := 0, acqPort := some p, acqHops := bHops b, asked := 0,
    sentTotal := 0 })
  if s.flag fabStatusRoutes then s
  else (((s.set tickBeaconPortUp p).set tickBeaconPortAlt 0).set tickBeaconPortDown 0).onTick
    (fun t => { t with upOk := true, altOk := false })

/-- The predicted edge of the beacon's tick, when that tick is the current or the next one. -/
def predicted (s : State) (n : Nat) : Option Nat :=
  if n = s.get tickCountCount then some s.tick.edge
  else if n = s.get tickCountCount + 1 then some (pendingEdge s) else none

/-- The phase correction and the lock counters (R21, R24, R25); the relock of the reference suspends both (R467). -/
def correctPhase (pred edge : Nat) (s : State) : State :=
  if s.get idClkStatSource ≠ 0 ∧ s.get idClkStatSource ≠ 3 ∧ ¬ s.flag idClkStatLocked then s
  else
    let err : Int := (pred : Int) - edge
    let c : Int := max (-200) (min 200 err)
    let s := s.set tickPhaseErrErr (wrapInt 32 err)
    let ok := decide (err.natAbs ≤ 1000)
    let s := s.onTick (fun t => { t with
      edge := ((t.edge : Int) - c).toNat
      inPhase := if ok then t.inPhase + 1 else 0
      outPhase := if 2000 < err.natAbs then t.outPhase + 1 else 0 })
    if s.get tickStatusLock = 1 ∧ 8 ≤ s.tick.inPhase then bootTime 5 (s.set tickStatusLock 2) else s

/-- The comparison of an armed node at the beacon for tick N − 1 (R34): committed, or disarmed with SWITCH_MISMATCH. -/
def compareSwitch (n : Nat) (announced : Bool) (at_ plan : Nat) (s : State) : State :=
  if ¬ s.flag tickSwitchCtlArmed ∨ s.flag tickSwitchCtlCommitted ∨ n + 1 ≠ s.get tickSwitchAtAt then s
  else if announced ∧ at_ = s.get tickSwitchAtAt ∧ plan = s.get tickSwitchPlanId then
    let s := s.set tickSwitchCtlCommitted 1
    { s with fum := { s.fum with clearOut := s.fum.clearOut || (s.flag fumStatusOut && s.fum.rejoin) } }
  else fault .tick 3 0 (s.get tickCountCount) 0 none (raise tickEvtSwitchMismatch (s.set tickSwitchCtlArmed 0))

/-- What an accepted tick beacon does to the timer and the lock, once it is accepted (R21, R24, R34). -/
def tickBeacon (b : List Byte) (edge : Nat) (timed : Bool) (s : State) : State :=
  let s := s.onTick (fun t => { t with seen := bTick b + 1 })
  let s := if timed then (match predicted s (bTick b) with | some e => correctPhase e edge s | none => s) else s
  compareSwitch (bTick b) (bSwitch b) (bSwitchTick b) (bSwitchPlan b) s

/-- Whether an ACQUIRING node moves its choice to this port: fewer hops, then the lower port (R24). -/
def betterPort (s : State) (p hops : Nat) : Bool :=
  match s.tick.acqPort with
  | none => true
  | some q => decide (hops < s.tick.acqHops) || (hops == s.tick.acqHops && decide (p < q))

/-- The reference follows the port whose beacons the node accepts, out of HOLDOVER (R467). -/
def clockFollow (p : Nat) (s : State) : State :=
  if s.get idClkStatSource ≠ 3 then s
  else if p = s.get tickBeaconPortUp then clockTo 1 p s
  else if p = s.get tickBeaconPortAlt then clockTo 2 p s else s

/-- What the acceptance of a beacon of any KIND does: its source and path, the reference of its port, no beacon missed, and
from HOLDOVER back to LOCKED (R16, R17, R24, R40, R99; DEDUCED for KIND 1 and 2, assumption 67). -/
def acceptBeacon (p : Nat) (b : List Byte) (s : State) : State :=
  let s := clockFollow p (loadBeaconPort (bRank b) (acceptSource b s))
  let s := (s.set tickStatusMissed 0).onTick (fun t => { t with accDelay := bAcc b + s.get (tickLinkDelayPs p), hops := bHops b + 1 })
  if s.get tickStatusLock = 3 then s.set tickStatusLock 2 else s

/-- Whether a beacon names a source that the node has not accepted yet. -/
def freshSource (s : State) (b : List Byte) : Bool := !s.tick.heard || !sameSource s b

/-- BEACON_RECEIVE: a tick beacon arrives at `at_` and is forwarded after `fwd` ps; it starts, moves or keeps the node's
lock (R16 to R26, R34, R77, R106, R506). A replayed copy gives no arrival time, so it starts no lock. While ACQUIRING the
beacons of a port that is not the chosen one are accepted and forwarded, and give no time. -/
def execBeaconReceive (port : Fin 16) (msg : List Byte) (at_ fwd : Nat) (replayed : Bool) (s : State) :
    Host.Outcome State Fault Refusal :=
  let p := port.val
  let s := consumeCtrl p 1 msg (s.reach at_)
  let lock := s.get tickStatusLock
  let edge := at_ - (bAcc msg + s.get (tickLinkDelayPs p))
  if bKind msg ≠ 0 ∨ ownBeacon s msg ∨ !beaconPortOk s p (bRank msg) ∨ !sourceOk s msg then done s
  else
    let start := !replayed && (lock == 0 || (freshSource s msg && (lock == 1 || s.flag tickStatusBankEmpty)) ||
      (lock == 1 && betterPort s p (bHops msg)))
    if lock ≤ 1 ∧ ¬ start ∧ (lock = 0 ∨ freshSource s msg ∨ s.tick.acqPort ≠ some p) then
      done (forwardBeacon p msg (min fwd 24000) (loadBeaconPort (bRank msg) s))
    else
      let s := acceptBeacon p msg s
      let s := if start then acquire p msg edge s else s
      done (forwardBeacon p msg (min fwd 24000) (tickBeacon msg edge (!replayed && !start) s))

/-- BEACON_MISS: the next edge has come without the beacon of the last one (R24, R25). An ACQUIRING node whose port stays
silent for 16 beacons chooses again. -/
def execBeaconMiss (s : State) : Host.Outcome State Fault Refusal :=
  let lock := s.get tickStatusLock
  if s.flag tickStatusTk ∨ lock = 0 ∨ s.get tickCountCount < s.tick.seen then done s
  else if s.get idClkStatSource ≠ 0 ∧ s.get idClkStatSource ≠ 3 ∧ ¬ s.flag idClkStatLocked then
    done (s.onTick (fun t => { t with seen := s.get tickCountCount + 1 }))
  else
    let s := s.reach (pendingEdge s)
    let m := min (s.get tickStatusMissed + 1) 31
    let s := (s.set tickStatusMissed m).onTick (fun t => { t with seen := s.get tickCountCount + 1, inPhase := 0, outPhase := 0 })
    if lock = 2 then done (s.set tickStatusLock 3)
    else if lock = 1 ∧ 16 ≤ m then done ((s.set tickStatusMissed 0).onTick (fun t => { t with acqPort := none }))
    else done s

/-- LOCK_LOST: after 16 missed beacons or 4 beacons out of phase (R25). -/
def execLockLost (s : State) : Host.Outcome State Fault Refusal :=
  let lock := s.get tickStatusLock
  if (lock = 2 ∨ lock = 3) ∧ ¬ s.flag tickStatusTk ∧ (16 ≤ s.get tickStatusMissed ∨ 4 ≤ s.tick.outPhase) then
    done (lockLost s)
  else done s

/-- A beacon of the timekeeper's own launched at its edge; armed for the next tick it commits itself (R19, R34). -/
def launchTick (s : State) : State :=
  compareSwitch (s.get tickCountCount) true (s.get tickSwitchAtAt) (s.get tickSwitchPlanId) (launchBeacon 0 0 s)

/-- The node made timekeeper under an epoch: LOCKED, its own tree loaded. -/
def becomeTk (epoch : Nat) (s : State) : State :=
  let s := (((s.set tickStatusTk 1).set tickTkNode (ownId s)).set tickTkRank (s.get tickRankRank)).set tickTkEpoch epoch
  let s := (s.set tickStatusLock 2).set tickStatusMissed 0
  let s := s.onTick (fun t => { t with
    heard := true, yielding := false, arrived := 0, arrivedNext := 0, roundsOver := false, round := 0, acqPort := none,
    upOk := false, altOk := false })
  loadBeaconPort (s.get tickRankRank) s

/-- TAKEOVER: at a tick edge, a node of rank k from 1 to 7 that has missed 2 + k beacons becomes timekeeper under the next
epoch and launches beacons; it grants nothing in this tick (R17, R50, R467). -/
def execTakeover (s : State) : Host.Outcome State Fault Refusal :=
  let k := s.get tickRankRank
  let lock := s.get tickStatusLock
  if s.flag tickStatusTk ∨ (lock ≠ 2 ∧ lock ≠ 3) ∨ k = 0 ∨ 7 < k ∨ s.get tickStatusMissed < 2 + k ∨
      s.now ≠ s.tick.edge then done s
  else
    let s := becomeTk ((s.get tickTkEpoch + 1) % 65536) (clockTo 3 (s.get idClkStatPort) s)
    let s := s.onTick (fun t => { t with tookOver := some (s.get tickCountCount) })
    done (launchTick (fault .tick 4 0 (s.get tickCountCount) 0 none (raise tickEvtTakeover s)))

/-! ## Holds (R38 to R43, R47, R48, R53) -/

/-- The 16 bytes of a hold request or late notice. -/
def holdMsg (s : State) (kind total : Nat) : List Byte :=
  leBytes 8 (s.get tickCountCount) ++ leBytes 2 (ownId s) ++ leBytes 1 kind ++ leBytes 1 total ++ leBytes 4 0

/-- The upstream beacon port: UP of the loaded entry, or ALT, where it applies, while UP is down (R19, R98, R99). -/
def upPort (s : State) : Option Nat :=
  let u := s.get tickBeaconPortUp
  if !s.tick.upOk then none
  else if s.tick.altOk ∧ !portLive s u ∧ portLive s (s.get tickBeaconPortAlt) then some (s.get tickBeaconPortAlt)
  else some u

/-- A hold request or late notice sent upstream (R41). -/
def sendUp (msg : List Byte) (s : State) : State :=
  match upPort s with
  | some p => sendTick p 2 msg s
  | none => s

/-- The deadline of the current round at the timekeeper, in local time (R40). -/
def roundDeadline (s : State) : Nat := s.tick.edge + periodPs s * 85 / 100 + s.tick.ext * unitPs s

/-- A request for a total taken at the timekeeper: into the current round when it arrived before the deadline, else into
the next (R42, R47, R48). -/
def takeTotal (total at_ : Nat) (s : State) : State :=
  if s.tick.roundsOver then s
  else s.onTick (fun t =>
    if at_ < roundDeadline s then { t with arrived := max t.arrived total } else { t with arrivedNext := max t.arrivedNext total })

/-- A request forwarded upstream; the larger total of a tick is kept (R41, R48). -/
def upTotal (total : Nat) (msg : List Byte) (s : State) : State :=
  sendUp msg (s.onTick (fun t => { t with sentTotal := max t.sentTotal total }))

/-- Ports whose claim is RETRAINING or DOWN. -/
def claimedPorts (s : State) : Nat :=
  ((List.range 16).map (fun p => b2n (s.get (telClaimState p) == 1 || s.get (telClaimState p) == 3) * 2 ^ p)).sum

/-- Whether a running collective slot lacks inputs only on claimed ports (R564). -/
def onlyClaimed (s : State) (i : Nat) : Bool :=
  let d := slotDesc s i
  let gs := slotSegs s i
  let c := claimedPorts s
  (slotOf s i).cls == 0 && slotState s i == .running && c != 0 &&
    gs.all (fun g => (segWindows d gs g).all (fun w =>
      Tab.get 0 s.cal.ended (winKey i w) != 0 ||
        (let m := lacking s i d g w
         m != 0 && Nat.land m c == m)))

/-- The units that an estimate needs: ceil of its distance from the original edge in units, capped at 4 (R38). -/
def unitsFor (s : State) (e : Nat) : Nat :=
  let orig := s.tick.edge + periodPs s
  min 4 ((e - orig + unitPs s - 1) / unitPs s)

/-- The largest estimate. -/
def latest (l : List (Nat × Nat)) : Nat := l.foldl (fun m x => max m x.2) 0

/-- HOLD_REQUEST_SEND: at the send deadline of a round, `estimates` gives the completion time that each item's progress
report yields; a request is sent when one falls after the pending edge and needs more than is granted, at most one a
round; Fumarole adds its own for the items that use a hot stack (R38 to R40, R519, R564). -/
def execHoldRequestSend (estimates : List (Nat × Nat)) (hot : List Nat) (s : State) : Host.Outcome State Fault Refusal :=
  let s := s.reach (roundDeadline s - holdReachOf s)
  let live := estimates.filter (fun x =>
    (slotState s x.1 == .sched || slotState s x.1 == .running) && !onlyClaimed s x.1)
  let seqTotal := if s.flag tickHoldCtlAuto ∧ pendingEdge s < latest live then unitsFor s (latest live) else 0
  let hots := (live.filter (fun x => hot.contains x.1)).map (fun x =>
    (x.1, s.now + (x.2 - s.now) * 100 / max (s.get fumHotShare) 1))
  let fumTotal := if s.get fumStatusHot ≠ 0 ∧ pendingEdge s < latest hots then unitsFor s (latest hots) else 0
  let total := max seqTotal fumTotal
  if !inLock s ∨ 4 ≤ s.tick.ext ∨ s.tick.ext + 1 ≤ s.tick.asked ∨ total ≤ s.tick.ext then done s
  else
    let s := (s.bump tickHoldStatRequests 1).onTick (fun t => { t with asked := t.ext + 1 })
    let s := if fumTotal = total then
        { s.bump fumCountHolds 1 with fum := { s.fum with heldTick := true } }
      else s
    if s.flag tickStatusTk then done (takeTotal total s.now s) else done (sendUp (holdMsg s 0 total) s)
where
  /-- The hold reach (R40). -/
  holdReachOf (s : State) : Nat := s.tick.accDelay + 24000 * s.tick.hops + 20000

/-- HOLD_REQUEST: a request from a downstream port is taken at the timekeeper, or forwarded upstream unless as large a
total has gone up in this tick or the deadline of the round has passed (R41, R42, R47, R48). -/
def execHoldRequest (port : Fin 16) (msg : List Byte) (at_ : Nat) (s : State) : Host.Outcome State Fault Refusal :=
  let s := consumeCtrl port 2 msg (s.reach at_)
  let total := min 4 (leAt msg 11 1)
  if leAt msg 10 1 ≠ 0 ∨ !bitOf (s.get tickBeaconPortDown) port ∨ leAt msg 0 8 ≠ s.get tickCountCount then done s
  else if s.flag tickStatusTk then done (takeTotal total at_ s)
  else if roundDeadline s < at_ ∨ total ≤ s.tick.sentTotal then done s
  else done (upTotal total msg s)

/-- The confirm slots of the current tick that the timekeeper has not decided (R157): of the step whatever has become of its
own; of the gather, unless the step's ABORT cancelled them. -/
def undecided (s : State) (gather : Bool) : List Nat :=
  (List.range (planSlots s)).filter (fun i =>
    runsNow s i && !s.cal.launched.contains i &&
      (if gather then isGatherConfirm s i && slotState s i != .cancelled && slotState s i != .aborted else isConfirm s i))

/-- A late notice at the timekeeper: ABORT of the step's confirm at once, also when a later tick holds its slot; GATHER_REPEAT
of the gather's, once its slot is there (R157, R158, R170). A notice after the deadline that decided the step changes
nothing. -/
def takeNotice (s : State) : State :=
  if s.get calStatusState = 2 ∧ s.cal.gather = 0 then
    let s := s.onCal (fun c => { c with noticeGather := true })
    State.each (undecided s true) (launchAbort · false false) s
  else if s.tick.roundsOver ∧ (List.range (planSlots s)).any (fun i => isConfirm s i && runsNow s i && lastTick s i) then s
  else
    let s := s.onCal (fun c => { c with notice := true })
    match undecided s false with
    | [] => if s.cal.settled = [] ∧ s.get calStatusState ≠ 3 then State.each (nextConfirm s).toList (launchAbort · false false) s else s
    | l => State.each l (launchAbort · false false) s

/-- LATE_NOTICE: a late notice from a downstream port goes upstream, and at the timekeeper to the commit logic; it grants
no units (R41, R157). -/
def execLateNotice (port : Fin 16) (msg : List Byte) (at_ : Nat) (s : State) : Host.Outcome State Fault Refusal :=
  let s := consumeCtrl port 2 msg (s.reach at_)
  if leAt msg 10 1 ≠ 1 ∨ !bitOf (s.get tickBeaconPortDown) port then done s
  else if s.flag tickStatusTk then done (takeNotice s)
  else done (sendUp msg s)

/-- The combined confirm that a slot has gathered so far at the root. -/
def confirmSoFar (s : State) (i : Nat) : Nat :=
  let e := Tab.get ⟨0, 0, 0, []⟩ s.cal.store (entryOf (slotDesc s i) 0 0)
  if e.slot = i then e.inputs.foldl (fun a x => addConfirm a (x.2.2.2.getD 0 0)) 0 else 0

/-- ABORT, or GATHER_REPEAT, for confirm slots whose count is short. -/
def abortShort (l : List Nat) (s : State) : State :=
  State.each l (fun i t => launchAbort i (bitOf (confirmSoFar t i) 49) (bitOf (confirmSoFar t i) 50) t) s

/-- The deadline of a round after which no units are granted: in its last tick, a confirm slot that is undecided is aborted
(R157 step 3). -/
def finalDeadline (s : State) : State :=
  let s := s.onTick (fun t => { t with roundsOver := true })
  abortShort ((undecided s false ++ undecided s true).filter (lastTick s)) s

/-- HOLD_ROUND_DEADLINE: the timekeeper sets the new total and launches a hold grant when it has grown; a round without a
grant, a total of 4, or the tick of a takeover ends the rounds (R42, R50, R157). A step whose reduce-scatter began under an
earlier epoch is aborted at the first deadline its confirm slot meets (R52). -/
def execHoldRoundDeadline (s : State) : Host.Outcome State Fault Refusal :=
  if !s.flag tickStatusTk ∨ !s.tick.running ∨ s.tick.roundsOver then done s
  else
    let s := s.reach (roundDeadline s)
    let new := min 4 s.tick.arrived
    let s := if earlierEpoch s then abortShort (undecided s false) s else s
    if s.tick.tookOver = some (s.get tickCountCount) ∨ new ≤ s.tick.ext then done (finalDeadline s)
    else
      let s := s.onTick (fun t => { t with ext := new, round := t.round + 1, arrived := max t.arrived t.arrivedNext, arrivedNext := 0 })
      let s := launchBeacon 1 0 s
      if new = 4 then done (finalDeadline s) else done s

/-- An edge slip (R53): the timer realigned to the grant of a tick that is closed, `k` ticks before the last, the slip counted,
tick lock left. The items of that tick took the late rule at its edge. -/
def edgeSlip (k ext : Nat) (s : State) : State :=
  let s := s.onTick (fun t => { t with edge := t.edge + (ext - t.past.getD k 0) * unitPs s, past := t.past.set k ext })
  let s := s.bump tickLateSlips 1
  if s.get tickStatusLock = 2 ∨ s.get tickStatusLock = 3 then lockLost (fault .tick 2 0 (s.get tickCountCount) 0 none s)
  else fault .tick 2 0 (s.get tickCountCount) 0 none s

/-- A hold grant taken: for the current tick the pending edge moves, for one already closed the edge slips (R43, R53). -/
def takeGrant (tick ext : Nat) (s : State) : State :=
  let n := s.get tickCountCount
  if tick = n then s.onTick (fun t => { t with ext := max t.ext ext })
  else if tick < n ∧ s.tick.past.getD (n - 1 - tick) 0 < ext then edgeSlip (n - 1 - tick) ext s
  else s

/-- Whether a beacon of KIND 1 or 2 is accepted; without an edge it starts no lock, so a source that a node out of lock or
without a plan has not accepted yet is left to its next tick beacon (R19, R24; DEDUCED, assumption 67). -/
def beaconTaken (s : State) (p kind : Nat) (b : List Byte) : Bool :=
  bKind b == kind && !ownBeacon s b && beaconPortOk s p (bRank b) && sourceOk s b &&
    !(freshSource s b && (decide (s.get tickStatusLock ≤ 1) || s.flag tickStatusBankEmpty))

/-- HOLD_GRANT: a grant is accepted and forwarded as any beacon and moves an edge (R19, R43, R53). -/
def execHoldGrant (port : Fin 16) (msg : List Byte) (at_ fwd : Nat) (s : State) : Host.Outcome State Fault Refusal :=
  let p := port.val
  let s := consumeCtrl p 1 msg (s.reach at_)
  if !beaconTaken s p 1 msg then done s
  else done (takeGrant (bTick msg) (min 4 (bExt msg)) (forwardBeacon p msg (min fwd 24000) (acceptBeacon p msg s)))

/-- VERDICT_ACCEPT: a verdict beacon is accepted and forwarded as any beacon and, when it matches, takes effect (R157 to
R162). -/
def execVerdictAccept (port : Fin 16) (msg : List Byte) (at_ fwd : Nat) (s : State) : Host.Outcome State Fault Refusal :=
  let p := port.val
  let s := consumeCtrl p 1 msg (s.reach at_)
  if !beaconTaken s p 2 msg then done s
  else done (acceptVerdict (bKindData msg) (forwardBeacon p msg (min fwd 24000) (acceptBeacon p msg s)))

end Sys2Proof.Machine
end

