-- ==== Sys2Proof/Machine/Boot.lean ====
section
/-! DEFINITION. Start-up (chapter 15): fuses, image slots and their checks, the Narup cores, memory training with the
remap log, domain start and ready-for-plan. Boot phases: 0 RESET, 1 IDENTITY, 2 IMAGE, 3 MEMORY, 4 TICK, 5 READY, 6 FAILED. -/

namespace Sys2Proof.Machine

/-- The start-up state changed. -/
def State.onBoot (f : BootState → BootState) (s : State) : State := { s with boot := f s.boot }

/-! ## Die reset release (R478, R490, R501) -/

/-- The fuse values as ID_UID, ID_IMAGE_SVN and ID_KEY_STAT show them (R478). -/
def showFuses (s : State) : State :=
  let b := s.boot
  (((s.set idUidUid b.uid).set idImageSvnFuse b.svn).set idKeyStatPresent
    ((List.range 4).map (fun k => b2n (Tab.get 0 b.keyHash k != 0) * 2 ^ k)).sum).set idKeyStatRevoked b.revoked

/-- DIE_RESET_RELEASE: with every rail good and the internal reset asserted, the start begins: the fuses are read, the ID
block answers and PHASE is IMAGE (R490, R501, R503). -/
def execDieResetRelease (s : State) : Host.Outcome State Fault Refusal :=
  if !s.rst.held ∨ s.mod.seq ≠ 8 then done s
  else
    let s := { s with rst := { s.rst with held := false, kind := 0 }, host := { s.host with answers := true } }
    let s := s.onBoot (fun b => { b with release := s.now, tried := [], slot := none, parts := 0, ready := 0, narup := [] })
    let s := sample (showFuses (s.bump idBootStatStarts 1))
    done (bootTime 1 (bootTime 0 (s.set idBootStatPhase 2)))

/-! ## Image slots (R477 to R489) -/

/-- Flash offset of a slot. -/
def slotBase (k : Nat) : Nat := k * 0x4000000

/-- Bytes of a slot. -/
def slotBytes (s : State) (k o n : Nat) : List Byte := flashBytes s (slotBase k + o) n

/-- The header of a slot. -/
def slotHead (s : State) (k : Nat) : List Byte := slotBytes s k 0 256

/-- Whether a header carries MAGIC and FORMAT. -/
def headOk (h : List Byte) : Bool := leAt h 0 4 == 0x4E4B4D49 && leAt h 4 2 == 1

/-- The slot tried first (R480). -/
def firstSlot (s : State) : Nat :=
  let a := slotHead s 0
  let b := slotHead s 1
  match s.get idBootCtlSlotPref with
  | 1 => 0
  | 2 => 1
  | _ => if headOk b && (!headOk a || decide (leAt a 8 4 < leAt b 8 4)) then 1 else 0

/-- The slot to try next, if one is left. -/
def nextSlot (s : State) : Option Nat :=
  [firstSlot s, 1 - firstSlot s].find? (fun k => !s.boot.tried.contains k)

/-- A directory entry: TYPE, OFFSET, LENGTH, CRC (R482). -/
structure Section where
  typ : Nat
  off : Nat
  len : Nat
  crc : Nat
  deriving DecidableEq, Repr

/-- The section directory. -/
def sections (s : State) (k n : Nat) : List Section :=
  (List.range n).map (fun i =>
    let e := slotBytes s k (256 + 32 * i) 32
    ⟨leAt e 0 2, leAt e 4 4, leAt e 8 4, leAt e 12 4⟩)

/-- The bytes of a section. -/
def sectionBytes (s : State) (k : Nat) (x : Section) : List Byte := slotBytes s k x.off x.len

/-- The index of the first directory entry that a check fails, or the number of entries. -/
def firstBad (l : List Section) (p : Nat → Section → Bool) : Option Nat :=
  (l.zipIdx.find? (fun x => p x.2 x.1)).map Prod.snd

/-- The directory check (R482): the failing entry, where one fails; a wrong count of sections names entry 0. -/
def directoryBad (s : State) (k n signed : Nat) (l : List Section) : Option Nat :=
  let count (t : Nat) : Nat := (l.filter (fun x => x.typ == t)).length
  match firstBad l (fun i x =>
      x.typ == 0 || decide (4 < x.typ) || x.off % 256 != 0 || x.len == 0 || decide (x.off < 256 + 32 * n) ||
      decide (signed < x.off + x.len) || (l.take i).any (fun y => meets x.off x.len y.off y.len) ||
      crc32c (sectionBytes s k x) != x.crc) with
  | some i => some i
  | none => if count 1 ≠ 1 ∨ count 2 ≠ 1 ∨ count 3 = 0 ∨ 4 < count 3 then some 0 else none

/-- The valid RANKING words of a NODE section. -/
def rankings (b : List Byte) : List Nat := (List.range 8).map (fun i => leAt b (8 + 2 * i) 2)

/-- The NODE check (R484). -/
def nodeBad (b : List Byte) : Bool :=
  let r := rankings b
  let ids := (r.filter (fun w => bitOf w 15)).map (fun w => bits w 0 12)
  b.length != 64 || decide (4096 ≤ leAt b 0 2) || leAt b 2 2 != 0 || decide (leAt b 4 4 < 3200) ||
    decide (1600000 < leAt b 4 4) || r.any (fun w => bits w 12 3 != 0) || !bitOf (r.getD 0 0) 15 ||
    ids.eraseDups.length != ids.length || decide (leAt b 24 4 < 10) || decide (1000 < leAt b 24 4) || leAt b 28 4 != 0 ||
    leAt b 48 16 != 0

/-- The entries of a DEFAULTS section: offset, width code, the reserved bytes, value (R485). -/
def defaults (b : List Byte) : List (Nat × Nat × Nat × Nat) :=
  (List.range (b.length / 16)).map (fun i => (leAt b (16 * i) 4, leAt b (16 * i + 4) 1, leAt b (16 * i + 5) 3, leAt b (16 * i + 8) 8))

/-- The bits of a register value that its image fields take. -/
def imageMask (r : Reg) : Nat := ((imageFlds r).map (fun f => (2 ^ f.width - 1) * 2 ^ f.lsb)).sum

/-- Whether one DEFAULTS entry breaks R485. -/
def defaultBad (e : Nat × Nat × Nat × Nat) : Bool :=
  let (o, w, z, v) := e
  match regAt o with
  | none => true
  | some r =>
    r.off != o || z != 0 || decide (1 < w) || r.size != (if w = 0 then 4 else 8) || (w == 0 && decide (2 ^ 32 ≤ v)) ||
      (imageFlds r).isEmpty || clearBits v (imageMask r) != 0

/-- One image value applied to the fields it gives, within the bounds that a write of the field is stored in (DEDUCED, assumption
70); partitions keep ENABLE at 0 (R486). -/
def applyDefault (e : Nat × Nat × Nat × Nat) (s : State) : State :=
  match regAt e.1 with
  | none => s
  | some r => State.each (boundsAt r.off) (fun x => clampFld x.1 x.2.1 x.2.2)
      (State.each ((imageFlds r).filter (fun f => !(List.range 16).any (fun p => memPartCfgEnable p == f)))
        (fun f t => t.set f (bits e.2.2.2 f.lsb f.width)) s)

/-- The partitions that the image enables. -/
def imageParts (l : List (Nat × Nat × Nat × Nat)) : Nat :=
  ((List.range 16).map (fun p =>
    match (l.filter (fun e => e.1 == (memPartCfgEnable p).reg)).getLast? with
    | some e => b2n (bitOf e.2.2.2 0) * 2 ^ p
    | none => 0)).sum

/-- Partitions enabled in ascending order, as far as R177 allows; the result says whether all were (R486). -/
def enableParts (mask : Nat) (s : State) : Bool × State :=
  ((List.range 16).filter (fun p => bitOf mask p)).foldl (fun acc p =>
    if enableCause acc.2 p (acc.2.get (memPartCfgArb p)) = 0 then (acc.1, enablePart p acc.2) else (false, acc.2)) (true, s)

/-- The DEFAULTS check (R485, R177): every entry, every field in every instance, the floors, the partitions. -/
def defaultsBad (b : List Byte) : Bool :=
  let l := defaults b
  let given : Tab Bool := l.foldl (fun t e => Tab.insert t e.1 true) []
  let s := State.each l applyDefault State.reset
  b.length % 16 != 0 || l.any defaultBad || imageRegs.any (fun r => !Tab.get false given r.off) ||
    decide (4096 < ((List.range 512).map (fun c => s.get (strFloorFloor c))).sum) || !(enableParts (imageParts l) s).1

/-- The FIRMWARE check (R487): the index of a section that fails; a core named by none, or by two, fails the last that names
one. -/
def firmwareBad (s : State) (k : Nat) (l : List Section) : Option Nat :=
  let fw := l.zipIdx.filter (fun x => x.1.typ == 3)
  let head (x : Section) : List Byte := slotBytes s k x.off 32
  match fw.find? (fun x =>
      let h := head x.1
      let load := leAt h 4 4
      let n := x.1.len - 32
      decide (x.1.len ≤ 32) || decide (16 ≤ leAt h 0 1) || leAt h 1 3 != 0 || leAt h 16 16 != 0 ||
        decide (0x100000 < load + n) || decide (leAt h 8 4 < load) || decide (load + n ≤ leAt h 8 4) ||
        (fw.filter (fun y => decide (y.2 < x.2))).any (fun y => Nat.land (leAt (head y.1) 0 1) (leAt h 0 1) != 0)) with
  | some x => some x.2
  | none =>
    if (fw.map (fun x => leAt (head x.1) 0 1)).sum = 15 then none else fw.getLast?.map Prod.snd

/-- The first check of R488 that a slot fails, with the directory entry it names: (0, 0) when every check passes that does
not wait for the cores. -/
def slotReason (s : State) (k : Nat) : Nat × Nat :=
  let h := slotHead s k
  let n := leAt h 6 2
  let signed := leAt h 16 4
  let ki := leAt h 23 1
  let body := slotBytes s k 0 signed
  let sig := slotBytes s k signed 128
  let l := sections s k n
  let node := match l.find? (fun x => x.typ == 1) with | some x => slotBytes s k x.off 64 | none => []
  let find (t : Nat) : Section × Nat := (l.zipIdx.find? (fun x => x.1.typ == t)).getD (⟨0, 0, 0, 0⟩, 0)
  if !headOk h || n == 0 || decide (64 < n) || leAt h 24 8 != 0 || leAt h 128 128 != 0 || bits (leAt h 22 1) 1 7 != 0 then (2, 0)
  else if leAt h 20 2 ≠ 1 ∨ !bitOf (leAt h 22 1) 0 then (3, 0)
  else if signed % 256 ≠ 0 ∨ signed < 4096 ∨ 48 * 2 ^ 20 < signed then (4, 0)
  else if 3 < ki ∨ bitOf s.boot.revoked ki ∨ beNat (sha384 (slice h 32 96)) ≠ Tab.get 0 s.boot.keyHash ki then (5, 0)
  else if !ecdsaOk (beNat (slice h 32 48)) (beNat (slice h 80 48)) (beNat (sha384 body)) (beNat (slice sig 0 48))
      (beNat (slice sig 48 48)) then (6, 0)
  else if leAt h 12 4 < s.boot.svn then (7, 0)
  else if leAt node 32 16 ≠ 0 ∧ leAt node 32 16 ≠ s.boot.uid then (8, 0)
  else
    match directoryBad s k n signed l with
    | some i => (9, i)
    | none =>
      if nodeBad (sectionBytes s k (find 1).1) then (10, (find 1).2)
      else if defaultsBad (sectionBytes s k (find 2).1) then (11, (find 2).2)
      else
        match firmwareBad s k l with
        | some i => (12, i)
        | none => (0, 0)

/-- A slot fails: its reason is recorded, everything taken from it dropped; after the second the phase is FAILED (R480,
R489, R490, R610). -/
def slotFails (k reason sec : Nat) (s : State) : State :=
  let s := (s.set (if k = 0 then idBootErrAReason else idBootErrBReason) reason).set idBootErrSection sec
  let s := s.onBoot (fun b => { b with tried := b.tried ++ [k], slot := none, ready := 0, narup := [] })
  if s.boot.tried.length < 2 then s
  else bootTime 7 (raiseAlert idBootEvtFailed 2 (s.set idBootStatPhase 6))

/-- The code of every FIRMWARE section copied into the stores of the cores it names (R487). -/
def loadCores (s : State) (k : Nat) : Tab Byte :=
  let l := (sections s k (leAt (slotHead s k) 6 2)).filter (fun x => x.typ == 3)
  l.foldl (fun t x =>
    let b := sectionBytes s k x
    ((List.range 4).filter (fun c => bitOf (leAt b 0 1) c)).foldl (fun t c =>
      (b.drop 32).zipIdx.foldl (fun t y => Tab.set 0 t (c * 0x100000 + leAt b 4 4 + y.2) y.1) t) t) []

/-- IMAGE_SLOT_VERIFY: the read and the checks of the next slot end; it passes and the cores are released, or its reason
is recorded and the other slot is next. `flashOk` says whether the flash answered (R479 to R489). -/
def execImageSlotVerify (flashOk : Bool) (s : State) : Host.Outcome State Fault Refusal :=
  if s.get idBootStatPhase ≠ 2 ∨ s.boot.slot.isSome then done s
  else
    match nextSlot s with
    | none => done s
    | some k =>
      if !flashOk then done (slotFails k 1 0 s)
      else
        match slotReason s k with
        | (0, _) => done (s.onBoot (fun b => { b with slot := some k, ready := 0, narup := loadCores s k }))
        | (r, i) => done (slotFails k r i s)

/-! ## The end of IMAGE (R484 to R487, R491) -/

/-- The NODE section applied (R484). -/
def applyNode (b : List Byte) (s : State) : State :=
  let id := bits (leAt b 0 2) 0 12
  let r := rankings b
  let rank := ((List.range 8).find? (fun i => r.getD i 0 == id + 32768)).getD 15
  let s := ((((s.set fabNodeIdId id).set fabNodeIdValid 1).set tickPeriodCycles (leAt b 4 4)).set tickRankRank rank)
  s.onBoot (fun x => { x with listen := leAt b 24 4, ranking := r })

/-- What follows from the image values: the floor sum, the budget, the polynomial check, the source's start-up test (R403,
R410, R485, R512). -/
def deriveImage (s : State) : State :=
  let s := s.set gldStatusFloorSum ((List.range 512).map (fun c => s.get (strFloorFloor c))).sum
  let s := s.set fumBudgetWatts (s.get fumBudgetDefaultWatts)
  let s := polyCheck s
  strSync (if s.flag rngCtlSourceEn then sourceTest s else s)

/-- The image values applied and the node ID made valid; PHASE is MEMORY and every enabled port enters DETECT (R486,
R491). -/
def endImage (k : Nat) (s : State) : State :=
  let h := slotHead s k
  let l := sections s k (leAt h 6 2)
  let sec (t : Nat) : List Byte := match l.find? (fun x => x.typ == t) with | some x => sectionBytes s k x | none => []
  let fw := match l.find? (fun x => x.typ == 3 && bitOf (leAt (slotBytes s k x.off 32) 0 1) 0) with
    | some x => leAt (slotBytes s k x.off 32) 12 4
    | none => 0
  let d := defaults (sec 2)
  let s := ((((s.set idBootStatSlot k).set idImageVerVersion (leAt h 8 4)).set idImageSvnImage (leAt h 12 4)).set
    idKeyStatUsed (leAt h 23 1)).set idFwVerVersion fw
  let s := deriveImage (applyNode (sec 1) (State.each d applyDefault s))
  let s := s.onBoot (fun b => { b with parts := imageParts d })
  let s := bootTime 2 (s.set idBootStatPhase 3)
  let s := if s.boot.tried.isEmpty then s
    else
      let s := s.set idBootStatFallback 1
      fault .startup 2 0 (s.get idBootErrAReason + 256 * s.get idBootErrBReason + 65536 * s.get idBootErrSection) 0 none s
  State.each ((List.range 16).filter (fun p => s.flag (elvCfgEnable p))) toDetect s

/-- CORE_READY: a Narup core reports ready; with all four the slot has passed every check (R487, R491, R94). -/
def execCoreReady (core : Fin 4) (s : State) : Host.Outcome State Fault Refusal :=
  match s.boot.slot with
  | none => done s
  | some k =>
    if s.get idBootStatPhase ≠ 2 then done s
    else
      let s := s.onBoot (fun b => { b with ready := Nat.lor b.ready (2 ^ core.val) })
      if s.boot.ready = 15 then done (endImage k s) else done s

/-- CORE_READY_TIMEOUT: a core has not reported ready within 20 ms of its release; the slot fails with FIRMWARE (R487,
R488). -/
def execCoreReadyTimeout (core : Fin 4) (s : State) : Host.Outcome State Fault Refusal :=
  match s.boot.slot with
  | none => done s
  | some k =>
    if s.get idBootStatPhase ≠ 2 ∨ bitOf s.boot.ready core.val then done s
    else
      let l := sections s k (leAt (slotHead s k) 6 2)
      let i := ((l.zipIdx.find? (fun x => x.1.typ == 3 && bitOf (leAt (slotBytes s k x.1.off 32) 0 1) core.val)).map Prod.snd).getD 0
      done (slotFails k 12 i s)

/-! ## MEMORY (R208, R216 to R218, R227 to R230, R492, R535, R549) -/

/-- A log entry as a remap. -/
def remapOf (e : List Byte) : Remap :=
  let hbm := leAt e 3 1 == 1
  let u := leAt e 12 1
  { chan := if hbm then u * 32 + leAt e 13 1 else 256 + u
    unit := if hbm then leAt e 14 1 * 65536 + leAt e 16 4 else leAt e 16 4
    count := leAt e 20 2, cause := leAt e 22 1, kind := leAt e 3 1, spare := leAt e 15 1, tick := leAt e 4 8 }

/-- A spare taken out of its pool. -/
def takeSpare (r : Remap) (s : State) : State :=
  { s with care := { s.care with
    spares := Tab.set [] s.care.spares r.chan ((subarray r.chan r.unit, r.spare) :: Tab.get [] s.care.spares r.chan) } }

/-- The STATE byte of a log entry programmed (R226). -/
def logState (half i v : Nat) (s : State) : State :=
  flashProgram (logBase + half * logHalf + 32 * i + 2) [BitVec.ofNat 8 v] s

/-- Hard repairs already made at this start, by stack, or 8 + deep channel. -/
abbrev Repairs := Tab Nat

/-- One entry of the log handled at a start: a SOFT entry is repaired for good while its unit has repairs left, FAILED and
waiting entries are applied as soft remaps, HARD rows keep their spare consumed (R229, R230). -/
def logHandle (half : Nat) (fails : List Nat) (acc : Repairs × State) (x : List Byte × Nat) : Repairs × State :=
  let (e, i) := x
  let (n, s) := acc
  let st := leAt e 2 1
  let kind := leAt e 3 1
  let r := remapOf e
  let unit := chanUnit r.chan
  let soft (s : State) : State := remapRecord r (takeSpare r s)
  if kind ≠ 1 ∧ kind ≠ 2 then (n, s)
  else if st = 0xFC then (n, if kind = 1 then takeSpare r s else s)
  else if st = 0xF8 then (n, soft s)
  else if st ≠ 0xFE then (n, s)
  else if (if kind = 1 then 4 else 2) ≤ Tab.get 0 n unit then (n, soft s)
  else
    let n := Tab.set 0 n unit (Tab.get 0 n unit + 1)
    if fails.contains (leAt e 24 4) then
      (n, fault .memory 4 unit (unitAddr s r.chan r.unit) 0 none (soft (logState half i 0xF8 s)))
    else (n, (fun t => if kind = 1 then takeSpare r t else t) (logState half i 0xFC s))

/-- The remap tables cleared and built again from the active half of the log; `fails` are the SEQ numbers whose hard repair
fails (R229, R245). -/
def rebuildRemaps (fails : List Nat) (s : State) : State :=
  let h := logActive s
  let es := ((List.range 16384).map (fun i => (logEntry s h i, i))).filter (fun x => logValid x.1)
  let isRemap (k : Nat) : Bool :=
    let o := k / 8
    (decide (0xa00000 ≤ o) && decide (o < 0xa80000) && decide (0x1000 ≤ o % 0x10000) && decide (o % 0x10000 < 0x2000)) ||
      (decide (0xb01000 ≤ o) && decide (o < 0xb05000))
  let s := { s with regs := s.regs.filter (fun p => !isRemap p.1) }
  let s := State.each (List.range 8) (fun st t => t.set (hbmStatusRemaps st) 0) (s.set dtcStatusRemaps 0)
  let next := es.foldl (fun m x => max m (leAt x.1 24 4 + 1)) 0
  let s := { s with care := { s.care with spares := [], logSeq := next } }
  (es.foldl (logHandle h fails) (([] : Repairs), s)).2

/-- Whether the log, or what waits for it, holds a repair of a lane of a pseudo-channel (R217). -/
def laneLogged (s : State) (c lane : Nat) : Bool :=
  s.care.unlogged.any (fun r => r.kind == 3 && r.chan == c && r.unit == lane * 65536) ||
    (List.range 16384).any (fun i =>
      let e := logEntry s (logActive s) i
      logValid e && e.getD 3 0 == 3 && leAt e 12 1 == c / 32 && leAt e 13 1 == c % 32 && leAt e 14 1 == lane)

/-- The failing lanes of a pseudo-channel in the order in which training tests them: the suspect lane first (R219). -/
def laneOrder (s : State) (c : Nat) (l : List Nat) : List Nat :=
  let x := Tab.get 0 s.care.suspect c
  l.filter (fun i => i + 1 == x) ++ l.filter (fun i => i + 1 != x)

/-- Training of a pseudo-channel with failing lanes: a spare for each, up to 2, each new repair logged with KIND LANE; with more
than 2 the pseudo-channel is failed, as `trainingFails` marks it (R216, R217). -/
def laneRepair (c : Nat) (l : List Nat) (s : State) : State :=
  State.each ((laneOrder s c l).zipIdx.take 2) (fun x t =>
    let known := laneLogged t c x.1
    let t := t.set (if x.2 = 0 then hbmPcLaneSpare0 (c / 32) (c % 32) else hbmPcLaneSpare1 (c / 32) (c % 32)) x.1
    if known then t
    else { t with care := { t.care with unlogged := t.care.unlogged ++ [⟨c, x.1 * 65536, 0, 4, 3, x.2, lockTick t⟩] } }) s

/-- The failing lanes that training found in a pseudo-channel. -/
def lanesOf (lanes : List (Nat × Nat)) (c : Nat) : List Nat := ((lanes.filter (fun x => x.1 == c)).map Prod.snd).eraseDups

/-- Channels that failed training marked and reported (R217, R218, R492); a stack critical at the start of the phase counts
as one that failed (R535). -/
def trainingFails (pcs : List (Fin 8 × BitVec 32)) (chs : Nat) (lanes : List (Nat × Nat)) (s : State) : State :=
  let s := State.each (List.range 8) (fun st t =>
    let bad := ((List.range 32).map (fun p => b2n (decide (2 < (lanesOf lanes (st * 32 + p)).length)) * 2 ^ p)).sum
    let m := if t.get (hbmTempClass st) = 3 then 2 ^ 32 - 1
      else (pcs.filter (fun x => x.1.val == st)).foldl (fun a x => Nat.lor a x.2.toNat) bad
    let t := (t.set (hbmFailedPcMask st) m).set (hbmStatusTrained st) (b2n (m != 2 ^ 32 - 1))
    if m = 0 then t
    else
      let c := st * 32 + (lowestBit 32 m).getD 0
      fault .memory 5 st (addrHbm t c 0 0 0) 5 none (t.set idBootStatMemDegraded 1)) s
  State.each (List.range 32) (fun c t =>
    if bitOf chs c then fault .memory 5 (8 + c) (addrDeep t c 0) 5 none (t.set idBootStatMemDegraded 1) else t)
    ((s.set dtcFailedChMask chs).set dtcStatusTrained (b2n (chs != 2 ^ 32 - 1)))

/-- MEMORY_READY: both tiers are trained: failing lanes (channel, lane) and failed channels as training found them, hard repairs and the remap
tables from the log, zeroing begun after power-on, the image's partitions enabled, READY set (R208, R216 to R218, R229,
R230, R486, R492, R508, R535, R548, R549). -/
def execMemoryReady (failedPc : List (Fin 8 × BitVec 32)) (failedCh : BitVec 32) (lanes : List (Nat × Nat))
    (repairFails : List Nat) (s : State) : Host.Outcome State Fault Refusal :=
  if s.get idBootStatPhase ≠ 3 ∨ s.flag memStatusReady then done s
  else
    let s := State.each (lanes.map Prod.fst).eraseDups (fun c => laneRepair c (lanesOf lanes c)) (rebuildRemaps repairFails s)
    let s := trainingFails failedPc failedCh.toNat lanes s
    let s := if s.flag rstStatusZeroed ∨ ¬ s.mem.zeroing.isEmpty then s
      else { s with mem := { s.mem with zeroing := (List.range 288).map (fun c => (c, true)) } }
    let s := (enableParts s.boot.parts s).2
    done (bootTime 4 ((s.set memStatusReady 1).set idBootStatPhase 4))

/-- CHANNEL_ZEROED: a channel's zeroing completes and its held accesses go on; ZEROED sets with the last (R549). -/
def execChannelZeroed (chan : Fin 288) (s : State) : Host.Outcome State Fault Refusal :=
  if !Tab.get false s.mem.zeroing chan.val then done s
  else
    let s := { s with mem := { s.mem with zeroing := Tab.set false s.mem.zeroing chan.val false } }
    done (if s.mem.zeroing.isEmpty then s.set rstStatusZeroed 1 else s)

/-! ## TICK and READY (R493 to R497) -/

/-- The ports that are UP and beacon-eligible. -/
def eligiblePorts (s : State) : Nat :=
  ((List.range 16).map (fun p => b2n (portLive s p && !s.flag (elvStatBcnIneligible p)) * 2 ^ p)).sum

/-- DOMAIN_START: a ranked node that has heard no beacon for its listen time starts a domain as timekeeper with epoch 0 and
TICK_COUNT 0, on its own oscillator, and launches beacons on every eligible port (R466, R495). -/
def execDomainStart (s : State) : Host.Outcome State Fault Refusal :=
  if s.get tickRankRank > 7 ∨ s.tick.heard ∨ s.get tickStatusLock ≠ 0 ∨ !s.flag fabNodeIdValid ∨
      s.get idBootStatPhase < 3 ∨ 4 < s.get idBootStatPhase then done s
  else
    let s := becomeTk 0 ((s.set tickCountCount 0).onTick (fun t => { t with running := true, edge := s.now, ext := 0 }))
    let s := bootTime 5 (clockTo 0 0 (s.set idBootStatStartedDomain 1))
    done (sendCtrlMask (eligiblePorts s) 1 (beaconBytes s 0 0) s)

/-- The record of dirty lines lost in a forced reset: which stack and which address it names the spec leaves open (R559,
R560). -/
def forcedFault (s : State) : State :=
  let (u, s) := s.takeFree
  let (a, s) := s.takeFree
  fault .memory 7 (u % 65536) (a % 2 ^ 64) 0 none s

/-- The buffered records of this start copied into the ring, oldest first (R574). -/
def copyRing (s : State) : State :=
  let n := min s.flt.fresh 16
  State.each ((List.range n).map (fun i => (s.get telFaultSeqSeq + 2 ^ 32 - (n - 1 - i)) % 16)) (fun k t =>
    ringWrite ((List.range 32).map (fun i => Tab.get 0 t.flt.buf (32 * k + i))) t) s

/-- READY_FOR_PLAN: with memory ready, the tick LOCKED and every core ready, the window closes, JOIN becomes ANNOUNCING and
the node announces itself; the fault records of this start are copied to the ring, and a forced reset is reported now
(R493, R118, R500, R560, R574). -/
def execReadyForPlan (s : State) : Host.Outcome State Fault Refusal :=
  if s.get idBootStatPhase ≠ 4 ∨ !s.flag memStatusReady ∨ s.get tickStatusLock ≠ 2 ∨ s.boot.ready ≠ 15 then done s
  else
    let s := bootTime 6 (((s.set idBootStatPhase 5).set idBootStatWindow 0).set fabStatusJoin 1)
    let s := raise idBootEvtWindowClosed (copyRing s)
    let s := if s.rst.report then forcedFault { s with rst := { s.rst with report := false } } else s
    done (announceAll s)

/-- BOOT_LATE: 4 s from die reset release have passed without ready-for-plan (R497, R610). -/
def execBootLate (s : State) : Host.Outcome State Fault Refusal :=
  if s.get idBootStatPhase = 5 ∨ s.get idBootStatPhase = 0 ∨ s.flag idBootStatLate then done s
  else
    let i := s.get idBootErrAReason + 256 * s.get idBootErrBReason + 65536 * s.get idBootErrSection
    done (fault .startup 1 0 i 0 none (alert 3 (s.set idBootStatLate 1)))

end Sys2Proof.Machine
end

