-- ==== Sys2Proof/Machine/Claims.lean ====
section
/-! DEFINITION. The commands of the claim register and the coalescing table (R563, R566, R572). -/

namespace Sys2Proof.Machine

/-- CLAIM_ACK: a write of TEL_CLAIM_ACK returns a RECOVERED or DOWN claim of the same ID to NONE; any other sets
ACK_REFUSED (R566, R579). -/
def execClaimAck (port : Fin 16) (id : BitVec 16) (s : State) : Host.Outcome State Fault Refusal :=
  let p := port.val
  if id.toNat = s.get (telClaimId p) ∧ 2 ≤ s.get (telClaimState p) then done (s.set (telClaimState p) 0)
  else done (raise telFaultEvtAckRefused s)

/-- COALESCE_EXPIRY: the entry of the coalescing table that expires first ends; with a count it writes one record (R572). -/
def execCoalesceExpiry (s : State) : Host.Outcome State Fault Refusal :=
  match firstExpiring s.flt.coal with
  | some c => done (coalEnd c (s.reach c.expire))
  | none => done s

end Sys2Proof.Machine
end

