-- ==== Sys2Proof/Machine/Plan.lean ====
section
/-! DEFINITION. The plan banks: writing them, the check of a plan (R29, R49, R569), arming and disarming a switchover (R33,
R36). -/

namespace Sys2Proof.Machine

/-- The standby plan bank. -/
def standbyBank (s : State) : Nat := 1 - activeBank s

/-- The hold reach in ps: ACC_DELAY + 24 ns × HOPS + 20 ns of the last accepted beacon (R40). -/
def holdReach (s : State) : Nat := s.tick.accDelay + 24000 * s.tick.hops + 20000

/-- Slots of a bank as its header names them, cut to what the window holds. -/
def bankSlots (s : State) (b : Nat) : Nat := min (planAt s b 6 2) 2046

/-- The CRC of a plan: header with the CRC field as 0, then all slots (R27). -/
def planCrc (s : State) (b : Nat) : Nat :=
  crc32c ((planBytes s b 0 20) ++ [0, 0, 0, 0] ++ planBytes s b 24 (40 + 32 * bankSlots s b))

/-- Two half-open ranges meet. -/
def rangesMeet (a n b m : Nat) : Bool := decide (a < b + m) && decide (b < a + n) && n != 0 && m != 0

/-- Whether two slots of one class and unit overlap in ticks and in time. -/
def slotsOverlap (x y : Slot) : Bool :=
  x.cls == y.cls && x.unit == y.unit && rangesMeet x.first x.count y.first y.count &&
    rangesMeet x.start x.duration y.start y.duration

/-- The worst-case replay time of a collective slot, in ns (R569). -/
def replayWorst (s : State) (x : Slot) : Nat :=
  let all := (List.range 16).map (fun n => s.get (elvReplayWcNs n))
  let biggest (l : List Nat) : Nat := l.foldl max 0
  let bad (a n : Nat) : Bool := !servedRange s a n || nodePoisonRange s a n
  let d := descOf (nodeBytes s x.desc 64)
  if bad x.desc 64 ∨ nodeNat s x.desc 4 ≠ 0x43444553 ∨ d.segments = 0 ∨ 4096 < d.segments ∨ bad d.seg (16 * d.segments) then
    biggest all
  else
    let m := (segsOf (nodeBytes s d.seg (16 * d.segments))).foldl (fun m g => Nat.lor m (Nat.lor g.inPorts g.outMask)) 0
    biggest ((portsOf m).map (fun n => s.get (elvReplayWcNs n)))

/-- Whether a slot fails SLACK: its margin in ns is less than its worst-case replay time. -/
def slackFails (s : State) (x : Slot) : Bool :=
  let pct := if x.margin = 255 then s.get tickMarginDefaultPct else x.margin
  x.cls == 0 && decide (x.duration * pct * 625 < replayWorst s x * 100000)

/-- Whether a slot breaks CLASS: a reserved class, a lane above 15, or a reserved field that is not 0. -/
def slotReserved (s : State) (b i : Nat) : Bool :=
  let o := 64 + 32 * i
  let x := slotAt s b i
  decide (6 ≤ x.cls) || (x.cls == 0 && decide (15 < x.unit)) || bits (planAt s b (o + 4) 4) 21 11 != 0 ||
    bits (planAt s b (o + 12) 4) 11 5 != 0 || bits (planAt s b (o + 24) 4) 8 24 != 0 || planAt s b (o + 28) 4 != 0

/-- Whether the header of a plan has a reserved field that is not 0. -/
def headReserved (s : State) (b : Nat) : Bool :=
  bits (planAt s b 12 4) 21 11 != 0 || planAt s b 18 2 != 0 || planAt s b 24 40 != 0

/-- The first failing check of R29 on a bank: its code and, for FIT to SLACK, the slot; code 0 when all pass. No code names a
cycle length of 0: no slot fits it, so it fails as CYCLE; nor a slot of 0 ticks, which fails as CYCLE too (DESIGN CHOICE,
assumption 66). -/
def planReason (s : State) (b : Nat) : Nat × Nat :=
  let n := planAt s b 6 2
  let per := bits (planAt s b 12 4) 0 21
  let cyc := planAt s b 16 2
  let idx := List.range n
  let sl (i : Nat) : Slot := slotAt s b i
  if planAt s b 0 4 ≠ 0x504C414E ∨ planAt s b 4 2 ≠ 1 ∨ planAt s b 20 4 ≠ planCrc s b then (1, 0)
  else if n = 0 ∨ 1024 < n then (2, 0)
  else if per < 3200 ∨ 1600000 < per then (3, 0)
  else match idx.find? (fun i => decide (per < (sl i).start + (sl i).duration)) with
  | some i => (4, i)
  | none => match idx.find? (fun i => (sl i).count == 0 || decide (cyc < (sl i).first + (sl i).count)) with
  | some i => (5, i)
  | none => match idx.find? (fun i => idx.any (fun j => j != i && slotsOverlap (sl i) (sl j))) with
  | some i => (6, i)
  | none => match idx.find? (fun i => match (sl i).dep with
      | some d => decide (n ≤ d) || d == i || (depChainFrom s b n i).contains i
      | none => false) with
  | some i => (7, i)
  | none => match idx.find? (fun i => decide (50 < (sl i).margin) && (sl i).margin != 255) with
  | some i => (8, i)
  | none => match idx.find? (fun i => slackFails s (sl i)) with
  | some i => (9, i)
  | none =>
    if per * 625 * 15 < (holdReach s + 140000) * 100 then (10, 0)
    else if headReserved s b ∨ idx.any (slotReserved s b) then (11, 0)
    else (0, 0)

/-- The check of the plan in the standby bank (R29): an accepted plan is held with its PLAN_ID, a rejected one is not. -/
def planCheck (s : State) : State :=
  let b := standbyBank s
  let (r, i) := planReason s b
  let s := (s.set tickPlanStatusReason r).set tickPlanStatusSlot i
  let s := s.onTick (fun t => { t with ok := Tab.set false t.ok b (decide (r = 0)) })
  s.set (tickPlanIdId b) (if r = 0 then planAt s b 8 4 else 0)

/-- Bytes written at an offset of a plan bank window (R29, R30, R49): dropped and counted on the active bank, rejected
with ARMED on an armed one, else stored; the last word of the plan starts the check. -/
def planWrite (b o : Nat) (bs : List Byte) (s : State) : State :=
  if b = activeBank s then s.bump tickDropWrites 1
  else if s.flag tickSwitchCtlArmed then s.set tickPlanStatusReason 12
  else
    let s := s.onTick (fun t => { t with
      banks := bs.zipIdx.foldl (fun m x => if o + x.2 < 65536 then Tab.set 0 m (b * 65536 + o + x.2) x.1 else m) t.banks
      ok := Tab.set false t.ok b false })
    let last := 60 + 32 * bankSlots s b
    if o ≤ last ∧ last < o + bs.length then planCheck s else s

/-- PLAN_BANK_WRITE: a write into a plan bank window (R29, R30). -/
def execPlanBankWrite (bank : Fin 2) (off : Nat) (data : List Byte) (s : State) : Host.Outcome State Fault Refusal :=
  done (planWrite bank off data s)

/-- A switch disarmed; a committed one stays (R34, R36). -/
def disarm (s : State) : State := if s.flag tickSwitchCtlCommitted then s else s.set tickSwitchCtlArmed 0

/-- Whether an arming write is accepted (R33, R522). -/
def armOk (force : Bool) (s : State) : Bool :=
  let b := standbyBank s
  let n := s.get tickSwitchAtAt
  let c := s.get tickCountCount
  Tab.get false s.tick.ok b && s.get (tickPlanIdId b) == s.get tickSwitchPlanId && decide (c + 3 ≤ n) &&
    (force || s.flag tickStatusBankEmpty || (n - c + s.tick.pos) % planCycle s == 0) &&
    (!s.flag fumStatusOut || s.fum.rejoin)

/-- ARM: an arming write of TICK_SWITCH_CTL arms the switch, or is refused with REFUSED set (R33, R522). A refused write
leaves the switch disarmed, but for a committed one, which stands (R34, DESIGN CHOICE, assumption 66). -/
def execArm (force : Bool) (s : State) : Host.Outcome State Fault Refusal :=
  let s := s.set tickSwitchCtlForce (b2n force)
  if armOk force s then done (s.set tickSwitchCtlArmed 1) else done (raise tickSwitchCtlRefused (disarm s))

/-- DISARM: disarms the switch until the node is committed (R36). -/
def execDisarm (s : State) : Host.Outcome State Fault Refusal := done (disarm s)

end Sys2Proof.Machine
end

