-- ==== Sys2Proof/Machine/HostCore.lean ====
section
/-! DEFINITION. The host queues (R589 to R593): what each holds, the fetch of entries and of host data, the order in which
commands start, and completions. -/

namespace Sys2Proof.Machine

/-- A queue with nothing in it. -/
def qEmpty : HQueue := ⟨true, [], [], none, 0, 0, 0, [], 0, none⟩

def State.queue (s : State) (q : Nat) : HQueue := Tab.get qEmpty s.host.queues q

/-- The host state changed. -/
def State.onHost (f : HostState → HostState) (s : State) : State := { s with host := f s.host }

/-- One queue changed. -/
def State.onQueue (q : Nat) (f : HQueue → HQueue) (s : State) : State :=
  s.onHost (fun h => { h with queues := Tab.upd qEmpty h.queues q f })

/-- Entries of a queue. -/
def qEntries (s : State) (q : Nat) : Nat := 2 ^ s.get (hstQCfgEntries q)

/-- Whether the node may read and write host memory: the link is up, and neither D3hot, P2 nor a finished DETACH forbids it
(R586, R606; that the host has set Bus Master Enable is left to the host). -/
def hostReach (s : State) : Bool :=
  s.flag hstStatusUp && !s.host.d3 && !s.host.quiet && s.get fumStatusState != 3

/-! ## Commands (R590, R594 to R596) -/

def cmdOp (c : List Byte) : Nat := leAt c 0 1
def cmdQuiet (c : List Byte) : Bool := bitOf (leAt c 1 1) 0
def cmdCid (c : List Byte) : Nat := leAt c 2 2
def cmdLen (c : List Byte) : Nat := leAt c 4 4
def cmdHost (c : List Byte) : Nat := leAt c 8 8
def cmdLocal (c : List Byte) : Nat := leAt c 16 8
def cmdArg0 (c : List Byte) : Nat := leAt c 24 8
def cmdArg1 (c : List Byte) : Nat := leAt c 32 8

/-- Whether a command is one of those that run one at a time across all queues (R592). -/
def isSerial (c : List Byte) : Bool := c.length == 64 && [1, 2, 6, 7, 8].contains (cmdOp c)

/-- The DETAIL of BAD that a command earns by its form: 1 reserved OP or field, 2 LEN, 3 alignment, 4 engine mask empty; 0 for
none. -/
def cmdBad (c : List Byte) : Nat :=
  let n := cmdLen c
  if 0x0B < cmdOp c ∨ bits (leAt c 1 1) 1 7 ≠ 0 ∨ leAt c 40 24 ≠ 0 then 1
  else
    match cmdOp c with
    | 1 => if n < 64 ∨ (n - 64) % 32 ≠ 0 ∨ 65536 < n then 2 else 0
    | 2 => if n ≠ 8320 then 2 else 0
    | 3 => if n = 0 ∨ n % 4 ≠ 0 ∨ 4096 < n ∨ 1024 < bits (cmdArg1 c) 0 10 + n / 4 then 2 else if cmdArg0 c = 0 then 4 else 0
    | 4 | 5 =>
      if n % 64 ≠ 0 ∨ n < 64 ∨ 2 ^ 24 < n then 2
      else if cmdHost c % 64 ≠ 0 ∨ cmdLocal c % 64 ≠ 0 then 3 else 0
    | 9 => if bits (cmdArg0 c) 0 2 < 2 ∧ cmdArg1 c = 0 then 4 else 0
    | 10 | 11 => if n ≠ 4 ∧ n ≠ 8 then 2 else if cmdLocal c % n ≠ 0 then 3 else 0
    | _ => 0

/-- Host bytes that a command reads before it runs. -/
def cmdReads (c : List Byte) : Nat :=
  if cmdBad c = 0 ∧ 1 ≤ cmdOp c ∧ cmdOp c ≤ 4 then cmdLen c else 0

/-! ## Reads of host memory -/

/-- A free tag of a queue: each queue has 64 of the 1,024. -/
def freeTag (s : State) (q : Nat) : Option Nat :=
  (List.range 64).findSome? (fun k => if s.host.reads.any (fun r => r.1 == 64 * q + k) then none else some (64 * q + k))

/-- One read issued. -/
def hostRead (q tag purpose off addr n : Nat) (s : State) : State :=
  (s.onHost (fun h => { h with reads := h.reads ++ [(tag, q, purpose, off, n)] })).emit (.hostRead addr n tag)

/-- Entries fetched from SQ_HEAD up to the tail; SQ_HEAD advances as they are (R591). -/
def fetchEntries (q : Nat) : Nat → State → State
  | 0, s => s
  | k + 1, s =>
    let h := s.get (hstQSqHeadIndex q)
    if !s.flag (hstQCfgEnable q) || !hostReach s || h == s.get (hstQSqTailIndex q) then s
    else
      match freeTag s q with
      | none => s
      | some t =>
        let s := hostRead q t 0 h (s.get (hstQSqBaseAddr q) + 64 * h) 64 s
        let s := (s.onQueue q (fun x => { x with order := x.order ++ [h] })).onHost (fun x => { x with serial := x.serial ++ [(q, h)] })
        fetchEntries q k (s.set (hstQSqHeadIndex q) ((h + 1) % qEntries s q))

/-- Reads issued for the host data of the running command, up to 4,096 bytes each and within the tags. -/
def fetchData (q : Nat) : Nat → State → State
  | 0, s => s
  | k + 1, s =>
    let x := s.queue q
    match x.running, freeTag s q with
    | some c, some t =>
      let n := min (cmdReads c - x.asked) (4096 - (cmdHost c + x.asked) % 4096)
      if n = 0 ∨ x.err ≠ 0 ∨ !hostReach s then s
      else
        fetchData q k ((hostRead q t 1 x.asked (cmdHost c + x.asked) n s).onQueue q (fun x => { x with asked := x.asked + n }))
    | _, _ => s

/-! ## Completions (R593, R598) -/

/-- A completion written to the CQ, or held while the CQ is full or the host cannot be reached. -/
def deliver (q : Nat) (bs : List Byte) (quiet : Bool) (s : State) : State :=
  let t := s.get (hstQCqTailIndex q)
  let n := qEntries s q
  if s.host.quiet then s
  else if (t + 1) % n = s.get (hstQCqHeadIndex q) ∨ !hostReach s then s.onQueue q (fun x => { x with held := some (bs, quiet) })
  else
    let ph := b2n (s.queue q).phase
    let bs := bs.take 6 ++ leBytes 1 ph ++ bs.drop 7
    let s := (s.emit (.hostWrite (s.get (hstQCqBaseAddr q) + 16 * t) bs false)).set (hstQCqTailIndex q) ((t + 1) % n)
    let s := if t + 1 = n then s.onQueue q (fun x => { x with phase := !x.phase }) else s
    if quiet then s else sendVector (16 + q) s

/-- The running command of a queue ends with a completion. -/
def finish (q status detail value : Nat) (s : State) : State :=
  match (s.queue q).running with
  | none => s
  | some c =>
    let bs := leBytes 2 (cmdCid c) ++ leBytes 2 (s.get (hstQSqHeadIndex q)) ++ leBytes 1 status ++ leBytes 1 detail ++ [0] ++
      leBytes 1 q ++ leBytes 8 value
    let s := s.onQueue q (fun x => { x with running := none, step := 0, asked := 0, need := 0, got := [], err := 0 })
    let s := s.onHost (fun h => { h with
      serial := if isSerial c then h.serial.eraseP (fun k => k.1 == q) else h.serial
      reads := h.reads.filter (fun r => !(r.2.1 == q && r.2.2.1 == 1)) })
    deliver q bs (cmdQuiet c) s

/-- The next command of a queue starts when the one before it has completed and, for the serial commands, when it is the first
of them in the order of fetch (R592); an entry that could not be read, or whose OP is reserved, completes at once. -/
def startNext (q : Nat) : Nat → State → State
  | 0, s => s
  | k + 1, s =>
    let x := s.queue q
    match x.order with
    | [] => s
    | h :: rest =>
      let c := Tab.get [] x.cmds h
      if x.running.isSome ∨ x.held.isSome ∨ c = [] ∨ (isSerial c ∧ s.host.serial.head? ≠ some (q, h)) then s
      else
        let take (c : List Byte) (s : State) : State := s.onQueue q (fun x => { x with
          order := rest, cmds := Tab.set [] x.cmds h [], running := some c, step := 0, asked := 0, need := cmdReads c, got := [],
          err := 0 })
        if c.length ≠ 64 then
          -- An entry that could not be read: its CID and VALUE are unknown, free values.
          let (v, s) := s.takeFree
          let (w, s) := s.takeFree
          startNext q k (finish q 3 (leAt c 0 1) w (take ([0, 0] ++ leBytes 2 v ++ leBytes 60 0) s))
        else if 0x0B < cmdOp c then
          let (w, s) := s.takeFree
          startNext q k (finish q 2 1 w (take c s))
        else fetchData q 64 (take c s)

/-- Every queue moves on as far as it can. -/
def pumpQueues (s : State) : State :=
  State.each (List.range 16) (fun q t => startNext q 4097 (fetchEntries q 64 t)) s

/-- A command ends with a completion, and the queues move on. -/
def complete (q status detail value : Nat) (s : State) : State := pumpQueues (finish q status detail value s)

/-- The bus error codes of HOST_ERR: 1 Unsupported Request, 2 Completer Abort, 3 poisoned completion, 4 timeout. A read that
fails ends its command, or fails the fetch of its entry (R596). -/
def readFails (r : Nat × Nat × Nat × Nat × Nat) (code : Nat) (s : State) : State :=
  let q := r.2.1
  if r.2.2.1 = 0 then
    pumpQueues ((s.onQueue q (fun x => { x with cmds := Tab.set [] x.cmds r.2.2.2.1 [BitVec.ofNat 8 code] })).onHost (fun h =>
      { h with serial := h.serial.erase (q, r.2.2.2.1) }))
  else s.onQueue q (fun x => { x with err := code })

/-- Bytes of a read that has arrived. -/
def readArrives (r : Nat × Nat × Nat × Nat × Nat) (data : List Byte) (s : State) : State :=
  let q := r.2.1
  let o := r.2.2.2.1
  let bs := slice data 0 r.2.2.2.2
  if r.2.2.1 = 0 then
    let s := s.onQueue q (fun x => { x with cmds := Tab.set [] x.cmds o bs })
    let s := s.onHost (fun h => { h with serial := if isSerial bs then h.serial else h.serial.erase (q, o) })
    pumpQueues s
  else
    fetchData q 64 (s.onQueue q (fun x => { x with got := Tab.set [] x.got o bs, need := x.need - bs.length }))

/-- The pieces of host data received, joined. -/
def gotBytes (x : HQueue) : List Byte := x.got.flatMap (fun p => p.2)

/-- The queues of a host link that is gone: fetching stops, every ENABLE clears, the outstanding reads are abandoned and the
commands end without a completion (R603). -/
def queuesLost (s : State) : State :=
  let s := State.each (List.range 16) (fun q t => t.set (hstQCfgEnable q) 0) s
  s.onHost (fun h => { h with queues := [], reads := [], serial := [] })

end Sys2Proof.Machine
end

