-- ==== Sys2Proof/Machine/Matrix.lean ====
section
/-! DEFINITION. The matrix array (R343 to R362): the job descriptor and its check, one tile pass per MATRIX_PASS in the
order of R351, the summation of R346, and the three sources of jobs. -/

namespace Sys2Proof.Machine

/-! ## The job descriptor (R344, R348, R349) -/

def mxaA (d : List Byte) : Nat := leAt d 4 1
def mxaB (d : List Byte) : Nat := leAt d 5 1
def mxaOut (d : List Byte) : Nat := leAt d 6 1
def mxaAcc (d : List Byte) : Bool := bitOf (leAt d 7 1) 0
def mxaTransB (d : List Byte) : Bool := bitOf (leAt d 7 1) 1
def mxaTransOut (d : List Byte) : Bool := bitOf (leAt d 7 1) 2
def mxaHint (d : List Byte) (i : Nat) : Nat := bits (leAt d 8 1) (2 * i) 2
def mxaUses (d : List Byte) : Nat := leAt d 9 1
def mxaBatch (d : List Byte) : Nat := leAt d 10 2
def mxaM (d : List Byte) : Nat := bits (leAt d 12 4) 0 24
def mxaK (d : List Byte) : Nat := bits (leAt d 16 4) 0 21
def mxaN (d : List Byte) : Nat := bits (leAt d 20 4) 0 21

/-- Bytes of an element, by format code, and of an output element. -/
def mxaSize (f : Nat) : Nat := if f = 2 ∨ f = 3 then 1 else if f = 4 ∨ f = 5 then 4 else 2
def mxaOutSize (f : Nat) : Nat := if f = 0 then 4 else 2

/-- Class of a format: 0 16-bit, 1 8-bit, 2 split. -/
def mxaClass (f : Nat) : Nat := if f = 2 ∨ f = 3 then 1 else if f = 4 then 2 else 0

/-- Kt, the cells in k, and passes per weight tile. -/
def mxaKt (d : List Byte) : Nat := if mxaClass (mxaA d) = 1 then 1024 else 512
def mxaPasses (d : List Byte) : Nat := if mxaA d = 4 ∨ mxaB d = 4 then 3 else 1

def tiles (n t : Nat) : Nat := (n + t - 1) / t
def mxaKTiles (d : List Byte) : Nat := tiles (mxaK d) (mxaKt d)
def mxaNTiles (d : List Byte) : Nat := tiles (mxaN d) 512
def mxaMTiles (d : List Byte) : Nat := tiles (mxaM d) 2048

/-- Passes of the whole job (R351). -/
def mxaTotal (d : List Byte) : Nat := mxaBatch d * mxaMTiles d * mxaNTiles d * mxaKTiles d * mxaPasses d

/-- Addresses of elements of batch item `t` (R349). -/
def addrA (d : List Byte) (t m k : Nat) : Nat := leAt d 24 8 + t * leAt d 64 8 + m * leAt d 48 4 + k * mxaSize (mxaA d)
def addrB (d : List Byte) (t k n : Nat) : Nat :=
  leAt d 32 8 + t * leAt d 72 8 +
    (if mxaTransB d then n * leAt d 52 4 + k * mxaSize (mxaB d) else k * leAt d 52 4 + n * mxaSize (mxaB d))
def addrC (d : List Byte) (t m n : Nat) : Nat :=
  leAt d 40 8 + t * leAt d 80 8 +
    (if mxaTransOut d then n * leAt d 56 4 + m * mxaOutSize (mxaOut d) else m * leAt d 56 4 + n * mxaOutSize (mxaOut d))

/-- The first failing check of R350, 0 for none. -/
def mxaReason (s : State) (d : List Byte) (bad : Bool) : Nat :=
  let f := mxaA d
  let g := mxaB d
  let sc := leAt d 60 4
  let t := mxaBatch d - 1
  let m := mxaM d - 1
  let k := mxaK d - 1
  let n := mxaN d - 1
  let no (a z : Nat) : Bool := refusal s a != 0 || refusal s z != 0
  if bad ∨ leAt d 0 4 ≠ 0x4D58414A then 1
  else if 5 < f ∨ 5 < g ∨ 2 < mxaOut d ∨ (mxaClass f = 1) ≠ (mxaClass g = 1) then 2
  else if mxaM d = 0 ∨ mxaK d = 0 ∨ 2 ^ 20 < mxaK d ∨ mxaN d = 0 ∨ 2 ^ 20 < mxaN d ∨ mxaBatch d = 0 then 3
  else if [(24, 8), (32, 8), (40, 8), (48, 4), (52, 4), (56, 4), (64, 8), (72, 8), (80, 8)].any
      (fun p => leAt d p.1 p.2 % 16 != 0) then 4
  else if (ofF32 sc).isZero ∨ bits sc 23 8 = 255 ∨ (mxaAcc d ∧ sc ≠ 0x3F800000) then 5
  else if mxaHint d 0 = 3 ∨ mxaHint d 1 = 3 ∨ mxaHint d 2 = 3 then 6
  else if no (leAt d 24 8) (addrA d t m k + mxaSize f - 1) ∨ no (leAt d 32 8) (addrB d t k n + mxaSize g - 1) ∨
      no (leAt d 40 8) (addrC d t m n + mxaOutSize (mxaOut d) - 1) then 7
  else if s.mxa.isSome then 8
  else if 8 ≤ leAt d 7 1 ∨ 64 ≤ leAt d 8 1 ∨ bits (leAt d 12 4) 24 8 ≠ 0 ∨ bits (leAt d 16 4) 21 11 ≠ 0 ∨
      bits (leAt d 20 4) 21 11 ≠ 0 ∨ leAt d 88 40 ≠ 0 then 9
  else 0

/-! ## Arithmetic (R345 to R347) -/

/-- An operand as the array reads it: 16-bit and 8-bit formats exactly, FP32_BF16 rounded, FP32 whole. -/
def mxaRead (f b : Nat) : Fp :=
  if f = 1 then fmtFp16.decode b
  else if f = 2 then fmtE4m3.decode b
  else if f = 3 then fmtE5m2.decode b
  else if f = 4 then ofF32 b
  else if f = 5 then fmtBf16.decode (fmtBf16.encode (ofF32 b))
  else fmtBf16.decode b

/-- High and low part of an operand in split mode (R345). -/
def mxaHigh (f b : Nat) : Fp := if f = 4 ∧ bits b 23 8 ≠ 255 then ofF32 (b / 4096 * 4096) else mxaRead f b
def mxaLow (f b : Nat) : Fp := if f = 4 ∧ bits b 23 8 ≠ 255 then (ofF32 b).sub (ofF32 (b / 4096 * 4096)) else .fin false 0 0

/-- The parts that pass `p` of a weight tile multiplies: xl·wh, xh·wl, xh·wh; whole operands outside split mode. -/
def passA (d : List Byte) (p b : Nat) : Fp :=
  if mxaPasses d = 1 then mxaRead (mxaA d) b else if p = 0 then mxaLow (mxaA d) b else mxaHigh (mxaA d) b
def passB (d : List Byte) (p b : Nat) : Fp :=
  if mxaPasses d = 1 then mxaRead (mxaB d) b else if p = 1 then mxaLow (mxaB d) b else mxaHigh (mxaB d) b

/-- The running sum over one weight tile, one rounding per cell, ascending k. -/
def dotOne (s : Nat) (l : List (Fp × Fp)) : Nat := l.foldl (fun s p => f32 ((ofF32 s).add (p.1.mul p.2))) s

/-- The same in the 8-bit formats: two exact products a cell, one rounding. -/
def dotTwo (s : Nat) : List (Fp × Fp) → Nat
  | [] => s
  | [p] => f32 ((ofF32 s).add ((p.1.mul p.2).add (.fin false 0 0)))
  | p :: q :: r => dotTwo (f32 ((ofF32 s).add ((p.1.mul p.2).add (q.1.mul q.2)))) r

/-- A finished sum as an output element: its bits, whether it is a NaN, whether it went out of range (R347). -/
def mxaConv (out scale v : Nat) : Nat × Bool × Bool :=
  let x := (ofF32 v).mul (ofF32 scale)
  ((fmtOf out).encode x, x.isNan, (fmtOf out).overflows x)

/-! ## Memory access (R353, R354) -/

/-- `n` neighbouring elements read in whole lines: bits and poison; an element of a refused line counts as poisoned. -/
def mxaLoad (a n size hint uses : Nat) (s : State) : List (Nat × Bool) × State :=
  let lo := a / 128 * 128
  let hi := (a + n * size + 127) / 128 * 128
  let (g, s) := useGet 576 lo (hi - lo) hint uses none s
  ((List.range n).map (fun i =>
    (leAt g.bytes (a - lo + i * size) size, refusal s (a + i * size) != 0 || g.bad.getD (a - lo + i * size) false)), s)

/-- Rows of elements read one after another. -/
def mxaLoads (l : List Nat) (n size hint uses : Nat) (s : State) : List (List (Nat × Bool)) × State :=
  l.foldl (fun acc a => let (r, t) := mxaLoad a n size hint uses acc.2; (acc.1 ++ [r], t)) ([], s)

/-- Element `j` of list `i`. -/
def at2 {α : Type} (d : α) (l : List (List α)) (i j : Nat) : α := (l.getD i []).getD j d

/-- Where pass `p` of a job stands (R351): batch item, first row, first column, first k, rows, columns, k's, pass of the
weight tile, and whether it is the first or the last of its (m, n) tile. -/
structure PassAt where
  item : Nat
  m0 : Nat
  n0 : Nat
  k0 : Nat
  rows : Nat
  cols : Nat
  ks : Nat
  part : Nat
  first : Bool
  last : Bool

def passAt (d : List Byte) (p : Nat) : PassAt :=
  let np := mxaPasses d
  let q := p / np
  let ki := q % mxaKTiles d
  let q := q / mxaKTiles d
  let ni := q % mxaNTiles d
  let q := q / mxaNTiles d
  let mi := q % mxaMTiles d
  let kt := mxaKt d
  ⟨q / mxaMTiles d, 2048 * mi, 512 * ni, kt * ki, min 2048 (mxaM d - 2048 * mi), min 512 (mxaN d - 512 * ni),
   min kt (mxaK d - kt * ki), p % np, ki == 0 && p % np == 0, ki + 1 == mxaKTiles d && p % np + 1 == np⟩

/-- The initial sums of a tile: +0.0, or with ACC the elements of C (R346, R349). -/
def mxaStart (d : List Byte) (x : PassAt) (s : State) : List (List Nat) × State :=
  if !mxaAcc d then (List.replicate x.rows (List.replicate x.cols 0), s)
  else
    let o := mxaOut d
    let conv (p : Nat × Bool) : Nat := lane (if o = 0 then p.1 else f32 ((fmtOf o).decode p.1)) p.2
    if mxaTransOut d then
      let (l, s) := mxaLoads ((List.range x.cols).map (fun n => addrC d x.item x.m0 (x.n0 + n))) x.rows (mxaOutSize o)
        (mxaHint d 2) (mxaUses d) s
      ((List.range x.rows).map (fun m => (List.range x.cols).map (fun n => conv (at2 (0, false) l n m))), s)
    else
      let (l, s) := mxaLoads ((List.range x.rows).map (fun m => addrC d x.item (x.m0 + m) x.n0)) x.cols (mxaOutSize o)
        (mxaHint d 2) (mxaUses d) s
      (l.map (fun r => r.map conv), s)

/-- The weights of a tile by column, and the poison of each column. -/
def mxaWeights (d : List Byte) (x : PassAt) (s : State) : List (List (Nat × Bool)) × State :=
  let sz := mxaSize (mxaB d)
  if mxaTransB d then
    mxaLoads ((List.range x.cols).map (fun n => addrB d x.item x.k0 (x.n0 + n))) x.ks sz (mxaHint d 1) (mxaUses d) s
  else
    let (l, s) := mxaLoads ((List.range x.ks).map (fun k => addrB d x.item (x.k0 + k) x.n0)) x.cols sz (mxaHint d 1) (mxaUses d) s
    ((List.range x.cols).map (fun n => (List.range x.ks).map (fun k => at2 (0, false) l k n)), s)

/-- The sums of a pass. -/
def mxaSum (d : List Byte) (x : PassAt) (a w : List (List (Nat × Bool))) (acc : List (List Nat)) : List (List Nat) :=
  let ws := w.map (fun c => (c.map (fun p => passB d x.part p.1), c.any (fun p => p.2)))
  (acc.zip a).map (fun r =>
    let xs := r.2.map (fun p => passA d x.part p.1)
    let bad := r.2.any (fun p => p.2)
    (r.1.zip ws).map (fun c =>
      let ps := xs.zip c.2.1
      lane (if mxaClass (mxaA d) = 1 then dotTwo (laneBits c.1) ps else dotOne (laneBits c.1) ps)
        (lanePoison c.1 || bad || c.2.2)))

/-- A finished tile written: each row, or each column with TRANS_OUT, as one run of elements; poisoned outputs marked
and counted, NaNs and out-of-range values counted (R347, R353, R354). -/
def mxaWrite (d : List Byte) (x : PassAt) (acc : List (List Nat)) (s : State) : State :=
  let o := mxaOut d
  let sz := mxaOutSize o
  let sc := leAt d 60 4
  let runs : List (Nat × List Nat) :=
    if mxaTransOut d then
      (List.range x.cols).map (fun n => (addrC d x.item x.m0 (x.n0 + n), (List.range x.rows).map (fun m => at2 0 acc m n)))
    else (List.range x.rows).map (fun m => (addrC d x.item (x.m0 + m) x.n0, acc.getD m []))
  runs.foldl (fun s r =>
    let vs := r.2.map (fun v => (mxaConv o sc (laneBits v), lanePoison v))
    let (_, s) := useWrite 576 r.1 (vs.flatMap (fun v => leBytes sz v.1.1)) (mxaHint d 2) (mxaUses d) s
    let bad := (vs.zipIdx.filter (fun v => v.1.2)).map (fun v => r.1 + sz * v.2)
    let s := State.each bad (fun a t => nodePoisonWrite a sz t) s
    let s := (s.bump mxaNanCount (vs.filter (fun v => v.1.2.1)).length).bump mxaRangeCount (vs.filter (fun v => v.1.2.2)).length
    match bad.head? with
    | none => s
    | some a =>
      let u := match physOf s a with
        | some ph => if ph.tier = 0 then ph.chan / 32 else 8 + ph.chan
        | none => 0
      fault .memory 6 u a 5 none (raise mxaEvtPoison (s.bump mxaPoisonCount bad.length))) s

/-! ## Jobs (R350, R351, R355, R356) -/

/-- A rejected job: handled as R260 handles a row-logic batch. -/
def mxaReject (source : Nat) (slot : Option Nat) (r : Nat) (s : State) : State :=
  let s := raise mxaEvtReject ((s.set mxaRejectReason r).set mxaRejectSource source)
  let s := match slot with
    | some i => cancelDependents i (finishSlot i .cancelled s)
    | none => s
  fault .plan 1 (slot.getD 0 % 1024) r 0 none s

/-- A job checked and admitted or rejected, from its descriptor's bytes. -/
def mxaTake (source : Nat) (slot : Option Nat) (d : List Byte) (bad : Bool) (s : State) : State :=
  let r := mxaReason s d bad
  if r ≠ 0 then mxaReject source slot r s
  else
    let s := ungate 16 { s with mxa := some ⟨d, source, slot.getD 0, 0, [], s.now⟩ }
    ((s.set mxaStatusBusy 1).set mxaStatusSource source).set mxaProgressPasses 0

/-- The descriptor read and the job taken. -/
def mxaAdmit (source desc : Nat) (slot : Option Nat) (s : State) : State :=
  let (d, rf, po, s) := useRead 576 desc 128 0 0 s
  mxaTake source slot d (rf || po) s

/-- MATRIX_JOB_START: a matrix slot reaches START; while another job runs it waits (R350, R355, R359). -/
def execMatrixJobStart (slot : Fin 1024) (s : State) : Host.Outcome State Fault Refusal :=
  whole (fun s =>
    let i := pickSlot s 4 slot.val
    let x := slotOf s i
    if !startable s 4 i ∨ s.mxa.isSome then done s
    else if x.unit ≠ 0 then done (mxaReject 0 (some i) 9 (startSlot i s))
    else done (mxaAdmit 0 x.desc (some i) (startSlot i s))) s

/-- MXA_SUBMIT: a write of SUBMIT with GO runs a host job while the active bank is empty and the array is idle, else
SUBMIT_REFUSED is set (R355). -/
def execMxaSubmit (value : BitVec 64) (s : State) : Host.Outcome State Fault Refusal :=
  let v := value.toNat
  let s := s.set mxaSubmitAddr (bits v 0 48)
  if !bitOf v 63 then done s
  else if s.flag tickStatusBankEmpty ∧ s.mxa.isNone then done (mxaAdmit 2 (bits v 0 48) none s)
  else done (raise mxaEvtSubmitRefused s)

/-- One pass of the job in progress: the rows of its m-tile through one weight tile; after the last pass of an (m, n)
tile its outputs are written (R346, R351). -/
def mxaPass (s : State) : State :=
  match s.mxa with
  | none => s
  | some j =>
    let d := j.desc
    if mxaTotal d ≤ j.pass then s
    else
      let x := passAt d j.pass
      let (acc, s) := if x.first then mxaStart d x s else (j.acc, s)
      let (w, s) := mxaWeights d x s
      let (a, s) := mxaLoads ((List.range x.rows).map (fun m => addrA d x.item (x.m0 + m) x.k0)) x.ks (mxaSize (mxaA d))
        (mxaHint d 0) (mxaUses d) s
      let acc := mxaSum d x a w acc
      let s := if x.last then mxaWrite d x acc s else s
      let s : State := { s with mxa := some { j with pass := j.pass + 1, acc := if x.last then [] else acc } }
      (s.set mxaProgressPasses (j.pass + 1)).bump mxaMacsCount (x.rows * x.cols * x.ks)

/-- MATRIX_PASS: the array completes one tile pass and reports progress. -/
def execMatrixPass (s : State) : Host.Outcome State Fault Refusal :=
  whole (fun s =>
    done (mxaPass s)) s

/-- The end of a job whose passes are done (R356). -/
def mxaFinish (s : State) : State :=
  match s.mxa with
  | none => s
  | some j =>
    if j.pass < mxaTotal j.desc then s
    else
      let s : State := { s with mxa := none }
      let s := ((s.set mxaStatusBusy 0).bump mxaJobsCount 1).bump mxaBusyCycCount ((s.now - j.since) / 1000)
      let s := raise mxaEvtDone s
      if j.source = 0 then completeSlot j.slot s else s

/-- MATRIX_JOB_COMPLETE: every output tile is acknowledged. -/
def execMatrixJobComplete (s : State) : Host.Outcome State Fault Refusal := done (mxaFinish s)

/-- `n` passes. -/
def mxaPassMany : Nat → State → State
  | 0, s => s
  | n + 1, s => mxaPassMany n (mxaPass s)

/-- A whole job of the KV service run within one of its commands: whether it was admitted (R355, R393). -/
def mxaWhole (d : List Byte) (s : State) : Bool × State :=
  let s := mxaTake 1 none d false s
  match s.mxa with
  | none => (false, s)
  | some j => (true, mxaFinish (mxaPassMany (mxaTotal j.desc) s))

/-- A job in progress abandoned by a reset (R362). -/
def mxaAbandon (s : State) : State :=
  match s.mxa with
  | none => s
  | some j =>
    let s := (({ s with mxa := none } : State).set mxaStatusBusy 0).set mxaStatusSource 0
    raise mxaEvtAbandoned (s.bump mxaBusyCycCount ((s.now - j.since) / 1000))

end Sys2Proof.Machine
end

