-- ==== Sys2Proof/Machine/KvCore.lean ====
section
/-! DEFINITION. The key-value cache service as its commands share it (R367 to R397): pool descriptors, the structures of a
pool in node memory, pages, Grove, sharing and copy on write, drops, and the arithmetic of attention. The service is requester
577. What it reads of a pool's structures to find its way is read at the coherence point and counts as no access (DESIGN
CHOICE, assumption 71); the structures it writes, K and V pages, meta pages and buffers are accesses of the slice. -/

namespace Sys2Proof.Machine

/-! ## The pool descriptor (R367) -/

def kvWalker (d : List Byte) : Bool := bitOf (leAt d 4 1) 0
def kvLatent (d : List Byte) : Bool := bitOf (leAt d 4 1) 1
def kvRopeK (d : List Byte) : Bool := bitOf (leAt d 4 1) 2
def kvRopeQ (d : List Byte) : Bool := bitOf (leAt d 4 1) 3
def kvFmt (d : List Byte) : Nat := leAt d 5 1
def kvLayers (d : List Byte) : Nat := leAt d 6 1
def kvHeads (d : List Byte) : Nat := leAt d 7 1
def kvDim (d : List Byte) : Nat := leAt d 8 2
def kvLatDim (d : List Byte) : Nat := leAt d 10 2
def kvGroup (d : List Byte) : Nat := leAt d 12 1
def kvSpanTokens (d : List Byte) : Nat := 2 ^ leAt d 13 1
def kvChunk (d : List Byte) : Nat := 2 ^ leAt d 14 1
def kvGroveBits (d : List Byte) : Nat := leAt d 15 1
def kvScale (d : List Byte) : Nat := leAt d 16 4
def kvSeqMax (d : List Byte) : Nat := leAt d 20 4
def kvSeqSpans (d : List Byte) : Nat := leAt d 24 4
def kvSpanMax (d : List Byte) : Nat := leAt d 28 4
def kvPages (d : List Byte) : Nat := leAt d 32 4
def kvFrame (d : List Byte) : Nat := leAt d 40 8
def kvRing (d : List Byte) : Nat := leAt d 128 2
def kvAsid (d : List Byte) : Nat := leAt d 130 2
def kvRopePos (d : List Byte) : Nat := leAt d 132 4
def kvE (d : List Byte) : Nat := if kvFmt d < 2 then 2 else 1
def kvTokenBytes (d : List Byte) : Nat := (if kvLatent d then kvLatDim d else kvDim d) * kvE d
def kvPageTokens (d : List Byte) : Nat := 65536 / kvTokenBytes d
def kvStreams (d : List Byte) : Nat := if kvLatent d then kvLayers d else kvLayers d * kvHeads d * 2
def kvPps (d : List Byte) : Nat := kvSpanTokens d / kvPageTokens d
def kvSpanPages (d : List Byte) : Nat := 1 + kvStreams d * kvPps d
def kvListStride (d : List Byte) : Nat := (kvSpanPages d * 4 + 255) / 256 * 256
/-- Columns of the up-projection (R393), and query heads. -/
def kvN (d : List Byte) : Nat := 2 * kvHeads d * kvDim d
def kvQHeads (d : List Byte) : Nat := kvHeads d * kvGroup d

/-- The extents of a pool in node memory, as (address, bytes). -/
def kvExtents (d : List Byte) : List (Nat × Nat) :=
  [(kvFrame d, kvPages d * 65536), (leAt d 48 8, kvSeqMax d * 32), (leAt d 56 8, kvSeqMax d * kvSeqSpans d * 4),
   (leAt d 64 8, kvSpanMax d * 32), (leAt d 72 8, kvSpanMax d * kvListStride d), (leAt d 80 8, kvPages d * 4),
   (leAt d 88 8, 4 + 4 * kvPages d), (leAt d 96 8, if kvGroveBits d = 0 then 0 else 2 ^ kvGroveBits d * 32),
   (leAt d 112 8, 64 * kvRing d), (leAt d 120 8, 64 * kvRing d),
   (leAt d 152 8, if kvRopeK d ∨ kvRopeQ d then kvRopePos d * (kvDim d / 2) * 8 else 0),
   (leAt d 160 8, if kvLatent d then kvLayers d * kvLatDim d * kvN d * kvE d else 0),
   (leAt d 168 8, if kvLatent d then kvChunk d * kvN d * 4 else 0)]

/-- The first failing check of R368, 0 for none. -/
def poolReason (s : State) (p : Nat) (d : List Byte) (bad : Bool) : Nat :=
  let dims := [64, 128, 256, 512]
  let r (v lo hi : Nat) : Bool := decide (v < lo) || decide (hi < v)
  if bad ∨ leAt d 0 4 ≠ 0x4B56504C then 1
  else if 3 < kvFmt d ∨ kvLayers d = 0 ∨ r (kvHeads d) 1 64 ∨ ¬ dims.contains (kvDim d) ∨
      (if kvLatent d then ¬ dims.contains (kvLatDim d) else kvLatDim d ≠ 0) ∨ r (kvGroup d) 1 16 ∨ r (leAt d 13 1) 8 12 ∨
      r (leAt d 14 1) 6 12 ∨ (kvGroveBits d ≠ 0 ∧ r (kvGroveBits d) 10 24) ∨ r (kvSeqMax d) 1 (2 ^ 20) ∨
      r (kvSeqSpans d) 1 4096 ∨ r (kvSpanMax d) 1 (2 ^ 24) ∨ 1024 ≤ leAt d 36 2 ∨ r (kvRing d) 16 32768 ∨
      2 ^ Nat.log2 (kvRing d) ≠ kvRing d ∨ kvSpanTokens d < kvPageTokens d then 2
  else if kvFrame d % 65536 ≠ 0 ∨ kvFrame d = 0 ∨
      [48, 56, 64, 72, 80, 88, 96, 112, 120, 152, 160, 168].any (fun o => leAt d o 8 % 256 != 0) then 3
  else if (kvExtents d).any (fun x => !servedRange s x.1 x.2) ∨
      s.kvs.pools.any (fun q => q.1 != p && meets (kvFrame d) (kvPages d * 65536) (kvFrame q.2) (kvPages q.2 * 65536)) then 4
  else if ¬ kvWalker d ∧ (leAt d 144 8 % 2 ^ 21 ≠ 0 ∨ leAt d 144 8 < kvSeqSpans d * kvSpanPages d * 65536) then 5
  else if bitOf (s.get kvsStatusLoaded) p then 6
  else if 16 ≤ leAt d 4 1 ∨ leAt d 38 2 ≠ 0 ∨ leAt d 176 80 ≠ 0 then 7
  else 0

/-! ## Structures (R371) -/

def seqAddr (d : List Byte) (q : Nat) : Nat := leAt d 48 8 + q * 32
def stabAddr (d : List Byte) (q n : Nat) : Nat := leAt d 56 8 + (q * kvSeqSpans d + n) * 4
def recAddr (d : List Byte) (r : Nat) : Nat := leAt d 64 8 + r * 32
def plistAddr (d : List Byte) (r lp : Nat) : Nat := leAt d 72 8 + r * kvListStride d + 4 * lp
def pinfoAddr (d : List Byte) (i : Nat) : Nat := leAt d 80 8 + 4 * i
def freeAddr (d : List Byte) : Nat := leAt d 88 8
def groveAddr (d : List Byte) (i : Nat) : Nat := leAt d 96 8 + 32 * i
def pageAddr (d : List Byte) (i : Nat) : Nat := kvFrame d + 65536 * i

/-- A number written at an address. -/
def putNat (a n v : Nat) (s : State) : State := store 577 a (leBytes n v) s

def seqOpen (s : State) (d : List Byte) (q : Nat) : Bool := nodeNat s (seqAddr d q) 1 == 1
def seqGrove (s : State) (d : List Byte) (q : Nat) : Bool := bitOf (nodeNat s (seqAddr d q + 1) 1) 0
def seqTokens (s : State) (d : List Byte) (q : Nat) : Nat := nodeNat s (seqAddr d q + 4) 4
def seqHash (s : State) (d : List Byte) (q : Nat) : Nat := nodeNat s (seqAddr d q + 8) 8
def seqSpans (s : State) (d : List Byte) (q : Nat) : Nat := nodeNat s (seqAddr d q + 16) 4

/-- A sequence entry written. -/
def putSeq (d : List Byte) (q : Nat) (opened grove : Bool) (tokens hash spans : Nat) (s : State) : State :=
  store 577 (seqAddr d q) (leBytes 1 (b2n opened) ++ leBytes 1 (b2n grove) ++ leBytes 2 0 ++ leBytes 4 tokens ++ leBytes 8 hash ++
    leBytes 4 spans ++ leBytes 12 0) s

/-- The record that a sequence names for span `n`. -/
def spanRec (s : State) (d : List Byte) (q n : Nat) : Option Nat :=
  let w := nodeNat s (stabAddr d q n) 4
  if bitOf w 31 then some (bits w 0 24) else none

def putStab (d : List Byte) (q n : Nat) (r : Option Nat) (s : State) : State :=
  putNat (stabAddr d q n) 4 (match r with | some r => 2 ^ 31 + r | none => 0) s

def recRefs (s : State) (d : List Byte) (r : Nat) : Nat := nodeNat s (recAddr d r) 2
def recState (s : State) (d : List Byte) (r : Nat) : Nat := nodeNat s (recAddr d r + 2) 1
def recOwner (s : State) (d : List Byte) (r : Nat) : Nat := nodeNat s (recAddr d r + 4) 4
def recSpan (s : State) (d : List Byte) (r : Nat) : Nat := nodeNat s (recAddr d r + 8) 4
def recTick (s : State) (d : List Byte) (r : Nat) : Nat := nodeNat s (recAddr d r + 16) 8
def setRefs (d : List Byte) (r v : Nat) (s : State) : State := putNat (recAddr d r) 2 v s
def setRecState (d : List Byte) (r v : Nat) (s : State) : State := putNat (recAddr d r + 2) 1 v s
def stampRec (d : List Byte) (r : Nat) (s : State) : State := putNat (recAddr d r + 16) 8 (s.get tickCountCount) s

/-- The page of logical page `lp` of a record, if it is allocated. -/
def recPage (s : State) (d : List Byte) (r lp : Nat) : Option Nat :=
  let w := nodeNat s (plistAddr d r lp) 4
  if w = 0 then none else some (w - 1)

def pageRefs (s : State) (d : List Byte) (i : Nat) : Nat := nodeNat s (pinfoAddr d i) 2
def setPageRefs (d : List Byte) (i v : Nat) (s : State) : State := putNat (pinfoAddr d i) 4 v s

/-- Entries of the look-aside buffer dropped (R372). -/
def labDrop (f : Nat × Nat × Nat × Nat → Bool) (s : State) : State :=
  { s with kvs := { s.kvs with lab := s.kvs.lab.filter (fun x => !f x) } }

/-- A page-list entry written; the record's entries of the look-aside buffer go. -/
def putPage (p : Nat) (d : List Byte) (r lp : Nat) (page : Option Nat) (s : State) : State :=
  labDrop (fun x => x.1 == p && x.2.1 == r) (putNat (plistAddr d r lp) 4 (match page with | some i => i + 1 | none => 0) s)

/-- The spans that a sequence names. -/
def namedSpans (s : State) (d : List Byte) (q : Nat) : List (Nat × Nat) :=
  (List.range (kvSeqSpans d)).filterMap (fun n => (spanRec s d q n).map (fun r => (n, r)))

/-- The allocated pages of a record. -/
def allocated (s : State) (d : List Byte) (r : Nat) : List (Nat × Nat) :=
  (List.range (kvSpanPages d)).filterMap (fun lp => (recPage s d r lp).map (fun i => (lp, i)))

/-! ## MMU mode (R373) -/

/-- The virtual address of a logical page of a sequence. -/
def kvVa (d : List Byte) (q n lp : Nat) : Nat := leAt d 136 8 + q * leAt d 144 8 + (n * kvSpanPages d + lp) * 65536

/-- The address of the level-4 entry of a virtual address, when levels 1 to 3 are built. -/
def leafEntry (s : State) (asid va : Nat) : Option Nat :=
  let go (t : Option Nat) (a : Nat) : Option Nat :=
    t.bind (fun _ => let e := nodeNat s a 8; if bitOf e 0 ∧ ¬ bitOf e 1 then some (bits e 8 40 * 256) else none)
  let t0 := go (some 0) (s.get mmuRootAddr + 8 * asid)
  let t1 := go t0 (t0.getD 0 + 8 * levelIndex 1 va)
  let t2 := go t1 (t1.getD 0 + 8 * levelIndex 2 va)
  let t3 := go t2 (t2.getD 0 + 8 * levelIndex 3 va)
  t3.map (fun t => t + 8 * levelIndex 4 va)

/-- The leaf of a page in a sequence's range written or cleared, and its translation dropped. -/
def mapPage (d : List Byte) (q n lp : Nat) (page : Option Nat) (s : State) : State :=
  if kvWalker d then s
  else
    let va := kvVa d q n lp
    match leafEntry s (kvAsid d) va with
    | none => s
    | some a => tlbDrop (fun e => e.asid == kvAsid d && decide (e.va ≤ va) && decide (va < e.va + e.size))
        (putNat a 8 (match page with | some i => pageAddr d i + 7 | none => 0) s)

/-- Every allocated page of a record mapped into a sequence's range, and unmapped. -/
def mapRecord (d : List Byte) (q n r : Nat) (s : State) : State :=
  if kvWalker d then s else State.each (allocated s d r) (fun x t => mapPage d q n x.1 (some x.2) t) s
def unmapRecord (d : List Byte) (q n r : Nat) (s : State) : State :=
  if kvWalker d then s else State.each (allocated s d r) (fun x t => mapPage d q n x.1 none t) s

/-! ## Pages and records (R380, R394, R395) -/

def freeCount (s : State) (d : List Byte) : Nat := nodeNat s (freeAddr d) 4

/-- The free count set, in memory and in POOL_FREE (R369). -/
def setFreeCount (p : Nat) (d : List Byte) (v : Nat) (s : State) : State :=
  (putNat (freeAddr d) 4 v s).set (kvsPoolFreePages p) v

/-- A page taken from the free stack with REFS 1. -/
def kvTakePage (p : Nat) (d : List Byte) (s : State) : Nat × State :=
  let c := freeCount s d
  let i := nodeNat s (freeAddr d + 4 * c) 4
  (i, setPageRefs d i 1 (setFreeCount p d (c - 1) s))

/-- One reference to a page given up; a page without references returns to the free stack. -/
def dropPage (p : Nat) (d : List Byte) (i : Nat) (s : State) : State :=
  let n := pageRefs s d i - 1
  let s := setPageRefs d i n s
  if n ≠ 0 then s
  else
    let c := freeCount s d
    setFreeCount p d (c + 1) (putNat (freeAddr d + 4 * (c + 1)) 4 i s)

/-- The 64 KiB of a page copied, poison with it. -/
def copyPage (d : List Byte) (i j : Nat) (s : State) : State :=
  copyRange 577 (pageAddr d i) (pageAddr d j) 65536 s

/-- Blocks of a span, and the hash that a record's meta page holds for one. -/
def spanBlocks (d : List Byte) : Nat := kvSpanTokens d / 16
def metaHash (s : State) (d : List Byte) (r b : Nat) : Nat :=
  match recPage s d r 0 with
  | some i => nodeNat s (pageAddr d i + 32768 + 8 * b) 8
  | none => 0

/-- Probe slots of a hash (R375). -/
def probes (d : List Byte) (h : Nat) : List Nat := (List.range 16).map (fun j => (h + j) % 2 ^ kvGroveBits d)
def groveFlags (s : State) (d : List Byte) (i : Nat) : Nat := nodeNat s (groveAddr d i + 22) 1
def groveLive (s : State) (d : List Byte) (i : Nat) : Bool := bitOf (groveFlags s d i) 0

/-- The entries that a lookup of a hash sees: up to the first with neither LIVE nor TOMB. -/
def groveSeen (s : State) (d : List Byte) (h : Nat) : List Nat :=
  (probes d h).takeWhile (fun i => groveFlags s d i % 4 != 0)

/-- The Grove entries of a record removed (R378). -/
def groveRemove (d : List Byte) (r : Nat) (s : State) : State :=
  if kvGroveBits d = 0 then s
  else
    let hs := ((List.range (spanBlocks d)).map (metaHash s d r)).filter (fun h => h != 0)
    State.each hs (fun h t =>
      match (groveSeen t d h).find? (fun i => groveLive t d i && nodeNat t (groveAddr d i) 8 == h &&
          nodeNat t (groveAddr d i + 16) 4 == r) with
      | some i => putNat (groveAddr d i + 22) 1 2 t
      | none => t) s

/-- The pages of a record given up and its list emptied. -/
def emptyRecord (p : Nat) (d : List Byte) (r : Nat) (s : State) : State :=
  State.each (allocated s d r) (fun x t => dropPage p d x.2 (putPage p d r x.1 none t)) s

/-- One reference to a record given up; without references it becomes FREE and its pages go (R380). -/
def unrefRecord (p : Nat) (d : List Byte) (r : Nat) (s : State) : State :=
  let n := recRefs s d r - 1
  let s := setRefs d r n s
  if n ≠ 0 then s else setRecState d r 0 (emptyRecord p d r (groveRemove d r s))

/-- A record dropped (R395). -/
def dropRecord (p : Nat) (d : List Byte) (r : Nat) (s : State) : State :=
  let s := unmapRecord d (recOwner s d r) (recSpan s d r) r (groveRemove d r s)
  raise kvsEvtDrop ((setRecState d r 2 (emptyRecord p d r s)).bump (kvsPoolDropsCount p) 1)

/-- The victim of R394 among the records that no sequence of the request names. -/
def dropVictim (s : State) (d : List Byte) (qs : List Nat) : Option Nat :=
  let mine := qs.flatMap (fun q => (namedSpans s d q).map Prod.snd)
  let cs := (List.range (kvSpanMax d)).filter (fun r => recState s d r == 1 && !mine.contains r &&
    (kvWalker d || recRefs s d r == 1))
  let key (r : Nat) : Nat × Nat := (b2n (recRefs s d r != 1), recTick s d r)
  cs.foldl (fun b r => match b with
    | none => some r
    | some x => if (key r).1 < (key x).1 ∨ ((key r).1 = (key x).1 ∧ (key r).2 < (key x).2) then some r else some x) none

/-- Records dropped until `need` pages are free; whether they are (R394). -/
def makeRoom (p : Nat) (d : List Byte) (qs : List Nat) (need : Nat) : Nat → State → Bool × State
  | 0, s => (decide (need ≤ freeCount s d), s)
  | k + 1, s =>
    if need ≤ freeCount s d then (true, s)
    else
      match dropVictim s d qs with
      | none => (false, s)
      | some r => makeRoom p d qs need k (dropRecord p d r s)

/-- The lowest FREE span record; the spec names no order. -/
def freeRec (s : State) (d : List Byte) : Option Nat := (List.range (kvSpanMax d)).find? (fun r => recState s d r == 0)
def freeRecs (s : State) (d : List Byte) : Nat := ((List.range (kvSpanMax d)).filter (fun r => recState s d r == 0)).length

/-- A new record for span `n` of a sequence: LIVE, REFS 1, an empty page list. -/
def newRecord (d : List Byte) (q n r : Nat) (s : State) : State :=
  let s := store 577 (recAddr d r) (leBytes 2 1 ++ leBytes 2 1 ++ leBytes 4 q ++ leBytes 4 n ++ leBytes 4 0 ++
    leBytes 8 (s.get tickCountCount) ++ leBytes 8 0) s
  let s := store 577 (plistAddr d r 0) (List.replicate (4 * kvSpanPages d) 0) s
  putStab d q n (some r) s

/-- The record that a write by sequence `q` to span `n` uses: a new one where there is none or `anew` says so, a split one
where it is shared, else the one it names (R380, R397). -/
def writeRecord_ (p : Nat) (d : List Byte) (q n : Nat) (anew : Bool) (s : State) : State :=
  match spanRec s d q n, freeRec s d with
  | none, some r => newRecord d q n r s
  | some old, some r =>
    if anew then unrefRecord p d old (newRecord d q n r s)
    else if 1 < recRefs s d old then
      let pages := allocated s d old
      let s := newRecord d q n r s
      let s := State.each pages (fun x t => setPageRefs d x.2 (pageRefs t d x.2 + 1) (putPage p d r x.1 (some x.2) t)) s
      (setRefs d old (recRefs s d old - 1) s).bump (kvsPoolCountsSplits p) 1
    else s
  | _, none => s

/-- Whether a write to span `n` needs a new record, and whether one to a page of it needs a new page. -/
def needsRec (s : State) (d : List Byte) (q n : Nat) (anew : Bool) : Bool :=
  anew || (match spanRec s d q n with | none => true | some r => decide (1 < recRefs s d r))
def needsPage (s : State) (d : List Byte) (q n lp : Nat) (anew : Bool) : Bool :=
  needsRec s d q n anew || (match (spanRec s d q n).bind (fun r => recPage s d r lp) with
    | none => true
    | some i => decide (1 < pageRefs s d i))

/-- A page made ready for a write by a sequence: allocated (a meta page zeroed), copied where shared, or as it is (R370,
R380). -/
def writePage (p : Nat) (d : List Byte) (q n lp : Nat) (s : State) : State :=
  match spanRec s d q n with
  | none => s
  | some r =>
    match recPage s d r lp with
    | none =>
      let (i, s) := kvTakePage p d s
      let s := if lp = 0 then store 577 (pageAddr d i) (List.replicate 65536 0) s else s
      mapPage d q n lp (some i) (putPage p d r lp (some i) s)
    | some i =>
      if pageRefs s d i ≤ 1 then s
      else
        let (j, s) := kvTakePage p d s
        let s := mapPage d q n lp (some j) (putPage p d r lp (some j) (copyPage d i j s))
        setPageRefs d i (pageRefs s d i - 1) s

/-! ## Finding data (R370, R372, R373) -/

/-- The look-aside buffer or the page list gives the page of a record (R372). -/
def labLookup (p : Nat) (d : List Byte) (r lp : Nat) (s : State) : Option Nat × State :=
  match s.kvs.lab.find? (fun x => x.1 == p && x.2.1 == r && x.2.2.1 == lp) with
  | some x =>
    (some x.2.2.2, ({ s with kvs := { s.kvs with lab := x :: s.kvs.lab.erase x } } : State).bump kvsLabHits 1)
  | none =>
    let s := s.bump kvsLabMisses 1
    match recPage s d r lp with
    | some i => (some i, { s with kvs := { s.kvs with lab := ((p, r, lp, i) :: s.kvs.lab).take 256 } })
    | none => (none, s)

/-- The local address of a logical page: none where it is not allocated or its translation faults. -/
def pageOf (p : Nat) (d : List Byte) (q n lp : Nat) (write : Bool) (s : State) : Option Nat × State :=
  match spanRec s d q n with
  | none => (none, s)
  | some r =>
    if kvWalker d then
      let (i, s) := labLookup p d r lp s
      (i.map (pageAddr d), s)
    else if (recPage s d r lp).isNone then (none, s)
    else
      let (k, a, s) := mmuTranslate 577 (kvAsid d) (kvVa d q n lp) write false s
      (if k = 0 then some a else none, s)

/-- The first page of a list whose translation faults, by its virtual address; a page that is still to be mapped faults
where its tables are not built (R373). -/
def firstFault (d : List Byte) (q : Nat) (l : List (Nat × Nat)) (write : Bool) (s : State) : Option Nat × State :=
  if kvWalker d then (none, s)
  else l.foldl (fun acc x =>
    match acc with
    | (some v, s) => (some v, s)
    | (none, s) =>
      let va := kvVa d q x.1 x.2
      match (spanRec s d q x.1).bind (fun r => recPage s d r x.2) with
      | none => (if write ∧ (leafEntry s (kvAsid d) va).isNone then some va else none, s)
      | some _ =>
        let (k, _, s) := mmuTranslate 577 (kvAsid d) va write false s
        (if k = 0 then none else some va, s)) (none, s)

/-- Logical page of a stream for a token of a span, and the byte of the token in the page. -/
def streamPage (d : List Byte) (layer head kind u : Nat) : Nat :=
  1 + (if kvLatent d then layer else (layer * kvHeads d + head) * 2 + kind) * kvPps d + u / kvPageTokens d
def tokenByte (d : List Byte) (u : Nat) : Nat := u % kvPageTokens d * kvTokenBytes d

/-- The token record of a token: POS, SEG, VALID; zero where the meta page is not there. -/
def tokenRec (s : State) (d : List Byte) (q t : Nat) : Nat × Nat × Bool :=
  match (spanRec s d q (t / kvSpanTokens d)).bind (fun r => recPage s d r 0) with
  | none => (0, 0, false)
  | some i =>
    let w := nodeNat s (pageAddr d i + 8 * (t % kvSpanTokens d)) 8
    (bits w 0 32, bits w 32 16, bitOf w 48)

/-- The accesses of reading the meta pages of a range of tokens, with hint KEEP (R391). -/
def touchMeta (d : List Byte) (q t n : Nat) (s : State) : State :=
  let sp (x : Nat) : Nat := x / kvSpanTokens d
  State.each (if n = 0 then [] else (List.range (sp (t + n - 1) - sp t + 1)).map (· + sp t)) (fun k s =>
    match (spanRec s d q k).bind (fun r => recPage s d r 0) with
    | some i => (useGet 577 (pageAddr d i) (8 * kvSpanTokens d) 1 0 none s).2
    | none => s) s

/-- Whether a token is visible to a row at position `pos` in segment `seg` (R388). -/
def visible (s : State) (d : List Byte) (q t pos seg : Nat) : Bool :=
  let live := match spanRec s d q (t / kvSpanTokens d) with | some r => recState s d r == 1 | none => false
  let x := tokenRec s d q t
  decide (t < seqTokens s d q) && live && x.2.2 && x.2.1 == seg && decide (x.1 ≤ pos)

/-! ## Conversions (R382) -/

def kvFormat (d : List Byte) : Fmt :=
  if kvFmt d = 0 then fmtBf16 else if kvFmt d = 1 then fmtFp16 else if kvFmt d = 2 then fmtE4m3 else fmtE5m2

/-- FP32 bits as an element of the pool's format: E4M3 saturates, E5M2 overflows to an infinity. -/
def kvEncode (d : List Byte) (v : Nat) : Nat :=
  let x := ofF32 v
  let f := kvFormat d
  let big := f.overflows x || (match x with | .inf _ => true | _ => false)
  if kvFmt d = 2 ∧ big then f.maxBits + (if x.isNeg then f.signBit else 0) else f.encode x

/-- An element of the pool's format as FP32 bits. -/
def kvDecode (d : List Byte) (b : Nat) : Nat := f32 ((kvFormat d).decode b)

/-- FP32 vectors read from a buffer, as lanes with poison. -/
def bufRead (a n : Nat) (s : State) : List Nat × State :=
  let (g, s) := useGet 577 a (4 * n) 0 0 none s
  ((List.range n).map (fun i => lane (leAt g.bytes (4 * i) 4) (g.bad.getD (4 * i) false)), s)

/-- Lanes written to a buffer in FP32, or BF16; poisoned ones with a poison mark. -/
def bufWrite (a : Nat) (bf16 : Bool) (l : List Nat) (s : State) : State :=
  let n := if bf16 then 2 else 4
  let bs := l.flatMap (fun v => if bf16 then leBytes 2 (fmtBf16.encode (ofF32 (laneBits v))) else leBytes 4 (laneBits v))
  let (_, s) := useWrite 577 a bs 0 0 s
  let bad := (l.zipIdx.filter (fun v => lanePoison v.1)).map (fun v => a + n * v.2)
  let s := State.each bad (fun x t => nodePoisonWrite x n t) s
  match bad.head? with
  | none => s
  | some x =>
    let u := match physOf s x with
      | some ph => if ph.tier = 0 then ph.chan / 32 else 8 + ph.chan
      | none => 0
    fault .memory 6 u x 5 none s

/-! ## Rotation (R389) -/

/-- The rule program at ROPE_ENTRY run for one beat on an engine: `k` bounds its instructions. -/
def ropeProgram (e : Nat) : Nat → Nat → State → State
  | 0, _, s => s
  | k + 1, pc, s =>
    let w := s.get (upeRuleInsn e pc)
    if 1024 ≤ pc ∨ ruleOp w = 0x3F then s else ropeProgram e k (pc + 1) (ruleBeat e w 0 s)

/-- A vector rotated at position `pos`, 64 pairs a beat, on engine `e`. -/
def rotate (d : List Byte) (e pos : Nat) (l : List Nat) (s : State) : List Nat × State :=
  let h := kvDim d / 2
  let old := (s.eng e).desc
  let s := s.onEng e (fun x => { x with desc := [] })
  let (r, s) := (List.range ((h + 63) / 64)).foldl (fun (acc : List Nat × State) k =>
    let (r, s) := acc
    let ix := (List.range 64).map (fun i => 64 * k + i)
    let (t, s) := bufRead (leAt d 152 8 + (pos * h + 64 * k) * 8) (2 * min 64 (h - 64 * k)) s
    let put (v : Nat) (f : Nat → Nat) (s : State) : State := setV e 0 v (ix.map f) s
    let s := put 0 (fun i => l.getD (2 * i) 0) s
    let s := put 1 (fun i => l.getD (2 * i + 1) 0) s
    let s := put 2 (fun i => t.getD (2 * (i - 64 * k)) 0) s
    let s := put 3 (fun i => t.getD (2 * (i - 64 * k) + 1) 0) s
    let s := ropeProgram e 1024 (leAt d 36 2) s
    let x := vreg s e 0 4
    let y := vreg s e 0 5
    (r ++ (List.range (min 64 (h - 64 * k))).flatMap (fun i => [x.getD i 0, y.getD i 0]), s)) ([], s)
  (r, s.onEng e (fun x => { x with desc := old }))

/-! ## K and V of a range of tokens (R370, R393) -/

/-- Runs of neighbouring tokens in one page: (first token, tokens). -/
def tokenRuns (d : List Byte) : Nat → Nat → Nat → List (Nat × Nat)
  | 0, _, _ => []
  | k + 1, t, n =>
    if n = 0 then []
    else
      let m := min n (kvPageTokens d - t % kvPageTokens d)
      (t, m) :: tokenRuns d k (t + m) (n - m)

def runsOf (d : List Byte) (t n : Nat) : List (Nat × Nat) := tokenRuns d (n / kvPageTokens d + 2) t n

/-- One stream of a run of tokens as FP32 lanes, a list per token; zeros where the page is not allocated. -/
def loadRun (p : Nat) (d : List Byte) (q layer head kind : Nat) (run : Nat × Nat) (s : State) : List (List Nat) × State :=
  let u := run.1 % kvSpanTokens d
  let n := kvDim d
  let (a, s) := pageOf p d q (run.1 / kvSpanTokens d) (streamPage d layer head kind u) false s
  match a with
  | none => (List.replicate run.2 (List.replicate n 0), s)
  | some a =>
    let b := a + tokenByte d u
    let (g, s) := useGet 577 b (run.2 * kvTokenBytes d) 0 0 none s
    ((List.range run.2).map (fun i => (List.range n).map (fun j =>
      let o := i * kvTokenBytes d + j * kvE d
      lane (kvDecode d (leAt g.bytes o (kvE d))) (g.bad.getD o false))), s)

/-- The matrix job that expands the latents at `a` of `m` tokens of a layer into `c` (R393). -/
def expandJob (d : List Byte) (layer a m c : Nat) : List Byte :=
  let n := kvN d
  leBytes 4 0x4D58414A ++ leBytes 1 (kvFmt d) ++ leBytes 1 (kvFmt d) ++ leBytes 1 0 ++ leBytes 1 0 ++ leBytes 1 20 ++ leBytes 1 0 ++
    leBytes 2 1 ++ leBytes 4 m ++ leBytes 4 (kvLatDim d) ++ leBytes 4 n ++ leBytes 8 a ++
    leBytes 8 (leAt d 160 8 + layer * kvLatDim d * n * kvE d) ++ leBytes 8 c ++ leBytes 4 (kvTokenBytes d) ++
    leBytes 4 (n * kvE d) ++ leBytes 4 (n * 4) ++ leBytes 4 0x3F800000 ++ leBytes 64 0

/-- K and V of a run of tokens of a latent pool, after expansion and rotation of the keys: per token, per head, (K, V). -/
def expandRun (p : Nat) (d : List Byte) (q layer j e base : Nat) (run : Nat × Nat) (s : State) :
    List (List (List Nat × List Nat)) × State :=
  let u := run.1 % kvSpanTokens d
  let n := kvN d
  let h := kvDim d
  let zero := List.replicate h 0
  let (a, s) := pageOf p d q (run.1 / kvSpanTokens d) (streamPage d layer 0 0 u) false s
  match a with
  | none => (List.replicate run.2 (List.replicate (kvHeads d) (zero, zero)), s)
  | some a =>
    let c := leAt d 168 8 + j * kvChunk d * n * 4 + (run.1 - base) * n * 4
    let (_, s) := mxaWhole (expandJob d layer (a + tokenByte d u) run.2 c) s
    (List.range run.2).foldl (fun (acc : List (List (List Nat × List Nat)) × State) i =>
      let (l, s) := bufRead (c + i * n * 4) n acc.2
      let (hs, s) := (List.range (kvHeads d)).foldl (fun (acc : List (List Nat × List Nat) × State) kv =>
        let k := (List.range h).map (fun x => l.getD (kv * h + x) 0)
        let v := (List.range h).map (fun x => l.getD (n / 2 + kv * h + x) 0)
        let (k, s) := if kvRopeK d then rotate d e (tokenRec acc.2 d q (run.1 + i)).1 k acc.2 else (k, acc.2)
        (acc.1 ++ [(k, v)], s)) ([], s)
      (acc.1 ++ [hs], s)) ([], s)

/-- K and V of tokens `t` to `t + n - 1` of a layer: per token, per head, (K, V). -/
def loadKv (p : Nat) (d : List Byte) (q layer j e t n : Nat) (s : State) : List (List (List Nat × List Nat)) × State :=
  (runsOf d t n).foldl (fun acc run =>
    let (l, s) := acc
    if kvLatent d then
      let (x, s) := expandRun p d q layer j e t run s
      (l ++ x, s)
    else
      let (hs, s) := (List.range (kvHeads d)).foldl (fun (acc : List (List (List Nat) × List (List Nat)) × State) h =>
        let (k, s) := loadRun p d q layer h 0 run acc.2
        let (v, s) := loadRun p d q layer h 1 run s
        (acc.1 ++ [(k, v)], s)) ([], s)
      (l ++ (List.range run.2).map (fun i => hs.map (fun h => (h.1.getD i [], h.2.getD i []))), s)) ([], s)

/-! ## Attention (R390 to R392) -/

def negInf : Nat := 0xFF800000
def f32Sub (a b : Nat) : Nat := f32 ((ofF32 a).sub (ofF32 b))
def f32Div (a b : Nat) : Nat := f32 ((ofF32 a).div (ofF32 b))
def f32Exp (a : Nat) : Nat := f32 (ofF32 a).exp

/-- A dot product by fused multiply-adds in ascending order, times the scale. -/
def dotFma (q k : List Nat) : Nat := (q.zip k).foldl (fun a p => f32Fma (laneBits p.1) (laneBits p.2) a) 0
def score (d : List Byte) (q k : List Nat) : Nat := f32Mul (dotFma q k) (kvScale d)

/-- A vector accumulated: each element is one fused multiply-add. -/
def axpy (w : Nat) (x o : List Nat) : List Nat := (x.zip o).map (fun p => f32Fma w (laneBits p.1) p.2)

/-- The partial maximum, sum and weighted value of a chunk's visible tokens (K, V) (R390). -/
def chunkPart (d : List Byte) (q : List Nat) (l : List (List Nat × List Nat)) : Nat × Nat × List Nat :=
  let ss := l.map (fun x => score d q x.1)
  let m := ss.foldl f32Max negInf
  (ss.zip l).foldl (fun (acc : Nat × Nat × List Nat) x =>
    let w := f32Exp (f32Sub x.1 m)
    (m, f32Add acc.2.1 w, axpy w x.2.2 acc.2.2)) (m, 0, List.replicate (kvDim d) 0)

/-- One chunk merged (R391). -/
def mergePart (acc c : Nat × Nat × List Nat) : Nat × Nat × List Nat :=
  if (ofF32 c.2.1).isZero then acc
  else
    let n := f32Max acc.1 c.1
    let a := f32Exp (f32Sub acc.1 n)
    let b := f32Exp (f32Sub c.1 n)
    (n, f32Fma a acc.2.1 (f32Mul b c.2.1), (acc.2.2.zip c.2.2).map (fun p => f32Fma a p.1 (f32Mul b p.2)))

end Sys2Proof.Machine
end

