-- ==== Sys2Proof/Machine/Kv.lean ====
section
/-! DEFINITION. The commands of the KV service (R368, R381 to R401): pools, windows, and one request at a time. A request
command runs the oldest accepted request of a pool's window when it has the command's opcode. -/

namespace Sys2Proof.Machine

/-! ## Pools (R368, R369, R372) -/

/-- A pool's descriptor, [] while it is not loaded. -/
def poolDesc (s : State) (p : Nat) : List Byte := Tab.get [] s.kvs.pools p

/-- POOL_LOAD: a write of CTL.LOAD reads and checks the descriptor and loads the pool, or records why not. -/
def execPoolLoad (pool : Fin 8) (s : State) : Host.Outcome State Fault Refusal :=
  let p := pool.val
  let (d, rf, po, s) := useRead 577 (s.get (kvsPoolDescAddr p)) 256 0 0 s
  let r := poolReason s p d (rf || po)
  let s := s.set (kvsPoolStatLoadReason p) r
  if r ≠ 0 then done (raise kvsEvtLoadRefused s)
  else
    let s : State := { s with kvs := { s.kvs with pools := Tab.set [] s.kvs.pools p d } }
    done ((s.set kvsStatusLoaded (Nat.lor (s.get kvsStatusLoaded) (2 ^ p))).set (kvsPoolFreePages p) (freeCount s d))

/-- An open window of a pool. -/
def winOf (s : State) (p : Nat) : Option KvWin := Tab.get none s.kvs.wins p

/-- POOL_UNLOAD: the pool is unloaded while no window of it runs; its look-aside entries go. -/
def execPoolUnload (pool : Fin 8) (s : State) : Host.Outcome State Fault Refusal :=
  let p := pool.val
  if (winOf s p).isSome then done s
  else
    let s : State := { s with kvs := { s.kvs with pools := Tab.set [] s.kvs.pools p [] } }
    done (labDrop (fun x => x.1 == p) (s.set kvsStatusLoaded (clearBits (s.get kvsStatusLoaded) (2 ^ p))))

/-- LAB_FLUSH: the pool's look-aside entries are invalidated. -/
def execLabFlush (pool : Fin 8) (s : State) : Host.Outcome State Fault Refusal :=
  done (labDrop (fun x => x.1 == pool.val) s)

/-! ## Windows (R384, R385) -/

/-- Why a window descriptor is rejected: 1 MAGIC, 2 pool not loaded, 3 reserved field; 0 for none. -/
def winReason (s : State) (p : Nat) (b : List Byte) (bad : Bool) : Nat :=
  if bad ∨ leAt b 0 4 ≠ 0x4B565357 then 1
  else if 8 ≤ p ∨ !bitOf (s.get kvsStatusLoaded) p then 2
  else if 2 ≤ leAt b 12 1 ∨ leAt b 13 1 = 0 ∨ 16 < leAt b 13 1 ∨ leAt b 14 18 ≠ 0 then 3
  else 0

/-- A window ends: its engines are returned and its slot completes. -/
def winClose (p : Nat) (s : State) : State :=
  match winOf s p with
  | none => s
  | some w =>
    let s := setWin p none s
    completeSlot w.slot (s.set kvsStatusWindow (clearBits (s.get kvsStatusWindow) (2 ^ p)))

/-- A window that has stopped accepting and has no request left completes. -/
def winDrained (p : Nat) (s : State) : State :=
  match winOf s p with
  | some w => if w.ended ∧ w.queue = [] then winClose p s else s
  | none => s

/-- A window of slot `i` on pool `p` admitted from its descriptor, borrowing idle engines, or rejected. -/
def winOpen (i p : Nat) (b : List Byte) (bad : Bool) (s : State) : State :=
  let r := winReason s p b bad
  if r ≠ 0 then
    fault .plan 1 i r 0 none (cancelDependents i (finishSlot i .cancelled (raise kvsEvtWinReject
      (if p < 8 then s.set (kvsPoolStatWinReason p) r else s))))
  else
    let s := setWin p (some ⟨i, leAt b 4 8, 0, bitOf (leAt b 12 1) 0, leAt b 13 1, false, []⟩) (s.set (kvsPoolStatWinReason p) 0)
    kvBorrow (s.set kvsStatusWindow (Nat.lor (s.get kvsStatusWindow) (2 ^ p)))

/-- KV_WINDOW_START: a KV-service slot reaches START; its window is admitted and borrows idle engines, or is rejected. -/
def execKvWindowStart (slot : Fin 1024) (s : State) : Host.Outcome State Fault Refusal :=
  whole (fun s =>
    let i := slot.val
    let x := slotOf s i
    if !startable s 5 i ∨ (winOf s x.unit).isSome then done s
    else
      let y := useRead 577 x.desc 32 0 0 (startSlot i s)
      done (winOpen i x.unit y.1 (y.2.1 || y.2.2.1) y.2.2.2)) s

/-- The end of a window's time: START + DURATION of its slot. -/
def winTime (s : State) (w : KvWin) : Nat := s.tick.edge + ((slotOf s w.slot).start + (slotOf s w.slot).duration) * 625

/-- KV_REQUEST_ACCEPT: while TAIL differs from HEAD an open window with room takes the next request of the ring (R381,
R400). -/
def execKvRequestAccept (pool : Fin 8) (s : State) : Host.Outcome State Fault Refusal :=
  whole (fun s =>
    let p := pool.val
    let d := poolDesc s p
    match winOf s p with
    | none => done s
    | some w =>
      let t := s.get (kvsPoolTailIndex p)
      if w.ended ∨ winTime s w ≤ s.now ∨ w.accept ≤ w.queue.length ∨ t = s.get (kvsPoolHeadIndex p) then done s
      else
        let (b, _, _, s) := useRead 577 (leAt d 112 8 + 64 * (t % kvRing d)) 64 0 0 s
        done ((setWin p (some { w with queue := w.queue ++ [b] }) s).set (kvsPoolTailIndex p) (t + 1))) s

/-- KV_WINDOW_END: START + DURATION has passed; the window accepts no more, and completes once its queue is empty. -/
def execKvWindowEnd (pool : Fin 8) (s : State) : Host.Outcome State Fault Refusal :=
  let p := pool.val
  match winOf s p with
  | none => done s
  | some w => done (winDrained p (setWin p (some { w with ended := true }) (s.reach (winTime s w))))

/-! ## Requests and completions (R382, R383) -/

def rqOp (r : List Byte) : Nat := leAt r 0 1
def rqFlag (r : List Byte) (i : Nat) : Bool := bitOf (leAt r 1 1) i
def rqLayer (r : List Byte) : Nat := leAt r 2 2
def rqSeq (r : List Byte) : Nat := leAt r 4 4
def rqFirst (r : List Byte) : Nat := leAt r 8 4
def rqCount (r : List Byte) : Nat := leAt r 12 4
def rqBuf (r : List Byte) (i : Nat) : Nat := leAt r (16 + 8 * i) 8

/-- The result of a request: status, VALUE, ranges and MORE. -/
structure KvRes where
  status : Nat
  value : Nat
  ranges : List (Nat × Nat)

/-- A completion written and DONE advanced. -/
def kvComplete (p : Nat) (r : List Byte) (x : KvRes) (s : State) : State :=
  let d := poolDesc s p
  let t := s.get (kvsPoolDoneIndex p)
  let n := min 6 x.ranges.length
  let bs := leBytes 4 (leAt r 56 4) ++ leBytes 1 x.status ++ leBytes 1 (n + (if 6 < x.ranges.length then 128 else 0)) ++
    leBytes 2 0 ++ leBytes 8 x.value ++
    (List.range 6).flatMap (fun i => leBytes 4 (x.ranges.getD i (0, 0)).1 ++ leBytes 4 (x.ranges.getD i (0, 0)).2)
  let (_, s) := useWrite 577 (leAt d 120 8 + 64 * (t % kvRing d)) bs 0 0 s
  let s := raise kvsEvtCpl (s.set (kvsPoolDoneIndex p) (t + 1))
  let s := if x.status = 2 then raise kvsEvtFull s else s
  let s := if x.status = 5 then raise kvsEvtPoison s else s
  if x.status = 4 then fault .kv 1 p x.value 0 none s else s

/-- RETRY for every accepted request of a window; the window ends (R384, R401). -/
def kvRetryAll (p : Nat) (s : State) : State :=
  match winOf s p with
  | none => s
  | some w =>
    let s := setWin p (some { w with queue := [], ended := true }) s
    State.each w.queue (fun r t => kvComplete p r ⟨3, 0, []⟩ t) s

/-- Bytes of an output element. -/
def outBytes (r : List Byte) : Nat := if rqFlag r 2 then 2 else 4

/-- The buffers of a request: (address, bytes). -/
def rqBuffers (s : State) (d r : List Byte) : List (Nat × Nat) :=
  let n := rqCount r
  let q := n * kvQHeads d * kvDim d
  let k := n * kvHeads d * kvDim d
  let op := rqOp r
  if op = 1 then (if rqFlag r 0 then [(rqBuf r 0, 4 * n)] else [])
  else if op = 2 ∧ rqLayer r = 0xFFFF then
    (rqBuf r 2, 8 * n) :: (if seqGrove s d (rqSeq r) then [(rqBuf r 0, 4 * n)] else [])
  else if op = 2 then (if kvLatent d then [(rqBuf r 0, n * kvLatDim d * 4)] else [(rqBuf r 0, 4 * k), (rqBuf r 1, 4 * k)])
  else if op = 3 then
    [(rqBuf r 0, 4 * q), (rqBuf r 1, outBytes r * q), (rqBuf r 2, 8 * n)] ++
      (if rqFlag r 1 then [(rqBuf r 3, 16 * n * kvQHeads d)] else [])
  else if op = 4 then
    [(rqBuf r 0, 4 * q), (rqBuf r 1, 4 * q), (rqBuf r 2, 8 * n), (rqBuf r 3, 16 * n * kvQHeads d),
     (rqBuf r 4, outBytes r * (q + 2 * seqTokens s d (rqSeq r) * kvHeads d * kvDim d))]
  else if op = 7 then [(rqBuf r 0, outBytes r * k), (rqBuf r 1, outBytes r * k)]
  else []

/-- Row records of a request, in the token-record format: POS and SEG. -/
def rowRecs (s : State) (r : List Byte) : List (Nat × Nat) :=
  (List.range (rqCount r)).map (fun i => let w := nodeNat s (rqBuf r 2 + 8 * i) 8; (bits w 0 32, bits w 32 16))

/-- Whether a request is BAD (R383). -/
def rqBad (s : State) (d : List Byte) (w : KvWin) (r : List Byte) : Bool :=
  let op := rqOp r
  let counted := (op == 1 && rqFlag r 0) || op == 2 || op == 3 || op == 4 || op == 5 || op == 7
  let layered := op == 3 || op == 4 || op == 7 || (op == 2 && rqLayer r != 0xFFFF)
  decide (16 ≤ leAt r 1 1) || leAt r 60 4 != 0 || (counted && rqCount r == 0) ||
    (layered && decide (kvLayers d ≤ rqLayer r)) || decide (kvSeqMax d ≤ rqSeq r) ||
    (op == 5 && decide (kvSeqMax d ≤ rqFirst r)) ||
    (op == 2 && decide (kvSeqSpans d * kvSpanTokens d < rqFirst r + rqCount r)) ||
    (rqBuffers s d r).any (fun x => !servedRange s x.1 x.2) ||
    (((op == 2 && rqLayer r == 0xFFFF && kvRopeK d) || ((op == 3 || op == 4) && kvRopeQ d)) &&
      (rowRecs s r).any (fun x => decide (kvRopePos d ≤ x.1))) ||
    ((op == 3 || op == 4 || op == 7) && kvLatent d && !w.matrix)

/-- Spans that hold tokens `t` to `t + n - 1`. -/
def spansOf (d : List Byte) (t n : Nat) : List Nat :=
  if n = 0 then []
  else (List.range ((t + n - 1) / kvSpanTokens d - t / kvSpanTokens d + 1)).map (fun i => t / kvSpanTokens d + i)

/-- The sequence whose spans a request touches, and the spans (R396). -/
def touched (s : State) (d r : List Byte) : Nat × List Nat :=
  let op := rqOp r
  if op = 5 then (rqFirst r, spansOf d 0 (rqCount r))
  else if op = 2 ∨ op = 7 then (rqSeq r, spansOf d (rqFirst r) (rqCount r))
  else if op = 3 ∨ op = 4 then (rqSeq r, spansOf d 0 (seqTokens s d (rqSeq r)))
  else (rqSeq r, [])

/-- Whether a sequence's span is DROPPED. -/
def spanDropped (s : State) (d : List Byte) (q n : Nat) : Bool :=
  match spanRec s d q n with | some r => recState s d r == 2 | none => false

/-- The range of a span below TOKENS (R396). -/
def spanRange (s : State) (d : List Byte) (q n : Nat) : Nat × Nat :=
  (n * kvSpanTokens d, min ((n + 1) * kvSpanTokens d) (seqTokens s d q) - n * kvSpanTokens d)

/-- Whether a meta APPEND prefills dropped spans again: FIRST starts a DROPPED span and COUNT covers its range (R397). -/
def prefills (s : State) (d r : List Byte) : Bool :=
  let q := rqSeq r
  let n := rqFirst r / kvSpanTokens d
  rqOp r == 2 && rqLayer r == 0xFFFF && rqFirst r % kvSpanTokens d == 0 && decide (rqFirst r < seqTokens s d q) &&
    spanDropped s d q n && decide ((spanRange s d q n).2 ≤ rqCount r) && decide (rqFirst r + rqCount r ≤ seqTokens s d q)

/-- The DROPPED spans that make a request end with RECOMPUTE: those it touches and does not prefill whole. -/
def droppedSpans (s : State) (d r : List Byte) : List (Nat × Nat) :=
  let (q, ns) := touched s d r
  ((ns.filter (spanDropped s d q)).filter (fun n =>
    !(prefills s d r && decide ((spanRange s d q n).1 + (spanRange s d q n).2 ≤ rqFirst r + rqCount r)))).map (spanRange s d q)

/-- The logical pages of a layer that hold a token, with their span. -/
def layerPages (d : List Byte) (layer t : Nat) : List (Nat × Nat) :=
  let n := t / kvSpanTokens d
  let u := t % kvSpanTokens d
  if kvLatent d then [(n, streamPage d layer 0 0 u)]
  else (List.range (kvHeads d)).flatMap (fun h => [(n, streamPage d layer h 0 u), (n, streamPage d layer h 1 u)])

/-- The tokens whose K and V a request needs: those visible to some row, or the range of a READ. -/
def neededTokens (s : State) (d r : List Byte) : List Nat :=
  if rqOp r = 7 then (List.range (rqCount r)).map (fun i => rqFirst r + i)
  else
    let rows := (rowRecs s r).eraseDups
    (List.range (seqTokens s d (rqSeq r))).filter (fun t => rows.any (fun x => visible s d (rqSeq r) t x.1 x.2))

/-- Whether a page of a sequence is allocated. -/
def pageThere (s : State) (d : List Byte) (q : Nat) (x : Nat × Nat) : Bool :=
  ((spanRec s d q x.1).bind (fun r => recPage s d r x.2)).isSome

/-- Whether a request meets a sequence in the wrong state (R383). -/
def rqState (s : State) (d r : List Byte) : Bool :=
  let op := rqOp r
  let q := rqSeq r
  if op = 1 then seqOpen s d q
  else if op = 5 then seqOpen s d q || !seqOpen s d (rqFirst r) || decide (seqTokens s d (rqFirst r) < rqCount r)
  else if !seqOpen s d q then true
  else if op = 2 ∧ rqLayer r = 0xFFFF then rqFirst r != seqTokens s d q && !prefills s d r
  else if op = 2 then decide (seqTokens s d q < rqFirst r + rqCount r)
  else if op = 3 ∨ op = 4 then
    (neededTokens s d r).any (fun t => (layerPages d (rqLayer r) t).any (fun x => !pageThere s d q x))
  else if op = 7 then
    decide (seqTokens s d q < rqFirst r + rqCount r) ||
      (neededTokens s d r).any (fun t => !spanDropped s d q (t / kvSpanTokens d) &&
        (layerPages d (rqLayer r) t).any (fun x => !pageThere s d q x))
  else false

/-- The pages that a request writes or reads. -/
def rqPages (s : State) (d r : List Byte) : List (Nat × Nat) :=
  let op := rqOp r
  if op = 2 ∧ rqLayer r = 0xFFFF then (spansOf d (rqFirst r) (rqCount r)).map (fun n => (n, 0))
  else if op = 2 then ((List.range (rqCount r)).flatMap (fun i => layerPages d (rqLayer r) (rqFirst r + i))).eraseDups
  else if op = 3 ∨ op = 4 ∨ op = 7 then ((neededTokens s d r).flatMap (layerPages d (rqLayer r))).eraseDups
  else []

/-- The request that a pool's window runs next. -/
def kvNext (s : State) (p : Nat) : Option (KvWin × List Byte) :=
  (winOf s p).bind (fun w => w.queue.head?.map (fun r => (w, r)))

/-- Whether a request must wait: for a borrowed engine, or for the matrix array (R359, R385). -/
def kvWaits (s : State) (d : List Byte) (w : KvWin) (r : List Byte) : Bool :=
  let op := rqOp r
  let expands := kvLatent d && (op == 3 || op == 4 || op == 7)
  let engine := op == 3 || op == 4 || (op == 2 && rqLayer r != 0xFFFF && kvRopeK d && !kvLatent d) || (expands && kvRopeK d)
  (engine && w.borrowed == 0) || (expands && s.mxa.isSome)

/-- The checks before a request's effect, in the order of R383: 0x06 BAD, 0x07 STATE, 0x01 RECOMPUTE; then `f`. -/
def kvChecked (d : List Byte) (w : KvWin) (r : List Byte) (f : State → KvRes × State) (s : State) : KvRes × State :=
  if rqBad s d w r then (⟨6, 0, []⟩, s)
  else if rqState s d r then (⟨7, 0, []⟩, s)
  else
    let l := droppedSpans s d r
    if l ≠ [] then (⟨1, 0, l⟩, s) else f s

/-- LAST_TICK set in the records of the spans that a request touches (R371). -/
def kvStamp (d r : List Byte) (s : State) : State :=
  State.each ((touched s d r).2.filterMap (spanRec s d (touched s d r).1)) (stampRec d) s

/-- The oldest request taken from a window's queue. -/
def kvTaken (p : Nat) (w : KvWin) (s : State) : State := setWin p (some { w with queue := w.queue.drop 1 }) s

/-- The oldest accepted request of a pool's window run when its opcode is `op`; one with a reserved opcode completes with
BAD. LAST_TICK of the records it touches is set first (R371, R384). -/
def kvRun (op p : Nat) (f : List Byte → KvWin → List Byte → State → KvRes × State) (s : State) : State :=
  let s := kvBorrow s
  let d := poolDesc s p
  match kvNext s p with
  | none => s
  | some (w, r) =>
    let reserved := rqOp r = 0 ∨ 7 < rqOp r
    if ¬ reserved ∧ (rqOp r ≠ op ∨ kvWaits s d w r) then s
    else
      let s := kvTaken p w s
      let (x, s) := if reserved then ((⟨6, 0, []⟩ : KvRes), s) else kvChecked d w r (fun s => f d w r (kvStamp d r s)) s
      winDrained p (kvComplete p r x s)

/-- Success, POISON or EMPTY. -/
def kvOk (poison empty : Bool) (value : Nat) : KvRes := ⟨if poison then 5 else if empty then 8 else 0, value, []⟩

/-- The engine that computes, and its place in the window's mask. -/
def kvEngine (w : KvWin) : Nat × Nat :=
  let e := (lowestBit 64 w.borrowed).getD 0
  (e, popcount 64 (w.mask % 2 ^ e))

/-! ## OPEN, FORK, RELEASE (R377, R379) -/

/-- The hash of a block from its parent's hash (R374). -/
def blockHash (salt hp : Nat) (toks : List Nat) : Nat :=
  let x := toks.foldl (fun (x : BitVec 64) t =>
    let x := (x ^^^ BitVec.ofNat 64 t) * 0xB7E151628AED2A6B#64
    x ^^^ (x >>> 31)) (BitVec.ofNat 64 hp ^^^ BitVec.ofNat 64 salt)
  if x = 0 then 1 else x.toNat

/-- The LIVE entry that matches block `b` (R377). -/
def groveMatch (s : State) (d : List Byte) (h parent b : Nat) : Option Nat :=
  if kvGroveBits d = 0 then none
  else
    ((groveSeen s d h).find? (fun i =>
      let r := nodeNat s (groveAddr d i + 16) 4
      groveLive s d i && nodeNat s (groveAddr d i) 8 == h && nodeNat s (groveAddr d i + 8) 8 == parent &&
        recState s d r == 1 && recSpan s d r == b / spanBlocks d && nodeNat s (groveAddr d i + 20) 2 == b % spanBlocks d)).map
      (fun i => nodeNat s (groveAddr d i + 16) 4)

/-- The records of the matched blocks from block `b` on, and the hash of the last. -/
def matchBlocks (s : State) (d : List Byte) (toks : List Nat) : Nat → Nat → Nat → List Nat × Nat
  | 0, _, hp => ([], hp)
  | k + 1, b, hp =>
    if toks.length < 16 * (b + 1) then ([], hp)
    else
      let h := blockHash (leAt d 104 8) hp ((toks.drop (16 * b)).take 16)
      match groveMatch s d h hp b with
      | none => ([], hp)
      | some r => let (l, x) := matchBlocks s d toks k (b + 1) h; (r :: l, x)

/-- A sequence names a record for a span: REFS up, its pages mapped. -/
def nameRecord (d : List Byte) (q n r : Nat) (s : State) : State :=
  mapRecord d q n r (setRefs d r (recRefs s d r + 1) (putStab d q n (some r) (stampRec d r s)))

/-- The effect of OPEN: with SHARE the records of the matched prefix are named. -/
def kvOpenDo (d r : List Byte) (s : State) : KvRes × State :=
  let q := rqSeq r
  if !rqFlag r 0 then (kvOk false false 0, putSeq d q true (rqFlag r 3) 0 0 0 s)
  else
    let n := rqCount r
    let (b, _, _, s) := useRead 577 (rqBuf r 0) (4 * n) 0 0 s
    let toks := (List.range n).map (fun i => leAt b (4 * i) 4)
    let (rs, h) := matchBlocks s d toks (n / 16 + 1) 0 0
    let m := rs.length
    let spans := (m + spanBlocks d - 1) / spanBlocks d
    let s := State.each (List.range spans) (fun k t =>
      nameRecord d q k (rs.getD (min (spanBlocks d * (k + 1)) m - 1) 0) t) s
    (kvOk false false (16 * m), putSeq d q true (rqFlag r 3) (16 * m) (if m = 0 then 0 else h) spans s)

/-- OPEN: the sequence becomes OPEN, with SHARE naming the records of the matched prefix. -/
def execKvOpen (pool : Fin 8) (s : State) : Host.Outcome State Fault Refusal :=
  whole (fun s =>
    done (kvRun 1 pool (fun d _ r => kvOpenDo d r) s)) s

/-- The effect of FORK. -/
def kvForkDo (d r : List Byte) (s : State) : KvRes × State :=
  let q := rqSeq r
  let src := rqFirst r
  let n := rqCount r
  let ns := spansOf d 0 n
  let whole := n % 16 = 0
  let last := n / 16 - 1
  let h := match spanRec s d src (last / spanBlocks d) with
    | some x => metaHash s d x (last % spanBlocks d)
    | none => 0
  let s := ns.foldl (fun t k => match spanRec t d src k with
    | some x => nameRecord d q k x t
    | none => t) s
  (kvOk false false 0, putSeq d q true (whole && seqGrove s d src) n (if whole then h else 0) ns.length s)

/-- FORK: sequence SEQ opens sharing the first COUNT tokens of sequence FIRST. -/
def execFork (pool : Fin 8) (s : State) : Host.Outcome State Fault Refusal :=
  whole (fun s =>
    done (kvRun 5 pool (fun d _ r => kvForkDo d r) s)) s

/-- The effect of RELEASE. -/
def kvReleaseDo (p : Nat) (d r : List Byte) (s : State) : KvRes × State :=
  let q := rqSeq r
  let s := State.each (namedSpans s d q) (fun x t =>
    putStab d q x.1 none (unrefRecord p d x.2 (unmapRecord d q x.1 x.2 (stampRec d x.2 t)))) s
  (kvOk false false 0, putSeq d q false false 0 0 0 s)

/-- RELEASE: every record the sequence names loses a reference, its pages are unmapped, and it becomes FREE. -/
def execRelease (pool : Fin 8) (s : State) : Host.Outcome State Fault Refusal :=
  whole (fun s =>
    done (kvRun 6 pool (fun d _ r => kvReleaseDo pool d r) s)) s

/-! ## APPEND (R376, R380, R382, R394, R397) -/

/-- The pages of a write made ready: room found, records split or made, pages allocated or copied; FULL or FAULT else. -/
def kvPrepare (p : Nat) (d r : List Byte) (s : State) : Option KvRes × State :=
  let q := rqSeq r
  let pages := rqPages s d r
  let ns := spansOf d (rqFirst r) (rqCount r)
  let anew (n : Nat) : Bool := prefills s d r && spanDropped s d q n
  let fresh := ns.map (fun n => (n, anew n))
  let need := (pages.filter (fun x => needsPage s d q x.1 x.2 (anew x.1))).length
  let recs := (ns.filter (fun n => needsRec s d q n (anew n))).length
  if freeRecs s d < recs then (some ⟨2, 0, []⟩, s)
  else
    let (ok, s) := makeRoom p d [q] need (kvSpanMax d) s
    if !ok then (some ⟨2, 0, []⟩, s)
    else
      match firstFault d q pages true s with
      | (some va, s) => (some ⟨4, va, []⟩, s)
      | (none, s) =>
        let s := State.each fresh (fun x t => writeRecord_ p d q x.1 x.2 t) s
        (none, State.each pages (fun x t => writePage p d q x.1 x.2 t) s)

/-- The hash of a block that a meta APPEND completes: of its token IDs, or a value that the spec does not state where the
request does not hold all of them (assumption 3). -/
def completedHash (d r : List Byte) (hp b : Nat) (s : State) : Nat × State :=
  if rqFirst r ≤ 16 * b then
    (blockHash (leAt d 104 8) hp ((List.range 16).map (fun i => nodeNat s (rqBuf r 0 + 4 * (16 * b + i - rqFirst r)) 4)), s)
  else
    let (v, s) := s.takeFree
    (if v % 2 ^ 64 = 0 then 1 else v % 2 ^ 64, s)

/-- Blocks that tokens `t` to `t + n - 1` complete. -/
def completedBlocks (t n : Nat) : List Nat := (List.range ((t + n) / 16 - t / 16)).map (fun i => t / 16 + i)

/-- The token records written and, in a sequence with GROVE, the completed blocks hashed; TOKENS advances. -/
def appendMeta (d r : List Byte) (again : Bool) (s : State) : State :=
  let q := rqSeq r
  let t0 := rqFirst r
  let n := rqCount r
  let metaPage (s : State) (t : Nat) : Nat :=
    (((spanRec s d q (t / kvSpanTokens d)).bind (fun x => recPage s d x 0)).map (pageAddr d)).getD 0
  let s := State.each (List.range n) (fun i s =>
    let w := nodeNat s (rqBuf r 2 + 8 * i) 8 % 2 ^ 49
    putNat (metaPage s (t0 + i) + 8 * ((t0 + i) % kvSpanTokens d)) 8 w s) s
  if again then s
  else
    let (h, s) := if seqGrove s d q then
        (completedBlocks t0 n).foldl (fun (acc : Nat × State) b =>
          let (h, s) := completedHash d r acc.1 b acc.2
          (h, putNat (metaPage s (16 * b) + 32768 + 8 * (b % spanBlocks d)) 8 h s)) (seqHash s d q, s)
      else (seqHash s d q, s)
    putSeq d q true (seqGrove s d q) (t0 + n) h (max (seqSpans s d q) ((t0 + n + kvSpanTokens d - 1) / kvSpanTokens d)) s

/-- A vector of a token written to its page in the pool's format. -/
def writeVec (p : Nat) (d : List Byte) (q layer head kind t : Nat) (l : List Nat) (s : State) : State :=
  let u := t % kvSpanTokens d
  let (a, s) := pageOf p d q (t / kvSpanTokens d) (streamPage d layer head kind u) true s
  match a with
  | none => s
  | some a =>
    let b := a + tokenByte d u
    let (_, s) := useWrite 577 b (l.flatMap (fun v => leBytes (kvE d) (kvEncode d (laneBits v)))) 0 0 s
    State.each ((l.zipIdx.filter (fun v => lanePoison v.1)).map (fun v => b + kvE d * v.2)) (fun x t => nodePoisonWrite x (kvE d) t) s

/-- A completed block inserted into Grove when every token of it has SEG 0 and POS equal to its index (R375, R376). -/
def groveInsert (p : Nat) (d : List Byte) (q b : Nat) (s : State) : State :=
  match spanRec s d q (b / spanBlocks d) with
  | none => s
  | some r =>
    let h := metaHash s d r (b % spanBlocks d)
    let parent := if b = 0 then 0 else match spanRec s d q ((b - 1) / spanBlocks d) with
      | some x => metaHash s d x ((b - 1) % spanBlocks d)
      | none => 0
    let plain := (List.range 16).all (fun i => tokenRec s d q (16 * b + i) == (16 * b + i, 0, true))
    if h = 0 ∨ !plain ∨ (b ≠ 0 ∧ parent = 0) then s
    else if (groveSeen s d h).any (fun i => groveLive s d i && nodeNat s (groveAddr d i) 8 == h &&
        nodeNat s (groveAddr d i + 8) 8 == parent) then s
    else match (probes d h).find? (fun i => !groveLive s d i) with
    | none => s.bump (kvsPoolCountsGroveMiss p) 1
    | some i => store 577 (groveAddr d i) (leBytes 8 h ++ leBytes 8 parent ++ leBytes 4 r ++ leBytes 2 (b % spanBlocks d) ++
        leBytes 1 1 ++ leBytes 9 0) s

/-- The vectors of a layer APPEND written, keys rotated, and the blocks of the last layer inserted. -/
def appendLayer (p : Nat) (d : List Byte) (w : KvWin) (r : List Byte) (s : State) : Bool × State :=
  let q := rqSeq r
  let layer := rqLayer r
  let e := (kvEngine w).1
  let heads := if kvLatent d then 1 else kvHeads d
  let dim := if kvLatent d then kvLatDim d else kvDim d
  let (bad, s) := (List.range (rqCount r)).foldl (fun (acc : Bool × State) i =>
    (List.range heads).foldl (fun (acc : Bool × State) h =>
      let t := rqFirst r + i
      let o := 4 * ((i * heads + h) * dim)
      let (k, s) := bufRead (rqBuf r 0 + o) dim acc.2
      let (k, s) := if kvRopeK d ∧ ¬ kvLatent d then rotate d e (tokenRec s d q t).1 k s else (k, s)
      let s := writeVec p d q layer h 0 t k s
      if kvLatent d then (acc.1 || k.any lanePoison, s)
      else
        let (v, s) := bufRead (rqBuf r 1 + o) dim s
        (acc.1 || k.any lanePoison || v.any lanePoison, writeVec p d q layer h 1 t v s)) acc) (false, s)
  let s := if layer + 1 = kvLayers d ∧ seqGrove s d q ∧ kvGroveBits d ≠ 0 then
      State.each (completedBlocks (rqFirst r) (rqCount r)) (groveInsert p d q) s
    else s
  (bad, s)

/-- The effect of APPEND. -/
def kvAppendDo (p : Nat) (d : List Byte) (w : KvWin) (r : List Byte) (s : State) : KvRes × State :=
  let again := prefills s d r
  match kvPrepare p d r s with
  | (some x, s) => (x, s)
  | (none, s) =>
    if rqLayer r = 0xFFFF then (kvOk false false 0, appendMeta d r again s)
    else
      let (bad, s) := appendLayer p d w r s
      (kvOk bad false 0, s)

/-- APPEND: token records, or a layer's K and V or latents, written; spans made, split and prefilled, pages allocated,
copied and found by dropping records. -/
def execAppend (pool : Fin 8) (s : State) : Host.Outcome State Fault Refusal :=
  whole (fun s =>
    done (kvRun 2 pool (kvAppendDo pool) s)) s

/-! ## ATTEND, ATTEND_BWD, READ (R390 to R393) -/

/-- The query rows of a request, rotated where the pool asks: per row, per query head. -/
def loadQueries (d : List Byte) (e : Nat) (r : List Byte) (s : State) : List (List (List Nat)) × State :=
  let rows := rowRecs s r
  let n := kvDim d
  (List.range (rqCount r)).foldl (fun (acc : List (List (List Nat)) × State) i =>
    let (hs, s) := (List.range (kvQHeads d)).foldl (fun (acc : List (List Nat) × State) h =>
      let (q, s) := bufRead (rqBuf r 0 + 4 * ((i * kvQHeads d + h) * n)) n acc.2
      let (q, s) := if kvRopeQ d then rotate d e (rows.getD i (0, 0)).1 q s else (q, s)
      (acc.1 ++ [q], s)) ([], acc.2)
    (acc.1 ++ [hs], s)) ([], s)

/-- K and V of every chunk of a sequence: per token, per KV head. -/
def loadSeq (p : Nat) (d : List Byte) (w : KvWin) (q layer : Nat) (s : State) : List (List (List Nat × List Nat)) × State :=
  let n := seqTokens s d q
  let c := kvChunk d
  let (e, j) := kvEngine w
  let s := touchMeta d q 0 n s
  (List.range ((n + c - 1) / c)).foldl (fun (acc : List (List (List Nat × List Nat)) × State) i =>
    let (l, s) := loadKv p d q layer j e (c * i) (min c (n - c * i)) acc.2
    (acc.1 ++ l, s)) ([], s)

/-- Whether any lane of a vector is poisoned, and a vector with every lane marked. -/
def anyPoison (l : List Nat) : Bool := l.any lanePoison
def withPoison (b : Bool) (l : List Nat) : List Nat := l.map (fun v => lane (laneBits v) b)

/-- One query row and head over the visible tokens of each chunk: M, L, the output, and poison. -/
def attendOne (d : List Byte) (vis : Nat → Bool) (kv : List (List (List Nat × List Nat))) (h : Nat) (q : List Nat) :
    Nat × Nat × List Nat × Bool :=
  let c := kvChunk d
  let at_ (t : Nat) : List Nat × List Nat := (kv.getD t []).getD (h / kvGroup d) ([], [])
  let seen (i : Nat) : List (List Nat × List Nat) :=
    (((List.range c).map (fun k => c * i + k)).filter (fun t => decide (t < kv.length) && vis t)).map at_
  let m := (List.range ((kv.length + c - 1) / c)).foldl (fun acc i => mergePart acc (chunkPart d q (seen i)))
    (negInf, 0, List.replicate (kvDim d) 0)
  let bad := anyPoison q || (List.range kv.length).any (fun t => vis t && (anyPoison (at_ t).1 || anyPoison (at_ t).2))
  (m.1, m.2.1, m.2.2.map (fun o => if (ofF32 m.2.1).isZero then 0 else f32Div o m.2.1), bad)

/-- A request whose pages must translate: FAULT with the first address that does not, else `f` (R373). -/
def kvMapped (f : List Byte → KvWin → List Byte → State → KvRes × State) (d : List Byte) (w : KvWin) (r : List Byte)
    (s : State) : KvRes × State :=
  match firstFault d (rqSeq r) (rqPages s d r) false s with
  | (some va, s) => (⟨4, va, []⟩, s)
  | (none, s) => f d w r s

/-- The effect of ATTEND once its pages translate. -/
def kvAttendDo (p : Nat) (d : List Byte) (w : KvWin) (r : List Byte) (s : State) : KvRes × State :=
  let q := rqSeq r
  let rows := rowRecs s r
  let (qs, s) := loadQueries d (kvEngine w).1 r s
  let (kv, s) := loadSeq p d w q (rqLayer r) s
  let out := (List.range (rqCount r)).map (fun i => (List.range (kvQHeads d)).map (fun h =>
    let x := rows.getD i (0, 0)
    attendOne d (fun t => visible s d q t x.1 x.2) kv h ((qs.getD i []).getD h [])))
  let flat := out.flatten
  let s := bufWrite (rqBuf r 1) (rqFlag r 2) (flat.flatMap (fun x => withPoison x.2.2.2 x.2.2.1)) s
  let s := if rqFlag r 1 then
      bufWrite (rqBuf r 3) false (flat.flatMap (fun x => withPoison x.2.2.2 [x.1, x.2.1, 0, 0])) s
    else s
  (kvOk (flat.any (fun x => x.2.2.2)) (flat.any (fun x => (ofF32 x.2.1).isZero)) 0, s)

/-- ATTEND: chunked decode attention of the query rows. -/
def execAttend (pool : Fin 8) (s : State) : Host.Outcome State Fault Refusal :=
  whole (fun s =>
    done (kvRun 3 pool (kvMapped (kvAttendDo pool)) s)) s

/-- What one query row and head adds in the backward pass: dQ, and for each token (g, p), none where it is not visible. -/
def backOne (d : List Byte) (vis : Nat → Bool) (kv : List (List Nat × List Nat)) (q dO stats : List Nat) :
    List Nat × List (Option (Nat × Nat)) :=
  let m := laneBits (stats.getD 0 0)
  let l := laneBits (stats.getD 1 0)
  let dd := laneBits (stats.getD 2 0)
  kv.zipIdx.foldl (fun (acc : List Nat × List (Option (Nat × Nat))) x =>
    if !vis x.2 then (acc.1, acc.2 ++ [none])
    else
      let p := f32Div (f32Exp (f32Sub (score d q x.1.1) m)) l
      let g := f32Mul (f32Mul p (f32Sub (dotFma dO x.1.2) dd)) (kvScale d)
      (axpy g x.1.1 acc.1, acc.2 ++ [some (g, p)])) (List.replicate (kvDim d) 0, [])

/-- Vectors read in the output format as FP32 lanes. -/
def outRead (bf16 : Bool) (a n : Nat) (s : State) : List Nat × State :=
  if !bf16 then bufRead a n s
  else
    let (g, s) := useGet 577 a (2 * n) 0 0 none s
    ((List.range n).map (fun i => lane (leAt g.bytes (2 * i) 2 * 2 ^ 16) (g.bad.getD (2 * i) false)), s)

/-- A gradient vector with one row's and head's share added, poison carried. -/
def addGrad (w : Option Nat) (x : List Nat) (bad : Bool) (o : List Nat) : List Nat :=
  match w with
  | none => o
  | some w => (axpy w x (o.map laneBits)).zip o |>.map (fun p => lane p.1 (bad || lanePoison p.2))

/-- The effect of ATTEND_BWD once its pages translate. -/
def kvBackDo (p : Nat) (d : List Byte) (w : KvWin) (r : List Byte) (s : State) : KvRes × State :=
  let q := rqSeq r
  let n := kvDim d
  let heads := kvQHeads d
  let rows := rowRecs s r
  let (qs, s) := loadQueries d (kvEngine w).1 r s
  let (kv, s) := loadSeq p d w q (rqLayer r) s
  let (dos, s) := bufRead (rqBuf r 1) (rqCount r * heads * n) s
  let (sts, s) := bufRead (rqBuf r 3) (rqCount r * heads * 4) s
  let tk := kv.length
  let ob := outBytes r
  let kBase := rqBuf r 4 + ob * (rqCount r * heads * n)
  let vBase := kBase + ob * (tk * kvHeads d * n)
  let (dk, s) := outRead (rqFlag r 2) kBase (tk * kvHeads d * n) s
  let (dv, s) := outRead (rqFlag r 2) vBase (tk * kvHeads d * n) s
  let cut (l : List Nat) : List (List Nat) := (List.range (tk * kvHeads d)).map (fun i => (l.drop (n * i)).take n)
  let (dq, dk, dv, bad) := (List.range (rqCount r * heads)).foldl
    (fun (acc : List Nat × List (List Nat) × List (List Nat) × Bool) i =>
      let (dq, dk, dv, bad) := acc
      let row := i / heads
      let h := i % heads / kvGroup d
      let x := rows.getD row (0, 0)
      let qv := (qs.getD row []).getD (i % heads) []
      let dO := (dos.drop (n * i)).take n
      let st := (sts.drop (4 * i)).take 4
      let col := kv.map (fun t => t.getD h ([], []))
      let vis (t : Nat) : Bool := visible s d q t x.1 x.2
      let own := anyPoison qv || anyPoison dO || anyPoison (st.take 3)
      let tokBad (t : Nat) : Bool := anyPoison (col.getD t ([], [])).1 || anyPoison (col.getD t ([], [])).2
      let rowBad := own || (List.range tk).any (fun t => vis t && tokBad t)
      let (g, ps) := backOne d vis col qv dO st
      let upd (f : Nat × Nat → Nat) (v : List Nat) (l : List (List Nat)) : List (List Nat) :=
        l.zipIdx.map (fun y =>
          if y.2 % kvHeads d = h then addGrad ((ps.getD (y.2 / kvHeads d) none).map f) v (own || tokBad (y.2 / kvHeads d)) y.1
          else y.1)
      (dq ++ withPoison rowBad g, upd Prod.fst qv dk, upd Prod.snd dO dv, bad || rowBad)) ([], cut dk, cut dv, false)
  let s := bufWrite (rqBuf r 4) (rqFlag r 2) dq s
  let s := bufWrite kBase (rqFlag r 2) dk.flatten s
  let s := bufWrite vBase (rqFlag r 2) dv.flatten s
  (kvOk bad (rows.any (fun x => (List.range tk).all (fun t => !visible s d q t x.1 x.2))) 0, s)

/-- ATTEND_BWD: scores recomputed; dQ written, dK and dV accumulated in the regions after it, rows, heads and tokens
ascending (R392). -/
def execAttendBwd (pool : Fin 8) (s : State) : Host.Outcome State Fault Refusal :=
  whole (fun s =>
    done (kvRun 4 pool (kvMapped (kvBackDo pool)) s)) s

/-- The effect of a READ once its pages translate. -/
def kvReadDo (p : Nat) (d : List Byte) (w : KvWin) (r : List Byte) (s : State) : KvRes × State :=
  let q := rqSeq r
  let c := kvChunk d
  let (e, j) := kvEngine w
  let (kv, s) := (List.range ((rqCount r + c - 1) / c)).foldl
    (fun (acc : List (List (List Nat × List Nat)) × State) i =>
      let (l, s) := loadKv p d q (rqLayer r) j e (rqFirst r + c * i) (min c (rqCount r - c * i)) acc.2
      (acc.1 ++ l, s)) ([], s)
  let ks := kv.flatMap (fun t => t.flatMap Prod.fst)
  let vs := kv.flatMap (fun t => t.flatMap Prod.snd)
  let s := bufWrite (rqBuf r 0) (rqFlag r 2) ks s
  let s := bufWrite (rqBuf r 1) (rqFlag r 2) vs s
  (kvOk (anyPoison ks || anyPoison vs) false 0, s)

/-- KV_READ: K and V of a layer for a range of tokens copied to the buffers, latents expanded first. -/
def execKvRead (pool : Fin 8) (s : State) : Host.Outcome State Fault Refusal :=
  whole (fun s =>
    done (kvRun 7 pool (kvMapped (kvReadDo pool)) s)) s

end Sys2Proof.Machine
end

