-- ==== Sys2Proof/Machine/Module.lean ====
section
/-! DEFINITION. The module in its slot (chapter 14): the power sequencer, trips, cooling, the ejector, the reference and the
link loss that touches it. -/

namespace Sys2Proof.Machine

/-- The module's own state changed. -/
def State.onMod (f : ModState → ModState) (s : State) : State := { s with mod := f s.mod }

/-! ## Power (R457 to R462, R474, R475) -/

/-- Every register field that survives the loss of switched power: the NV fields, and what the power sequencer holds while
VIN_48 stays applied (R476). -/
def keptUnpowered (s : State) : State :=
  ({ s with regs := [] }.set idModuleStatMgtAddr (s.get idModuleStatMgtAddr)).set idModuleStatLastTrip
    (s.get idModuleStatLastTrip)

/-- The main switch off: every die state and both tiers are lost; the flash, the fuses, the straps and LAST_TRIP stay
(R458, R460, R462). The host sees the link go down (R603). -/
def powerOff (s : State) : State :=
  { State.reset with
    pending := s.pending, regs := (keptUnpowered s).regs, now := s.now, free := s.free, sent := s.sent, flash := s.flash
    boot := { BootState.reset with uid := s.boot.uid, keyHash := s.boot.keyHash, revoked := s.boot.revoked, svn := s.boot.svn }
    mod := { s.mod with seq := 0, leakLow := false } }

/-- PRESENCE_DEBOUNCE: PRES_N has read low for 20 ms with VIN_48 in range, and the sequencer turns the switch on and ramps.
After a trip it does so only once VIN_48 has been removed and applied again (`fresh`), which also clears what the
sequencer held (R457, R462, R474). -/
def execPresenceDebounce (fresh : Bool) (s : State) : Host.Outcome State Fault Refusal :=
  if s.mod.seq ≠ 0 then done s
  else
    let s := if fresh then
        ((s.set idModuleStatLastTrip 0).set idModuleStatMgtAddr 0).onMod (fun m => { m with tripped := false }) else s
    let s := s.onMod (fun m => { m with present := true, vin := true })
    if s.mod.tripped then done s else done (s.onMod (fun m => { m with seq := 1 }))

/-- PRESENCE_LOST: PRES_N reads high and the switch goes off, whatever the state of the node (R458, R474). -/
def execPresenceLost (s : State) : Host.Outcome State Fault Refusal :=
  done ((powerOff s).onMod (fun m => { m with present := false }))

/-- RAMP_COMPLETE: the switched input is at VIN_48; POWER is steady and the rail sequence begins (R457, R461). -/
def execRampComplete (s : State) : Host.Outcome State Fault Refusal :=
  if s.mod.seq = 1 then done (s.onMod (fun m => { m with seq := 2 })) else done s

/-- RAIL_POWER_GOOD: the next rail step begins; the first power-good samples the address straps, and after the last rail
the die is ready to leave reset (R454, R461). -/
def execRailPowerGood (straps : Fin 8) (s : State) : Host.Outcome State Fault Refusal :=
  if s.mod.seq < 2 ∨ 8 ≤ s.mod.seq then done s
  else
    let s := if s.mod.seq = 2 then s.set idModuleStatMgtAddr straps.val else s
    done (s.onMod (fun m => { m with seq := m.seq + 1 }))

/-- TRIP: the main switch turns off and the cause is latched in LAST_TRIP (R460, R475). Causes are numbered from 1. -/
def execTrip (cause : Fin 6) (s : State) : Host.Outcome State Fault Refusal :=
  if s.mod.seq = 0 then done s
  else
    let s := powerOff (s.set idModuleStatLastTrip (cause.val + 1))
    done (s.onMod (fun m => { m with tripped := true, tripAt := s.now }))

/-- VIN_LOW: input voltage (10 mV) below 42 V for 1 ms: the event, and a power fault with the input power in W (R460). -/
def execVinLow (volts amps : BitVec 16) (s : State) : Host.Outcome State Fault Refusal :=
  let v := volts.toNat
  let i := amps.toNat
  if 4200 ≤ v then done s
  else done (fault .power 1 0 (v * i / 10000) 0 none (raise idModuleEvtVinLow ((s.set idVinVolts v).set idVinAmps i)))

/-! ## Cooling (R465, R524) -/

/-- COOL_LOSS: COOL_OK has read low for 1 s: the event and its alert, a cooling fault, and Fumarole's limit. -/
def execCoolLoss (s : State) : Host.Outcome State Fault Refusal :=
  let s := sample (s.onMod (fun m => { m with coolOk := false }))
  done (fault .cooling 1 0 0 8 none (raiseAlert idModuleEvtCoolLoss 1 (s.set fumStatusCoolLimit 1)))

/-- COOL_LIMIT_LIFT: COOL_OK has read high for 10 s without interruption. -/
def execCoolLimitLift (s : State) : Host.Outcome State Fault Refusal :=
  done ((sample (s.onMod (fun m => { m with coolOk := true }))).set fumStatusCoolLimit 0)

/-- LEAK: COOL_LEAK_N is driven low, the event and its alert set, a cooling fault recorded; power is not cut. -/
def execLeak (s : State) : Host.Outcome State Fault Refusal :=
  let s := sample (s.onMod (fun m => { m with leak := true, leakLow := true }))
  done (fault .cooling 2 0 0 0 none (raiseAlert idModuleEvtLeak 0 s))

/-! ## Ejector and reference (R467, R472) -/

/-- EJECT_OPENED: the event and EJECT_OPEN; nothing else. -/
def execEjectOpened (s : State) : Host.Outcome State Fault Refusal :=
  done (raise idModuleEvtEjectOpened (sample (s.onMod (fun m => { m with ejectOpen := true }))))

/-- EJECT_CLOSED: the lever closed. -/
def execEjectClosed (s : State) : Host.Outcome State Fault Refusal :=
  done (raise idModuleEvtEjectClosed (sample (s.onMod (fun m => { m with ejectOpen := false }))))

/-- REFERENCE_RELOCK: the reference PLL is locked to its source again, and phase correction resumes. -/
def execReferenceRelock (s : State) : Host.Outcome State Fault Refusal := done (s.set idClkStatLocked 1)

/-- LOSS_OF_SIGNAL: loss of signal or lock for more than 1 µs: a LOS claim and retraining, or DOWN with LOS; a reference
recovered from the port goes to HOLDOVER (R79, R87, R467). -/
def execLossOfSignal (port : Fin 16) (canRetrain : Bool) (s : State) : Host.Outcome State Fault Refusal :=
  done (lossOfSignal port.val canRetrain s)

end Sys2Proof.Machine
end

