-- ==== Sys2Proof/Machine/Power.lean ====
section
/-! DEFINITION. Fumarole (chapter 16): the temperature classes and self-refresh, the telemetry record, the throttle, and
the power states A0, A1, P1. Readings of sensors come from outside, as operands. -/

namespace Sys2Proof.Machine

/-- Fumarole's own state changed. -/
def State.onFum (f : FumState → FumState) (s : State) : State := { s with fum := f s.fum }

/-! ## Temperature classes (R236, R237, R516 to R522) -/

/-- A late notice of this node for the current tick: to its own commit logic at the timekeeper, else upstream (R520). -/
def sendLateNotice (s : State) : State :=
  let s := (s.bump fumCountLate 1).onFum (fun f => { f with lateTick := true })
  if s.flag tickStatusTk then takeNotice s else sendUp (holdMsg s 1 0) s

/-- A stack becomes critical: its batch suspends, the late notice leaves while the node is locked, OUT and EVT.CRITICAL
are set and a thermal fault is recorded (R520, R531). -/
def enterCritical (st : Nat) (s : State) : State :=
  let s := rlSuspend st s
  let lock := s.get tickStatusLock
  let s := if lock = 2 ∨ lock = 3 then sendLateNotice s else s
  let s := (s.set fumStatusOut 1).onFum (fun f => { f with rejoin := false, clearOut := false })
  fault .thermal 1 st (s.get (hbmTempDegC st)) 9 none (raiseAlert fumEvtCritical 4 s)

/-- A stack's class changes: the registers follow in the same cycle, with EVT.CLASS_CHANGE (R236); entry to hot sets its
event, entry to critical acts unless the tiers are already in self-refresh for P1 (R516, R518, R532). -/
def setClass (st k : Nat) (s : State) : State :=
  let old := s.get (hbmTempClass st)
  let hot := s.get fumStatusHot
  let s := (s.set (hbmTempClass st) k).set fumStatusHot
    (if 2 ≤ k then Nat.lor hot (2 ^ st) else clearBits hot (2 ^ st))
  let s := if k = old then s else raise (hbmEvtClassChange st) s
  let s := if k = 2 ∧ old < 2 then raise fumEvtHot s else s
  if k = 3 ∧ old ≠ 3 ∧ s.get fumStatusState < 2 then enterCritical st s else s

/-- TEMP_READ: a reading in whole °C, or no answer; the third silent read in a row makes the stack critical (R236 to R238). -/
def execTempRead (stack : Fin 8) (reading : Option (Fin 256)) (s : State) : Host.Outcome State Fault Refusal :=
  let st := stack.val
  match reading with
  | some r =>
    let s := { s with care := { s.care with silent := Tab.set 0 s.care.silent st 0 } }
    let s := ((s.set (hbmTempDegC st) r.val).set (hbmTempMax st) (max (s.get (hbmTempMax st)) r.val)).set (hbmTempSensorFail st) 0
    done (setClass st (nextClass (s.get (hbmTempClass st)) r.val) s)
  | none =>
    let n := Tab.get 0 s.care.silent st + 1
    let s := { s with care := { s.care with silent := Tab.set 0 s.care.silent st n } }
    if n = 3 then
      let s := fault .thermal 2 st (s.get (hbmTempDegC st)) 9 none (s.set (hbmTempSensorFail st) 1)
      done (setClass st 3 s)
    else done s

/-- The channels of a stack. -/
def stackChan (st c : Nat) : Bool := decide (c < 256) && c / 32 == st

/-- A tier's remaps completed and its generators stopped, as its channels enter self-refresh (R243, R244). -/
def quiesceChans (p : Nat → Bool) (s : State) : State :=
  State.each ((List.range 288).filter p) tgAbort (softRemapsEnd p s)

/-- STACK_SELF_REFRESH: a critical stack's commands have completed and it enters self-refresh (R520). -/
def execStackSelfRefresh (stack : Fin 8) (s : State) : Host.Outcome State Fault Refusal :=
  let st := stack.val
  if s.get (hbmTempClass st) ≠ 3 ∨ 2 ≤ s.get fumStatusState then done s
  else
    let s := quiesceChans (stackChan st) s
    done (s.set fumStatusSelfRefresh (Nat.lor (s.get fumStatusSelfRefresh) (2 ^ st)))

/-- REJOIN_READY, once no stack is critical and none is in self-refresh (R522). -/
def rejoinReady (s : State) : State :=
  if s.flag fumStatusOut ∧ s.get fumStatusSelfRefresh = 0 ∧ (List.range 8).all (fun i => s.get (hbmTempClass i) != 3) then
    (raise fumEvtRejoinReady s).onFum (fun f => { f with rejoin := true })
  else s

/-- SELF_REFRESH_EXIT: a stack whose class has fallen to warm or normal leaves self-refresh, and its row logic resumes
(R522, R273). -/
def execSelfRefreshExit (stack : Fin 8) (s : State) : Host.Outcome State Fault Refusal :=
  let st := stack.val
  if 2 ≤ s.get (hbmTempClass st) ∨ !s.flag fumStatusOut ∨ 2 ≤ s.get fumStatusState then done s
  else done (rejoinReady (rlResume st (s.set fumStatusSelfRefresh (clearBits (s.get fumStatusSelfRefresh) (2 ^ st)))))

/-! ## Budget and throttle (R512 to R514) -/

/-- The budget that Fumarole applies, in W (R512). -/
def appliedBudget (s : State) : Nat :=
  let b := s.get fumBudgetWatts
  let b := if s.flag tickStatusBankEmpty then min b 450 else b
  if s.flag fumStatusCoolLimit then min b (s.get fumCoolWatts) else b

/-- The throttle level set; reaching 15 sets its event. -/
def setLevel (l : Nat) (s : State) : State :=
  let old := s.get fumStatusLevel
  let s := s.set fumStatusLevel l
  if l = 15 ∧ old ≠ 15 then raise fumEvtLevel15 s else s

/-- THROTTLE_UPDATE: every 1 ms, from input power over 1 ms and 1 s (0.1 W), the hottest die sensor (0.5 °C) and the input
current (10 mA): the holds at 15 end below 33 A and 105 °C, the level moves by one, and 10 s above the budget are a power
fault (R513). -/
def execThrottleUpdate (pMs pS dieMax iin : Nat) (s : State) : Host.Outcome State Fault Refusal :=
  let b := appliedBudget s
  let s := s.onFum (fun f => { f with ocHold := f.ocHold && decide (3300 ≤ iin), dieHold := f.dieHold && decide (210 ≤ dieMax) })
  let l := s.get fumStatusLevel
  let new :=
    if s.fum.ocHold || s.fum.dieHold then 15
    else if 10 * b < pMs ∧ 310 * b < 32 * pS then min (l + 1) 15
    else if 8 * pMs < 70 * b ∧ 0 < l ∧ dieMax < 200 then l - 1 else l
  let s := setLevel new s
  if 10 * b < pS then
    let s := (raise fumEvtOver s).onFum (fun f => { f with overMs := f.overMs + 1 })
    done (if s.fum.overMs % 10000 = 0 then fault .power 2 0 (pS / 10) 8 none s else s)
  else done (s.onFum (fun f => { f with overMs := 0 }))

/-- OVERCURRENT_THROTTLE: input current above 36 A for 100 µs; the level goes to 15 and is held there. -/
def execOvercurrentThrottle (s : State) : Host.Outcome State Fault Refusal :=
  done (setLevel 15 (s.onFum (fun f => { f with ocHold := true })))

/-- DIE_HOT_THROTTLE: a die sensor reads 110 °C; the level goes to 15 and is held there. -/
def execDieHotThrottle (s : State) : Host.Outcome State Fault Refusal :=
  done (setLevel 15 (s.onFum (fun f => { f with dieHold := true })))

/-- DIE_HOT: a die sensor reaches 100 °C. -/
def execDieHot (s : State) : Host.Outcome State Fault Refusal := done (raise fumEvtDieHot s)

/-! ## The telemetry record (R510, R511) -/

/-- The total behind each counter of the record, by index: reads that cleared a register are added back. -/
def telTotal (s : State) (k : Nat) : Nat :=
  let sum (n : Nat) (f : Nat → Fld) : Nat := ((List.range n).map (fun i => s.get (f i))).sum
  let moved (t : Nat) : Nat :=
    ((List.range 16).map (fun p => if s.get (memPartCfgTier p) = t then s.get (memPartBytesCount p) else 0)).sum / 256
  let now :=
    match k with
    | 0 => sum 64 upeComputeCycCount
    | 1 => sum 64 upeWaitCycCount
    | 2 => moved 0
    | 3 => moved 1
    | 4 => s.get (memLossCount 6) + s.get (memLossCount 14)
    | 5 => s.get (memLossCount 1) + s.get (memLossCount 9)
    | 6 => sum 16 elvFlitsTxCount
    | 7 => sum 16 elvFlitsRxCount
    | 8 => sum 16 elvReplayReplays
    | 9 => sum 16 elvErrCrc
    | 10 => s.get mxaBusyCycCount
    | 11 => s.rlg.acts
    | 12 => s.get fumCapCycCount
    | _ => s.get memCacheMissesCount
  now + Tab.get 0 s.fum.lost k

/-- The increment of a counter since the last record, saturating in `n` bytes. -/
def telDelta (s : State) (k n : Nat) : List Byte :=
  leBytes n (min (telTotal s k - Tab.get 0 s.fum.prev k) (256 ^ n - 1))

/-- The 256 bytes of a record: `tel` gives the sensor readings at the places of bytes 16 to 115. -/
def telBytes (s : State) (tick : Nat) (unlocked : Bool) (tel : List Byte) : List Byte :=
  let at_ (o n : Nat) : List Byte := slice tel (o - 16) n
  let flags := b2n (decide (0 < s.get fumStatusLevel)) + 2 * b2n s.fum.heldTick + 4 * b2n s.fum.lateTick +
    8 * s.get fumStatusOut + 16 * b2n ((List.range 8).any (fun i => s.flag (hbmTempSensorFail i))) +
    32 * b2n (!s.mod.coolOk) + 64 * b2n s.mod.leak + 128 * b2n unlocked
  let cls := ((List.range 8).map (fun i => s.get (hbmTempClass i) * 4 ^ i)).sum
  let body := leBytes 8 tick ++ leBytes 2 (ownId s) ++ leBytes 1 1 ++ leBytes 1 flags ++ leBytes 1 (s.get fumStatusState) ++
    leBytes 1 (s.get fumStatusLevel) ++ leBytes 1 s.tick.ext ++ [0] ++ at_ 16 8 ++ leBytes 2 (s.get fumBudgetWatts) ++
    at_ 26 8 ++ leBytes 2 0 ++ ((List.range 8).flatMap (fun i => leBytes 1 (s.get (hbmTempDegC i)))) ++ leBytes 2 cls ++
    at_ 46 1 ++ [0] ++ at_ 48 48 ++ at_ 96 20 ++ leBytes 12 0 ++
    ((List.range 8).flatMap (fun k => telDelta s k 4)) ++ telDelta s 8 2 ++ telDelta s 9 2 ++
    ((List.range 4).flatMap (fun k => telDelta s (10 + k) 4)) ++ leBytes 72 0
  body ++ leBytes 4 (crc32c body)

/-- The sensor readings that registers show: input, coolant and energy. -/
def telSensors (tel : List Byte) (s : State) : State :=
  ((((s.set idVinVolts (leAt tel 10 2)).set idVinAmps (leAt tel 12 2)).set idCoolantInlet (leAt tel 14 2)).set
    idCoolantOutlet (leAt tel 16 2)).set fumEnergyUj (s.get fumEnergyUj + leAt tel 0 4)

/-- A record to the local ring, at HEAD modulo ENTRIES (R511). -/
def telRing (r : List Byte) (s : State) : State :=
  let n := s.get telRingCtlEntries
  if n = 0 then s
  else
    let h := s.get telRingHeadIndex
    (store nodeReq (s.get telRingBaseAddr + 256 * (h % n)) r s).set telRingHeadIndex (h + 1)

/-- A TELEMETRY packet: sent and counted, or dropped and counted when it finds no VC 3 credit within 1 µs. The spec gives
neither a partner's buffer nor the moment of its credits, so a free value decides; a packet to this node needs no credit
(R511, R72; DESIGN CHOICE, assumption 22). -/
def telPacket (dst : Nat) (r : List Byte) (s : State) : State :=
  if dst = ownId s then (sendMgmt dst 0x49 r s).bump telStatSent 1
  else
    let (v, s) := s.takeFree
    if v % 2 = 1 then s.bump telStatDropped 1 else (sendMgmt dst 0x49 r s).bump telStatSent 1

/-- Every n-th record as a TELEMETRY packet to the destination that DEST_SEL selects (R511). -/
def telSend (tick : Nat) (r : List Byte) (s : State) : State :=
  let n := s.get telCtlEvery
  if n = 0 ∨ tick % n ≠ 0 ∨ !fabricOn s then s
  else
    match s.get telCtlDestSel with
    | 0 => telPacket (s.get tickTkNode) r s
    | 1 => telPacket (s.get fabMgmtNodeNode) r s
    | 2 => telPacket (s.get telDestNode) r s
    | _ => s

/-- One record written and delivered; the interval's marks and counters start anew. -/
def telemetryRecord (tick : Nat) (unlocked : Bool) (tel : List Byte) (s : State) : State :=
  let s := telSensors tel s
  let r := telBytes s tick unlocked tel
  let prev := (List.range 14).foldl (fun t k => Tab.set 0 t k (telTotal s k)) s.fum.prev
  let last := r.zipIdx.foldl (fun t x => Tab.set 0 t x.2 x.1) []
  let s := s.onFum (fun f => { f with prev := prev, last := last, heldTick := false, lateTick := false })
  telSend tick r (telRing r s)

/-- TELEMETRY_INTERVAL: every 16,000 core cycles while the node is UNLOCKED or ACQUIRING, with FLAGS[7] set (R510). -/
def execTelemetryInterval (tel : List Byte) (s : State) : Host.Outcome State Fault Refusal :=
  if s.get tickStatusLock < 2 then done (telemetryRecord (s.get tickCountCount) true tel s) else done s

/-! ## Power states (R525 to R528, R532) -/

/-- Whether an engine, a stream context, a matrix job, a row-logic batch or a KV window runs (R527). -/
def workRuns (s : State) : Bool :=
  s.upe.any (fun e => e.2.active) || s.str.ctx.any (fun c => c.2.active) || s.mxa.isSome ||
    s.rlg.batches.any (fun b => b.2.isSome) || s.kvs.wins.any (fun w => w.2.isSome)

/-- P1_ENTRY: GO with REQ 2: the node starts into P1 when no plan is active and nothing runs; every UP port asks for LP;
otherwise REFUSED (R81, R527). -/
def execP1Entry (s : State) : Host.Outcome State Fault Refusal :=
  let s := s.set fumPstateReq 2
  if !s.flag tickStatusBankEmpty ∨ workRuns s ∨ 2 ≤ s.get fumStatusState ∨ s.fum.transition ≠ 0 then
    done (raise fumPstateRefused s)
  else
    let s := State.each (List.range 16) lpAsk s
    done ((s.set fumPstateBusy 1).onFum (fun f => { f with transition := 1 }))

/-- P1_EXIT: GO with REQ 0: the node starts out of P1; every LP port sends LP exit and retrains (R81, R527). -/
def execP1Exit (s : State) : Host.Outcome State Fault Refusal :=
  let s := s.set fumPstateReq 0
  if s.get fumStatusState ≠ 2 ∨ s.fum.transition ≠ 0 then done s
  else done ((s.set fumPstateBusy 1).onFum (fun f => { f with transition := 2 }))

/-- The transition into P1 ends: tiers in self-refresh, remaps completed, generators stopped, row logic saved (R244,
R273, R525). -/
def p1Enter (s : State) : State :=
  (State.each (List.range 8) rlSuspend (quiesceChans (fun _ => true) s)).set fumStatusState 2

/-- The transition out of P1 ends: the tiers leave self-refresh but for stacks still critical, row logic resumes, LP ports
exit (R81, R525, R532). -/
def p1Leave (s : State) : State :=
  let s := s.set fumStatusState 0
  let crit := (List.range 8).filter (fun i => s.get (hbmTempClass i) == 3)
  let s := State.each ((List.range 8).filter (fun i => !crit.contains i)) rlResume s
  let s := State.each crit (fun i t =>
    enterCritical i (t.set fumStatusSelfRefresh (Nat.lor (t.get fumStatusSelfRefresh) (2 ^ i)))) s
  State.each (List.range 16) (fun p t =>
    if t.get (elvStatState p) = 9 then enterRetrain p (sendCtrl p 0x14 [] t) else t.onPort p (fun q => { q with lpWanted := false })) s

/-- PSTATE_DONE: the transition that runs completes (R527). -/
def execPstateDone (s : State) : Host.Outcome State Fault Refusal :=
  if s.fum.transition = 0 then done s
  else
    let s := if s.fum.transition = 1 then p1Enter s else p1Leave s
    done (raise fumEvtPstateDone ((s.set fumPstateBusy 0).onFum (fun f => { f with transition := 0 })))

/-- The bit of a gated unit: an engine cluster, or 16 for the matrix array. -/
def gateUnit (c : Option (Fin 8)) : Nat := match c with | some c => c.val | none => 16

/-- Whether a cluster, or the array, is idle. -/
def unitIdle (s : State) (u : Nat) : Bool :=
  if u = 16 then s.mxa.isNone else (List.range 8).all (fun i => !(s.eng (8 * u + i)).active)

/-- CLUSTER_GATE: in A1, a unit idle for 64 core cycles is clock-gated (R526). -/
def execClusterGate (unit : Option (Fin 8)) (s : State) : Host.Outcome State Fault Refusal :=
  let u := gateUnit unit
  if s.get fumStatusState = 1 ∧ unitIdle s u then done (s.onFum (fun f => { f with gated := Nat.lor f.gated (2 ^ u) }))
  else done s

/-- CLUSTER_UNGATE: 160 core cycles before the START of its next slot, a gated unit runs again (R526). -/
def execClusterUngate (unit : Option (Fin 8)) (s : State) : Host.Outcome State Fault Refusal :=
  done (ungate (gateUnit unit) s)

/-- A1 entered or left at a tick edge, as A1_EN stands (R525). -/
def a1Edge (s : State) : State :=
  if s.flag fumCtlA1En ∧ s.get fumStatusState = 0 then s.set fumStatusState 1
  else if !s.flag fumCtlA1En ∧ s.get fumStatusState = 1 then (s.set fumStatusState 0).onFum (fun f => { f with gated := 0 })
  else s

/-- FUM_PSTATE.GO with REQ 1 or 3: refused (R527, R529). -/
def pstateRefuse (req : Nat) (s : State) : State := raise fumPstateRefused (s.set fumPstateReq req)

end Sys2Proof.Machine
end

