-- ==== Sys2Proof/Machine/Streams.lean ====
section
/-! DEFINITION. The commands of streams and Glade (R276 to R309): batch start, the stream program one instruction at a
time, tiles, drain groups, faults, migration, save and restore, and the wait-for trace. -/

namespace Sys2Proof.Machine

/-! ## Admission (R277, R278, R284) -/

/-- Whether an instruction at index `i` is one that R281 defines, with every unused field 0. -/
def insnOk (i w : Nat) : Bool :=
  let op := insnOp w
  let d := insnD w
  let z (b : Nat) : Bool := b == 0
  !bitOf w 15 &&
  (if op = 0x00 ∨ op = 0x18 ∨ op = 0x19 ∨ op = 0x1F then z d && z (insnS w) && z (insnT w) && z (insnImm w)
   else if op = 0x01 then z (insnS w) && z (insnT w)
   else if op = 0x03 then z (insnImm w)
   else if op = 0x04 ∨ op = 0x06 then z (insnT w)
   else if op = 0x05 then z (insnT w) && decide (insnImm w < 2 ^ 32)
   else if op = 0x08 then decide (d < 4) && z (insnS w) && z (insnT w) && decide (insnImm w < 2 ^ 32)
   else if op = 0x09 then decide (d < 4) && z (insnT w) && z (insnImm w)
   else if op = 0x0A then decide (d < 4) && z (insnS w) && z (insnT w) && decide (insnImm w ≤ i)
   else if op = 0x10 ∨ op = 0x11 then z d && z (insnT w)
   else false)

/-- The first failing check of R278, 0 for none: `b` is the descriptor, `bad` says that it cannot be read, `prog` the
program's instructions, none where the program cannot be read. -/
def strReason (s : State) (c at_ : Nat) (b : List Byte) (bad : Bool) (prog : Option (List Nat)) : Nat :=
  let x : StrCtx := { s.ctx c with desc := b }
  let cont := bitOf (leAt b 7 1) 2
  let st := strState s c
  let n := x.tileSlots
  let floor := s.get (strFloorFloor c)
  if bad ∨ leAt b 0 4 ≠ 0x53545242 then 1
  else if 4 < leAt b 4 1 then 2
  else if x.depth = 0 ∨ 8 < x.depth ∨ 8 < x.wdepth then 3
  else if x.progLen = 0 ∨ 64 < x.progLen ∨ leAt b 16 8 % 8 ≠ 0 ∨
      (prog.map (fun l => l.zipIdx.any (fun p => !insnOk p.2 p.1))).getD true then 4
  else if 2 < x.inHint ∨ 1 < x.outHint then 5
  else if floor < (if x.inHint = 2 ∨ x.look then (x.depth + 1 + x.wdepth) * n else x.wdepth * n) then 6
  else if x.look ∧ (¬ s.flag (gldGroupCfgLaEn x.group) ∨ s.get (gldGroupCfgLookahead x.group) ≠ c) then 7
  else if st ≠ 0 ∧ ¬ (cont ∧ (st = 5 ∨ st = 4)) then 8
  else if cont ∧ (s.ctx c).at_ ≠ at_ then 9
  else if 8 ≤ leAt b 7 1 ∨ 16 ≤ leAt b 11 1 ∨ leAt b 25 1 ≠ 0 ∨ leAt b 28 4 ≠ 0 ∨ (¬ x.xlate ∧ x.asid ≠ 0) then 10
  else 0

/-- A rejected stream batch: handled as R260 handles a row-logic batch (R278). -/
def strReject (c i r : Nat) (s : State) : State :=
  let s := if c < 512 then s.set (strStatReason c) r else s
  fault .plan 1 (i % 1024) r 0 none (cancelDependents i (finishSlot i .cancelled s))

/-- The descriptor and the program of a stream batch read: both, whether the descriptor is bad, the program when it can be
read, and the state. CONTINUE copies no program (R278). -/
def strFetch (c at_ : Nat) (s : State) : List Byte × Bool × Option (List Nat) × State :=
  let (b, rf, po, s) := useRead (64 + c) at_ 96 0 0 s
  let n := leAt b 24 1
  let (l, prf, ppo, s) := if bitOf (leAt b 7 1) 2 ∨ n = 0 ∨ 64 < n then ([], false, false, s)
    else useRead (64 + c) (leAt b 16 8) (8 * n) 0 0 s
  (b, rf || po, if prf || ppo then none else some ((List.range (l.length / 8)).map (fun k => leAt l (8 * k) 8)), s)

/-- A batch admitted: with CONTINUE at the kept position, otherwise from its program's start; a batch of a draining group is
held until the drain (R278, R292, R305). -/
def strAdmit (c i at_ : Nat) (b : List Byte) (prog : List Nat) (s : State) : State :=
  let s := s.set (strStatReason c) 0
  let g := leAt b 11 1 % 16
  let look := bitOf (leAt b 7 1) 1
  let hold := !look && s.flag (gldGroupStatDraining g)
  let s := if bitOf (leAt b 7 1) 2 then
      s.onCtx c (fun x => { x with
        desc := b, active := true, slot := i, halting := false, wait := 0, held := hold
        past := x.past || decide (leAt b 24 1 ≤ s.get (strStatPc c)), tileNow := s.get (strConsumedCount c), began := cycleNow s })
    else
      let s := s.onCtx c (fun _ => { ctxEmpty with
        desc := b, at_ := at_, active := true, slot := i, held := hold, began := cycleNow s
        tag := if look then (layerOf s g + 1) % 65536 else 0
        a := (List.range 8).foldl (fun m k => Tab.set 0 m k (leAt b (32 + 8 * k) 8)) [] })
      let s := prog.zipIdx.foldl (fun t p => t.set (strProgInsn c p.2) p.1) s
      ((s.set (strStatPc c) 0).set (strConsumedCount c) 0).set (strEmittedIndex c) 0
  strSync (strRun c s)

/-- A batch of slot `i` on context `c` checked and admitted, or rejected (R278). -/
def strStart (c i at_ : Nat) (s : State) : State :=
  let (b, bad, prog, s) := strFetch c at_ s
  let r := strReason s c at_ b bad prog
  if r ≠ 0 then strReject c i r s else strAdmit c i at_ b (prog.getD []) s

/-- STREAM_BATCH_START: the descriptor and program are read and checked, and the batch is admitted, continued, or rejected
(R277, R278, R305). -/
def execStreamBatchStart (slot : Fin 1024) (s : State) : Host.Outcome State Fault Refusal :=
  whole (fun s =>
    let i := pickSlot s 2 slot.val
    let x := slotOf s i
    if !startable s 2 i then done s
    else if 512 ≤ x.unit then done (strReject x.unit i 10 (startSlot i s))
    else done (strStart x.unit i x.desc (startSlot i s))) s

/-! ## The stream program (R281) -/

/-- NOP: no effect. -/
def execStreamNop (ctx : Fin 512) (s : State) : Host.Outcome State Fault Refusal :=
  done (strStep 0x00 ctx (fun _ t => strNext ctx t) s)

/-- MOVI: A[D] = IMM. -/
def execMovi (ctx : Fin 512) (s : State) : Host.Outcome State Fault Refusal :=
  done (strStep 0x01 ctx (fun w t => strNext ctx (setA ctx (insnD w) (insnSimm w) t)) s)

/-- ADD: A[D] = A[S] + A[T]. -/
def execStreamAdd (ctx : Fin 512) (s : State) : Host.Outcome State Fault Refusal :=
  done (strStep 0x03 ctx (fun w t => strNext ctx (setA ctx (insnD w) (aReg t ctx (insnS w) + aReg t ctx (insnT w)) t)) s)

/-- ADDI: A[D] = A[S] + IMM. -/
def execAddi (ctx : Fin 512) (s : State) : Host.Outcome State Fault Refusal :=
  done (strStep 0x04 ctx (fun w t => strNext ctx (setA ctx (insnD w) (insnAddr t ctx w) t)) s)

/-- MULI: A[D] = A[S] × IMM[31:0]. -/
def execMuli (ctx : Fin 512) (s : State) : Host.Outcome State Fault Refusal :=
  done (strStep 0x05 ctx (fun w t => strNext ctx (setA ctx (insnD w) (aReg t ctx (insnS w) * (insnImm w % 2 ^ 32)) t)) s)

/-- LD64: A[D] = the 8 bytes at A[S] + IMM; a misaligned, untranslated or refused one faults (R281, R294). -/
def execLd64 (ctx : Fin 512) (s : State) : Host.Outcome State Fault Refusal :=
  whole (fun s =>
    let c := ctx.val
    done (strStep 0x06 c (fun w t =>
      let va := insnAddr t c w
      if va % 8 ≠ 0 then strFault c 7 va t
      else
        let (f, l, t) := strRange c false va 8 t
        if f.1 ≠ 0 then strFault c f.1 f.2 t
        else
          let (b, rf, _, t) := useRead (64 + c) ((l.head?.map Prod.snd).getD 0) 8 0 0 t
          if rf then strFault c 6 va t else strNext c (setA c (insnD w) (leNat b) t)) s)) s

/-- SETL: L[D] = IMM[31:0]. -/
def execSetl (ctx : Fin 512) (s : State) : Host.Outcome State Fault Refusal :=
  done (strStep 0x08 ctx (fun w t => strNext ctx (setL ctx (insnD w) (insnImm w) t)) s)

/-- SETLR: L[D] = A[S][31:0]. -/
def execSetlr (ctx : Fin 512) (s : State) : Host.Outcome State Fault Refusal :=
  done (strStep 0x09 ctx (fun w t => strNext ctx (setL ctx (insnD w) (aReg t ctx (insnS w)) t)) s)

/-- ENDL: a counter above 1 is decremented and PC set to IMM; otherwise it becomes 0. -/
def execEndl (ctx : Fin 512) (s : State) : Host.Outcome State Fault Refusal :=
  done (strStep 0x0A ctx (fun w t =>
    let n := lReg t ctx (insnD w)
    if 1 < n then strRun ctx (strPc ctx (insnImm w % 64) (setL ctx (insnD w) (n - 1) t))
    else strNext ctx (setL ctx (insnD w) 0 t)) s)

/-- EMIT: an input tile is emitted while its index is at most n + DEPTH, its slots allocated, or the context waits (R283, R288,
R294). -/
def execEmit (ctx : Fin 512) (s : State) : Host.Outcome State Fault Refusal :=
  let c := ctx.val
  done (strStep 0x10 c (fun w t =>
    let x := t.ctx c
    let va := insnAddr t c w
    if x.depth < x.inq.length then strWait c 1 t
    else if va % 256 ≠ 0 then strFault c 7 va t
    else
      let (f, _, t) := strRange c false va x.tileBytes t
      if f.1 ≠ 0 then strFault c f.1 f.2 t
      else match slotsFor t c (reservedOnly x) true with
        | some (r, sh) => strNext c (pushTile c va r sh t)
        | none => strWait c 2 t) s)

/-- EMITW: an output tile is allocated in reserved slots for the engine to fill, or the context waits (R287, R294). -/
def execEmitw (ctx : Fin 512) (s : State) : Host.Outcome State Fault Refusal :=
  let c := ctx.val
  done (strStep 0x11 c (fun w t =>
    let x := t.ctx c
    let va := insnAddr t c w
    if va % 256 ≠ 0 then strFault c 7 va t
    else
      let (f, _, t) := strRange c true va x.tileBytes t
      if f.1 ≠ 0 then strFault c f.1 f.2 t
      else if x.wdepth ≤ x.outq.length then strWait c 3 t
      else match slotsFor t c true false with
        | some (r, _) => strNext c (t.onCtx c (fun y => { y with outq := y.outq ++ [⟨va, r, [], [], false, cycleNow t⟩] }))
        | none => strWait c 3 t) s)

/-- LAYER: a member enters BARRIER; the look-ahead context raises its tag without waiting, and holds once the tag is above the
next layer (R290, R292). -/
def execLayer (ctx : Fin 512) (s : State) : Host.Outcome State Fault Refusal :=
  let c := ctx.val
  done (strStep 0x18 c (fun _ t =>
    if (t.ctx c).look then strNext c (t.onCtx c (fun y => { y with tag := (y.tag + 1) % 65536 }))
    else setStr c 3 (t.onCtx c (fun y => { y with wait := 0, since := t.now, traces := 0 }))) s)

/-- RLF: RL_FENCE is issued once, and the context waits until it completes (R265, R281). -/
def execRlf (ctx : Fin 512) (s : State) : Host.Outcome State Fault Refusal :=
  let c := ctx.val
  done (strStep 0x19 c (fun _ t =>
    let t := if (t.ctx c).wait = 4 then t else fenceIssue 3 c t
    if fenceWaits t 3 c then strWait c 4 t else strNext c t) s)

/-- END: the program ends (R279). -/
def execStreamEnd (ctx : Fin 512) (s : State) : Host.Outcome State Fault Refusal :=
  done (strStep 0x1F ctx (fun _ t => strRun ctx (t.onCtx ctx (fun y => { y with ended := true }))) s)

/-! ## Tiles (R283, R287, R288) -/

/-- A context's wanted tile allocated, when slots are there: a queue entry without slots first, else the tile of the EMIT
or EMITW that waits (R288, R302). -/
def allocWanted (queue : Bool) (c : Nat) (s : State) : Option State :=
  let x := s.ctx c
  let w := strInsn s c
  match unheld x with
  | some i =>
    if strState s c = 4 ∨ strState s c = 5 then none
    else (slotsFor s c (reservedOnly x) queue).map (fun p =>
      let t := allocAt c i p.1 p.2 s
      if strState t c = 2 ∧ x.wait = 2 ∧ (unheld (t.ctx c)).isNone then strRun c t else t)
  | none =>
    if strState s c ≠ 2 then none
    else if x.wait = 2 ∧ insnOp w = 0x10 then
      (slotsFor s c (reservedOnly x) queue).map (fun p => strNext c (pushTile c (insnAddr s c w) p.1 p.2 s))
    else if x.wait = 3 ∧ insnOp w = 0x11 ∧ x.outq.length < x.wdepth then
      (slotsFor s c true false).map (fun p =>
        strNext c (s.onCtx c (fun y => { y with outq := y.outq ++ [⟨insnAddr s c w, p.1, [], [], false, cycleNow s⟩] })))
    else none

/-- The contexts in the order in which they are served: those that wait for shared slots first. -/
def allocOrder (s : State) : List Nat :=
  sharedWaiters s ++ (Tab.keys s.str.ctx).filter (fun c => !(sharedWaiters s).contains c)

/-- TILE_ALLOCATE: the first context in waiting order whose tile finds all its slots takes them (R288). -/
def execTileAllocate (s : State) : Host.Outcome State Fault Refusal :=
  let first := (sharedWaiters s).head?
  match (allocOrder s).findSome? (fun c => allocWanted (first != some c) c s) with
  | some t => done (strSync t)
  | none => done s

/-- The lines of a tile read in order: the bytes, the poisoned lines, the address of the first refused line. -/
def readLines (c hint uses d : Nat) (l : List Nat) (s : State) : List Byte × List Nat × Option Nat × State :=
  l.zipIdx.foldl (fun acc a =>
    let (bs, po, rf, s) := acc
    let (g, s) := useGet (64 + c) a.1 128 hint uses (some d) s
    (bs ++ g.bytes, if g.refused || g.bad.any id then po ++ [a.2] else po, if g.refused ∧ rf.isNone then some a.1 else rf, s))
    ([], [], none, s)

/-- TILE_READY: the last line of a context's oldest fetch arrives: the tile is ready, or discarded when its slots were
taken back, the slots going to the cycle members first (R302); `ue` names the 32-byte parts of it that Glade reads uncorrectably (R211, R283, R295, R301). -/
def execTileReady (ctx : Fin 512) (ue : List (Fin 2048)) (s : State) : Host.Outcome State Fault Refusal :=
  whole (fun s =>
    let c := ctx.val
    let x := s.ctx c
    match x.inq.findIdx? (fun t => t.held && !t.ready) with
    | none => done s
    | some i =>
      match x.inq[i]? with
      | none => done s
      | some t =>
        if t.drop then
          let s := s.onCtx c (fun y => { y with inq := y.inq.modify i (fun t => { t with reserved := 0, shared := 0, drop := false }) })
          let s := State.each x.heirs (fun m t => (allocWanted false m t).getD t) s
          done (strSync (s.onCtx c (fun y => { y with heirs := if y.inq.any (fun t => t.drop) then y.heirs else [] })))
        else
          let (f, l, s) := strRange c false t.base x.tileBytes s
          let (bs, po, rf, s) := readLines c x.inHint x.uses (tileDeadline s c i) (lineAddrs l) s
          let missing := x.tileBytes - bs.length
          let po := po ++ (if f.1 = 0 then [] else (List.range ((missing + 127) / 128)).map (fun k => bs.length / 128 + k))
          let s := s.onCtx c (fun y => { y with
            refused := if f.1 ≠ 0 then some f.2 else match rf with | some a => some a | none => y.refused
            inq := y.inq.modify i (fun t => { t with ready := true, data := bs ++ List.replicate missing 0xFF, poison := po ++ ue.map (fun u => u.val / 4) }) })
          if ue = [] then done (strSync s)
          else done (strSync (fault .memory 1 0 t.base 5 none (raise gldEvtPoison s)))) s

/-- OUTPUT_TILE_COMMIT: the oldest full output tile of a context has been written with OUT_HINT and acknowledged; its
slots are freed (R287, R323). Bytes that the engine never filled are not written (R320). -/
def execOutputTileCommit (ctx : Fin 512) (s : State) : Host.Outcome State Fault Refusal :=
  whole (fun s =>
    let c := ctx.val
    let x := s.ctx c
    match x.outq.find? (fun t => t.full) with
    | none => done s
    | some t =>
      let (f, l, s) := strRange c true t.base x.tileBytes s
      let (rf, s) := (lineAddrs l).zipIdx.foldl (fun acc a =>
        let (rf, s) := acc
        let (r, _, s) := usePut (64 + c) a.1 ((t.data.drop (128 * a.2)).take 128) x.outHint 0 (some (outDeadline x t)) s
        let s := (List.range 4).foldl (fun s k =>
          if t.poison.contains (4 * a.2 + k) then nodePoisonWrite (a.1 + 32 * k) 32 s else s) s
        (if r ∧ rf.isNone then some a.1 else rf, s)) ((none : Option Nat), s)
      done (strSync (s.onCtx c (fun y => { y with
        outq := y.outq.erase t
        refused := if f.1 ≠ 0 then some f.2 else match rf with | some a => some a | none => y.refused })))) s

/-- STREAM_BATCH_COMPLETE: END executed, every input tile released, every output tile committed (R279). -/
def execStreamBatchComplete (ctx : Fin 512) (s : State) : Host.Outcome State Fault Refusal :=
  let c := ctx.val
  let x := s.ctx c
  if !x.active ∨ !x.ended ∨ x.inq ≠ [] ∨ x.outq ≠ [] ∨ strState s c ≠ 1 then done s
  else
    let s := setStr c 0 (s.onCtx c (fun y => { y with active := false }))
    done (strSync (completeSlot x.slot (raise (strEvtDone c) s)))

/-! ## Drain groups (R290, R291) -/

/-- GROUP_DRAIN: when every member has arrived, LAYER advances, the members run on after LAYER, held batches run, and the
look-ahead context's tiles of the new layer are offered (R291, R292, R305). -/
def execGroupDrain (group : Fin 16) (s : State) : Host.Outcome State Fault Refusal :=
  let g := group.val
  let ms := membersOf s g
  if ms.isEmpty || !ms.all (arrived s) then done s
  else
    let s := s.set (gldGroupStatLayer g) (layerOf s g + 1)
    let s := State.each ms strNext s
    let s := State.each (Tab.keys s.str.ctx) (fun c t =>
      let x := t.ctx c
      if x.group ≠ g ∨ !x.active then t
      else if x.held then t.onCtx c (fun y => { y with held := false })
      else if strState t c = 6 then strRun c t else t) s
    done (strSync s)

/-! ## Migration, halt, resume, save and restore (R296 to R298) -/

/-- The address of the entry that maps a page, by the walk of R363 over memory as it stands. -/
def pteAddr (s : State) (va : Nat) : Nat → Nat → Nat → Option (Nat × Nat)
  | 0, _, _ => none
  | k + 1, level, table =>
    let a := table + 8 * levelIndex level va
    let e := nodeNat s a 8
    if !bitOf e 0 then none
    else if bitOf e 1 then some (level, a)
    else pteAddr s va k (level + 1) (bits e 8 40 * 256)

/-- PAGE_MIGRATION: a Narup core copies a PARKED page into the frame of the ring entry at TAIL, updates the translation,
returns the vacated address with DONE and resumes every context halted on the page; without a frame of the size the kind
becomes NO_FRAME (R296). -/
def execPageMigration (ctx : Fin 512) (s : State) : Host.Outcome State Fault Refusal :=
  whole (fun s =>
    let c := ctx.val
    if strState s c ≠ 4 ∨ s.get (strFaultKind c) ≠ 3 then done s
    else
      let va := s.get (strFaultVaAddr c)
      let asid := (s.ctx c).asid
      match pteAddr s va 4 1 (bits (nodeNat s (s.get mmuRootAddr + 8 * asid) 8) 8 40 * 256) with
      | none => done s
      | some (level, pte) =>
        let size := 2 ^ leafBits level
        let n := s.get strMigCtlEntries
        let tail := s.get strMigTailIndex
        let ring := s.get strMigBaseAddr + 8 * (tail % max n 1)
        let ent := nodeNat s ring 8
        if n = 0 ∨ tail = s.get strMigHeadIndex ∨ bits ent 0 2 ≠ (if level = 3 then 1 else 0) ∨
            s.get strMigCtlSize ≠ (if level = 3 then 1 else 0) then
          let s := s.set (strFaultKind c) 5
          done (fault .stream 5 c va 7 none (raise (strEvtFault c) (s.set (strEvtFault c) 0)))
        else
          let e := nodeNat s pte 8
          let old := bits e 8 40 * 256
          let frame := bits ent 16 32 * 65536
          let s := copyRange nodeReq old frame size s
          let s := store nodeReq pte (leBytes 8 (e - old + frame)) s
          let s := tlbDrop (fun x => x.asid == asid && x.va == va / size * size) s
          let s := store nodeReq ring (leBytes 8 (bits ent 0 2 + 4 + old / 65536 * 65536)) s
          let s := s.set strMigTailIndex (tail + 1)
          done (strSync (State.each (Tab.keys s.str.ctx) (fun d t =>
            if strState t d = 4 ∧ t.get (strFaultKind d) = 3 ∧ (t.ctx d).asid = asid ∧ t.get (strFaultVaAddr d) / size = va / size then
              strRun d t else t) s))) s

/-- CONTEXT_HALT: a running context is told to halt at its next instruction boundary (R298). -/
def execContextHalt (ctx : Fin 512) (s : State) : Host.Outcome State Fault Refusal :=
  let c := ctx.val
  let st := strState s c
  if st = 1 ∨ st = 2 ∨ st = 3 ∨ st = 6 then done (s.onCtx c (fun x => { x with halting := true })) else done s

/-- A context that has halted: HALTED, its input tiles dropped; it holds up its slot (R297, R298). -/
def strHalted (c : Nat) (s : State) : State :=
  dropTiles c (setStr c 5 (s.onCtx c (fun x => { x with halting := false, wait := 0, active := false, held := false })))

/-- Whether output tiles keep a halting context from HALTED: any that is not committed, but an empty one only while a batch of its
engine may still fill it (R298; assumption 56). -/
def haltWaits (s : State) (c : Nat) : Bool :=
  (s.ctx c).outq.any (fun t => t.full || !t.data.isEmpty || [2, 3, 4].contains (s.get (upeStatState (c / 8))))

/-- CONTEXT_HALTED: once every output tile of a halting context is committed, it enters HALTED (R298). -/
def execContextHalted (ctx : Fin 512) (s : State) : Host.Outcome State Fault Refusal :=
  let c := ctx.val
  if !(s.ctx c).halting ∨ haltWaits s c then done s else done (strSync (strHalted c s))

/-- The descriptor that a restored context lacks, read at its saved DESC; whether there is one (DEDUCED, assumption 56). -/
def strRefetch (c : Nat) (s : State) : Bool × State :=
  let x := s.ctx c
  if x.desc ≠ [] then (true, s)
  else
    let (b, rf, po, s) := useRead (64 + c) x.at_ 96 0 0 s
    if rf ∨ po ∨ leAt b 0 4 ≠ 0x53545242 then (false, s)
    else (true, s.onCtx c (fun x => { x with desc := b, past := decide (leAt b 24 1 ≤ s.get (strStatPc c)), began := cycleNow s }))

/-- STREAM_RESUME: a FAULTED or HALTED context runs again at its saved PC (R297). -/
def execStreamResume (ctx : Fin 512) (s : State) : Host.Outcome State Fault Refusal :=
  let c := ctx.val
  let st := strState s c
  if st ≠ 4 ∧ st ≠ 5 then done s
  else
    let (ok, s) := strRefetch c s
    if !ok then done s else done (strSync (strRun c (s.onCtx c (fun x => { x with active := true }))))

/-- The 192 bytes of a save record (R298). -/
def saveRecord (s : State) (c : Nat) : List Byte :=
  let x := s.ctx c
  leBytes 4 0x53544358 ++ leBytes 1 (s.get (strStatPc c)) ++ leBytes 1 (strState s c) ++ leBytes 1 x.inq.length ++ [0] ++
    leBytes 4 (s.get (strEmittedIndex c)) ++ leBytes 4 (s.get (strConsumedCount c)) ++
    (List.range 4).flatMap (fun i => leBytes 4 (lReg s c i)) ++ (List.range 8).flatMap (fun i => leBytes 8 (aReg s c i)) ++
    leBytes 8 (s.get (strFaultVaAddr c)) ++ leBytes 1 (s.get (strFaultKind c)) ++ leBytes 7 0 ++ leBytes 8 x.at_ ++
    (List.range 9).flatMap (fun i => leBytes 8 ((x.inq.getD i ⟨0, 0, 0, 0, 0, false, [], [], false⟩).base))

/-- CONTEXT_SAVE: a FAULTED or HALTED context's record is written to SAVE_ADDR; its unconsumed input tiles are dropped
(R298). -/
def execContextSave (ctx : Fin 512) (s : State) : Host.Outcome State Fault Refusal :=
  let c := ctx.val
  if strState s c ≠ 4 ∧ strState s c ≠ 5 then done s
  else
    let s := strSync (dropTiles c s)
    let (_, s) := useWrite (64 + c) (s.get (strSaveAddrAddr c)) (saveRecord s c) 0 0 s
    done (raise (strEvtSaveDone c) s)

/-- CONTEXT_RESTORE: an IDLE context reads its record and, when MAGIC matches, enters HALTED at the saved position with no
tiles held (R298). -/
def execContextRestore (ctx : Fin 512) (s : State) : Host.Outcome State Fault Refusal :=
  let c := ctx.val
  if strState s c ≠ 0 then done s
  else
    let (b, rf, po, s) := useRead (64 + c) (s.get (strSaveAddrAddr c)) 192 0 0 s
    if rf ∨ po ∨ leAt b 0 4 ≠ 0x53544358 then done s
    else
      let n := min (leAt b 6 1) 9
      let s := s.onCtx c (fun _ => { ctxEmpty with
        at_ := leAt b 112 8, tileNow := leAt b 12 4
        l := (List.range 4).foldl (fun m i => Tab.set 0 m i (leAt b (16 + 4 * i) 4)) []
        a := (List.range 8).foldl (fun m i => Tab.set 0 m i (leAt b (32 + 8 * i) 8)) []
        inq := (List.range n).map (fun i => ⟨leAt b (120 + 8 * i) 8, 0, 0, 0, 0, false, [], [], false⟩) })
      let s := ((s.set (strStatPc c) (leAt b 4 1)).set (strConsumedCount c) (leAt b 12 4)).set (strFaultVaAddr c) (leAt b 96 8)
      done (strSync (setStr c 5 (s.set (strFaultKind c) (leAt b 104 1))))

/-- FLOOR_WRITE: a write of STR_CTX[c]_FLOOR is taken while the context is IDLE and the sums fit, else REFUSED is set (R289). -/
def execFloorWrite (ctx : Fin 512) (value : BitVec 32) (s : State) : Host.Outcome State Fault Refusal :=
  let c := ctx.val
  let v := value.toNat
  let f := bits v 0 13
  let m := bits v 16 13
  let s := if bitOf v 31 then s.set (strFloorRefused c) 0 else s
  let sum := s.get gldStatusFloorSum + f - s.get (strFloorFloor c)
  if strState s c = 0 ∧ sum ≤ 4096 ∧ m ≤ 4096 then
    done (strSync (((s.set (strFloorFloor c) f).set (strFloorShareMax c) m).set gldStatusFloorSum sum))
  else done (raise (strFloorRefused c) s)

/-! ## The wait-for trace (R300 to R303) -/

/-- The wait-for chain from a context as its registers give it, at most `k` steps. -/
def chainFrom (s : State) : Nat → Nat → List Nat
  | 0, _ => []
  | k + 1, c =>
    c :: (if strWaits s c && s.flag (strWaitforValid c) then chainFrom s k (s.get (strWaitforCtx c)) else [])

/-- The first cycle that a chain closes: the contexts from the first repeated one on. -/
def cycleOf : List Nat → List Nat → List Nat
  | _, [] => []
  | seen, c :: rest => if seen.contains c then seen.dropWhile (fun d => d != c) else cycleOf (seen ++ [c]) rest

/-- The shared slots a context holds for tiles other than the one its consumer reads or reads next (R301). -/
def surplus (s : State) (c : Nat) : Nat := (((s.ctx c).inq.drop 1).map (fun t => t.shared)).sum

/-- The victim's surplus tiles discarded; one that is still being fetched goes when its last line arrives (R301). -/
def discardSurplus (v : Nat) (s : State) : State :=
  let n := (((s.ctx v).inq.drop 1).filter (fun t => t.shared != 0)).length
  let cut (t : InTile) : InTile :=
    if t.shared = 0 then t
    else if t.ready then { t with reserved := 0, shared := 0, ready := false, data := [], poison := [] }
    else { t with drop := true }
  let s := s.onCtx v (fun x => { x with barred := true, inq := x.inq.take 1 ++ (x.inq.drop 1).map cut })
  (s.bump (strDiscardsCount v) n).bump gldDiscardsCount n

/-- WAITFOR_TRACE: a context has waited WATCH cycles once more; the trace ends without result, or a cycle is broken at its
victim, or without surplus it stalls (R300 to R303). -/
def execWaitforTrace (ctx : Fin 512) (s : State) : Host.Outcome State Fault Refusal :=
  let c := ctx.val
  if !strWaits s c then done s
  else
    let x := s.ctx c
    let watch := if s.get gldCtlWatch = 0 then s.get tickPeriodCycles * 2 / 100 else s.get gldCtlWatch
    let s := (s.reach (x.since + (x.traces + 1) * watch * 625)).onCtx c (fun y => { y with traces := y.traces + 1 })
    let cyc := cycleOf [] (chainFrom s 513 c)
    if cyc.isEmpty then done s
    else
      match (cyc.filter (fun v => surplus s v != 0)).foldl (fun b v => some (max (b.getD 0) v)) (none : Option Nat) with
      | some v =>
        let ms := sortBy (fun a b => decide (a ≤ b))
          (cyc.filter (fun m => m != v && s.flag (strWaitforValid m) && s.get (strWaitforCtx m) == v))
        let s := (discardSurplus v s).onCtx v (fun x => { x with heirs := ms })
        let s := ((s.bump gldDeadlocksCount 1).set gldLastVictim v).set gldLastLength cyc.length
        let s := raise gldEvtDeadlock (raise (strEvtVictim v) s)
        let s := State.each ms (fun m t => (allocWanted false m t).getD t) s
        done (strSync (s.onCtx v (fun y => { y with heirs := if y.inq.any (fun t => t.drop) then y.heirs else [] })))
      | none =>
        let s := State.each cyc (fun m t => raise (strEvtStall m) t) (raise gldEvtStall s)
        done (fault .plan 4 (x.slot % 1024) cyc.length 0 none s)

end Sys2Proof.Machine
end

