-- ==== Sys2Proof/Machine/Resets.lean ====
section
/-! DEFINITION. The resets (chapter 17) and the entry to P2 (R471, R529). Kinds are numbered as RST_STATUS.LAST numbers
them: 2 module, 3 fabric, 4 compute, 5 plan. How long a write-back takes is not modelled: a command says which engines do not
end theirs within the bound, and how long the quiesce took. -/

namespace Sys2Proof.Machine

/-- The reset state changed. -/
def State.onRst (f : RstState → RstState) (s : State) : State := { s with rst := f s.rst }

/-! ## What every reset does -/

/-- Both plan banks cleared; no slot is left to issue (R55). -/
def planClear (s : State) : State :=
  (detachSlots s).onTick (fun t => { t with banks := [], ok := [], pos := 0 })

/-- Open accumulator entries abandoned and running collective slots stopped (R172). -/
def calAbandon (s : State) : State :=
  { s with cal := { s.cal with store := [], descs := [], segs := [], wins := [], ended := [], progress := [], derive := [], settled := [], passed := [] } }

/-- Outstanding remote requests abandoned; their tags stay unused for two timeout periods (R545). -/
def abandonRequests (s : State) : State :=
  let free := s.now + 2 * s.get fabReqTimeoutUs * 1000000
  s.onFab (fun f => { f with reqs := [], retired := f.retired ++ f.reqs.map (fun r => (r.tag, free)) })

/-- A queue's FENCE command that a reset of kind `kind` ends: a fence of COH_FENCE always, RL_FENCE by a compute reset (R451,
R275, R613). A DETACH whose tick the reset clears ends too. -/
def endsCommand (s : State) (kind : Nat) (x : HQueue) : Bool :=
  match x.running with
  | none => false
  | some c =>
    x.step != 0 &&
      ((cmdOp c == 9 && (if bits (cmdArg0 c) 0 2 = 3 then decide (kind ≤ 4) else s.flag cohFenceBusy && x.step == s.coh.fenceSeq + 1)) ||
        (cmdOp c == 8 && !s.fab.detaching))

/-- Registers cleared by their retention codes, and those that show live state brought up to date (R6, R534, R537). -/
def sweep (kind : Nat) (s : State) : State :=
  let s := clearRegs kind s
  let s := s.set fumBudgetWatts (s.get fumBudgetDefaultWatts)
  let s := ((s.set fumPstateBusy (b2n (s.fum.transition != 0))).set idFlashStatBusy (b2n s.host.mbox.isSome))
  strSync (fencePending (sample s))

/-- What fabric, compute and plan resets share: banks, entries, requests, fences, generators and seedings end, and the
registers clear (R55, R172, R245, R451, R537, R545). -/
def resetCommon (kind : Nat) (s : State) : State :=
  let fenced := s.flag cohFenceBusy
  let rl := kind ≤ 4 ∧ ¬ s.rlg.fences.isEmpty
  let told := kind ≤ 4 ∧ s.rlg.fences.any (fun f => f.by_ == 0 || f.by_ == 2)
  let ends := (List.range 16).filter (fun q => endsCommand s kind (s.queue q))
  let s := abandonRequests (calAbandon (planClear s))
  let s := { s with coh := { s.coh with fenceEngines := 0, fenceInv := false }, care := { s.care with tgDone := [] } }
  let s := (s.onRng (fun g => { g with lanes := [] })).onFum (fun f => { f with clearOut := false })
  let s := if kind ≤ 4 then rlReset s else s
  let s := sweep kind s
  let s := if fenced then s.set cohFenceAborted 1 else s
  let s := if rl then s.set rlgFenceAborted 1 else s
  let s := if told then s.set rlgFenceDone 1 else s
  State.each ends (fun q t => complete q 6 (t.get rstStatusLast)
    (match (t.queue q).running with
      | some c => if cmdOp c = 8 then cmdArg0 c else 0
      | none => 0) t) s

/-- KV windows at a reset: RETRY for every accepted request, DONE advanced, the engines returned (R401). -/
def kvReset (s : State) : State := State.each (List.range 8) (fun p t => winClose p (kvRetryAll p t)) s

/-- The compute units at a compute reset: requests retried, the matrix job abandoned, contexts and engines IDLE and empty, the
look-aside buffer and the TLB cleared (R309, R342, R362, R401, R541, R550). -/
def computeClear (s : State) : State :=
  let s := engClear (mxaAbandon (kvReset s))
  { s with str := StrState.reset, tlb := [], kvs := { s.kvs with lab := [] }, fum := { s.fum with gated := 0 } }

/-- Commands of a kind counted, saturating (R554). -/
def countReset (kind : Nat) (s : State) : State :=
  s.bump (match kind with | 2 => rstCountModule | 3 => rstCountFabric | 4 => rstCountCompute | _ => rstCountPlan) 1

/-- A reset begins: counted, its kind and source recorded, FORCED of the last one cleared. -/
def beginReset (kind source : Nat) (s : State) : State :=
  let s := countReset kind s
  let s := ((s.set rstStatusLast kind).set rstStatusSource source).set rstStatusForced 0
  s.onRst (fun r => { r with kind := kind, since := if r.kind = 0 then s.now else r.since, late := 0, cacheLate := false })

/-- A fabric, compute or plan reset ends: DONE and, for a fabric reset, FABRIC; TIME is the time since its trigger. -/
def endReset (s : State) : State :=
  let s := (((s.set rstTimeNs (min ((s.now - s.rst.since) / 1000) (2 ^ 32 - 1))).set rstStatusBusy 0).set rstStatusHalting 0)
  let s := if s.rst.kind = 3 then raise rstEvtFabric s else s
  raise rstEvtDone (s.onRst (fun r => { r with kind := 0, late := 0 }))

/-- A compute reset, or the compute part of a fabric reset, in the order of R541; `late` names engines whose write-back does
not end in time, `ns` is how long the reset took. -/
def computeWork (kind late ns : Nat) (s : State) : State :=
  let s := resetCommon kind (computeClear s)
  let s := l1FlushExcept late s
  let s := if kind = 3 then { s with kvs := KvState.reset } else s
  let s := s.set rstStatusBusy 1
  let s := s.onRst (fun r => { r with late := late })
  if late = 0 then endReset (s.reach (s.rst.since + ns * 1000)) else s

/-- Whether an engine or a context is still to halt. -/
def halting (s : State) : Bool := s.upe.any (fun e => e.2.halting) || s.str.ctx.any (fun c => c.2.halting)

/-- A plan reset: banks and switch cleared, KV windows end, engines and contexts halt with their positions kept; batches and
jobs that were admitted run on (R275, R308, R341, R360, R401, R543). -/
def planWork (s : State) : State :=
  let s := State.each (List.range 64) engHalt s
  let consts := s.regs.filter (fun p => match fieldOf p.1 with
    | some f => decide (0x1000000 ≤ f.reg) && decide (f.reg < 0x1400000) &&
        (s.eng ((f.reg - 0x1000000) / 0x10000)).halting && f == upeConstValue ((f.reg - 0x1000000) / 0x10000)
          ((f.reg % 0x10000 - (upeConstValue 0 0).reg % 0x10000) / 4)
    | none => false)
  let s := State.each ((Tab.keys s.str.ctx).filter (fun c => [1, 2, 3, 6].contains (strState s c)))
    (fun c t => t.onCtx c (fun x => { x with halting := true })) s
  let s := resetCommon 5 (kvReset s)
  -- The constants of an engine that is still to halt serve its last quad; they go when it halts.
  let s := State.each consts (fun p t => { t with regs := Tab.insert t.regs p.1 p.2 }) s
  if halting s then (s.set rstStatusBusy 1).set rstStatusHalting 1 else endReset s

/-- A fabric, compute or plan reset triggered: while the same or a greater reset runs it is only counted; else it acts, or takes
over (R554). In P2 nothing but a module reset acts (R556). -/
def lowReset (kind source late ns : Nat) (s : State) : State :=
  if s.get fumStatusState = 3 then s
  else if s.rst.kind ≠ 0 ∧ s.rst.kind ≤ kind then countReset kind s
  else
    let s := beginReset kind source s
    if kind = 5 then planWork s else computeWork kind late ns s

/-! ## Module reset (R540, R558, R560, R614) -/

/-- Flash bytes whose contents are undefined after an abandoned operation: free values (R614). -/
def flashFree (a : Nat) : Nat → State → State
  | 0, s => s
  | n + 1, s =>
    let (v, s) := s.takeFree
    flashFree (a + 1) n { s with flash := Tab.set 0xFF s.flash a (BitVec.ofNat 8 v) }

/-- A mailbox operation abandoned by a module reset: PROGRAM and ERASE leave their bytes undefined, a KEY_HASH is partly
programmed (bit 384 marks it: present, and equal to no hash), REVOKE's one bit is done, SVN stops somewhere (R614). -/
def mailboxAbandon (s : State) : State :=
  match s.host.mbox with
  | none => s
  | some (op, a, n, _) =>
    let s := s.onHost (fun h => { h with mbox := none })
    if op = 2 ∨ op = 3 then flashFree a n s
    else if op = 4 ∧ a % 4 = 0 then
      let k := bits a 2 2
      let (v, s) := s.takeFree
      s.onBoot (fun b => { b with keyHash := Tab.set 0 b.keyHash k (2 ^ 384 + Nat.land (Tab.get 0 b.keyHash k) v) })
    else if op = 4 ∧ a % 4 = 2 then
      let (v, s) := s.takeFree
      s.onBoot (fun b => { b with svn := n + v % (b.svn - n + 1) })
    else s

/-- Every line of the memory-side cache written back and dropped (R209). -/
def cacheFlush (s : State) : State := State.each (Tab.keys s.mem.lines) evictLine s

/-- The internal reset is asserted: registers clear by their codes and every store that does not survive empties; what the tiers
hold, the flash and the fuses stay (R540, R547, R548, R550). -/
def internalReset (s : State) : State :=
  let s := clearRegs 2 (mailboxAbandon (abandonRequests s))
  { State.reset with
    pending := s.pending, regs := s.regs, now := s.now, free := s.free, sent := s.sent, flash := s.flash, mod := s.mod
    mem := { MemState.reset with
      cells := s.mem.cells, poison := s.mem.poison, epoch := s.mem.epoch, layout := s.mem.layout, epochs := s.mem.epochs
      zeroing := s.mem.zeroing }
    care := { CareState.reset with latent := s.care.latent, suspect := s.care.suspect }
    fab := { FabState.reset with retired := s.fab.retired }
    rlg := { RlgState.reset with save := s.rlg.save }
    host := { HostState.reset with alerts := s.host.alerts, alertLow := s.host.alertLow }
    boot := { BootState.reset with uid := s.boot.uid, keyHash := s.boot.keyHash, revoked := s.boot.revoked, svn := s.boot.svn }
    rst := { RstState.reset with kind := 2, since := s.rst.since, report := s.rst.report } }

/-- The ports of a module reset: DISABLED at once, no Quit (R540 step 1). -/
def portsOff (s : State) : State := State.each (List.range 16) (fun p t => enter p 0 (t.onPort p portFresh)) s

/-- Every soft remap completed and every tier in self-refresh (R244, R540 steps 4 and 5). -/
def tiersRest (s : State) : State := softRemapsEnd (fun _ => true) s

/-- A module reset: stop, quiesce, write back, repairs, self-refresh, restart; one that meets a module reset not yet released is
only counted. With a write-back that does not end, it waits for RESET_FORCED (R540, R554, R560). -/
def moduleReset (source late : Nat) (cacheLate : Bool) (s : State) : State :=
  if s.rst.kind = 2 then countReset 2 s
  else
    let s := portsOff (beginReset 2 source s)
    let s := l1FlushExcept late (calAbandon (planClear (rlReset (computeClear s))))
    let s := tiersRest (if cacheLate then s else cacheFlush s)
    if late = 0 ∧ ¬ cacheLate then internalReset s
    else
      (s.onRst (fun r => { r with late := late, cacheLate := cacheLate })).onHost (fun h => { h with
        answers := false, queues := [], reads := [], serial := [] })

/-- RESET_FORCED: the bound has passed: what is left of the L1s, and for a module reset of the cache, is lost without write-back,
FORCED is set, and a memory fault reported at once, or at the next ready-for-plan (R559, R560). -/
def execResetForced (at_ : Nat) (s : State) : Host.Outcome State Fault Refusal :=
  let s := s.reach at_
  if s.rst.held then done s
  else if s.rst.kind = 2 then
    done (internalReset ((l1Lost s).set rstStatusForced 1 |>.onRst (fun r => { r with report := true })))
  else if (s.rst.kind = 3 ∨ s.rst.kind = 4) ∧ s.rst.late ≠ 0 then
    done (endReset (forcedFault ((l1Lost s).set rstStatusForced 1)))
  else done s

/-! ## The commands -/

/-- A write of RST_CTL: it acts with the key and exactly one action, else REFUSED is set; in the bring-up window and in P2 it is
dropped and counted (R498, R538, R557, R622). -/
def rstWrite (v source late : Nat) (cacheLate : Bool) (ns : Nat) (s : State) : State :=
  if s.flag idBootStatWindow ∨ s.get fumStatusState = 3 then s.bump idBootDropsWrites 1
  else if bits v 16 16 ≠ 0x5253 then raise rstEvtRefused s
  else
    match bits v 0 3 with
    | 1 => moduleReset source late cacheLate s
    | 2 => lowReset 4 source late ns s
    | 4 => lowReset 5 source late ns s
    | _ => raise rstEvtRefused s

/-- The source code of a write: 3 the host, 4 the fabric register window. -/
def writeSource (fabric : Bool) : Nat := if fabric then 4 else 3

/-- Whether a write of RST_CTL may act: from the fabric only within the ALL_REGS window (R538). -/
def rstAllowed (fabric : Bool) (s : State) : Bool := !fabric || (s.flag fabRemoteCtlAllRegs && bitOf s.fab.windows 3)

/-- MODULE_RESET: a write of RST_CTL with the key and MODULE. -/
def execModuleReset (key : BitVec 16) (fabric : Bool) (late : BitVec 64) (cacheLate : Bool) (s : State) :
    Host.Outcome State Fault Refusal :=
  if rstAllowed fabric s then done (rstWrite (key.toNat * 65536 + 1) (writeSource fabric) late.toNat cacheLate 0 s) else done s

/-- COMPUTE_RESET: a write of RST_CTL with the key and COMPUTE. -/
def execComputeReset (key : BitVec 16) (fabric : Bool) (late : BitVec 64) (ns : Nat) (s : State) :
    Host.Outcome State Fault Refusal :=
  if rstAllowed fabric s then done (rstWrite (key.toNat * 65536 + 2) (writeSource fabric) late.toNat false ns s) else done s

/-- PLAN_RESET: a write of RST_CTL with the key and PLAN. -/
def execPlanReset (key : BitVec 16) (fabric : Bool) (s : State) : Host.Outcome State Fault Refusal :=
  if rstAllowed fabric s then done (rstWrite (key.toNat * 65536 + 4) (writeSource fabric) 0 false 0 s) else done s

/-- PLAN_RESET_HALTED: the last engine or context of a plan reset has halted (R543). -/
def execPlanResetHalted (at_ : Nat) (s : State) : Host.Outcome State Fault Refusal :=
  if s.rst.kind ≠ 5 ∨ halting s then done s else done (endReset (s.reach at_))

/-- PERST: PE_PERST_N asserted for 1 µs or more starts a module reset. After a trip it powers the module again once it is released
at least 10 s after the trip with VIN_48 in 40 V to 60 V (R462, R539). -/
def execPerst (vinOk : Bool) (at_ : Nat) (late : BitVec 64) (cacheLate : Bool) (s : State) : Host.Outcome State Fault Refusal :=
  if s.mod.tripped then
    let s := s.reach at_
    if vinOk ∧ s.mod.tripAt + 10000 * psPerMs ≤ s.now then
      done (s.onMod (fun m => { m with seq := 1, tripped := false }))
    else done s
  else if s.mod.seq ≠ 8 then done s
  else done (moduleReset 1 late.toNat cacheLate s)

/-! ## P2 (R471, R529) -/

/-- The units idle for P2. -/
def unitsIdle (s : State) : State :=
  { s with str := StrState.reset, upe := [], mxa := none, kvs := { s.kvs with wins := [] }
           rlg := { RlgState.reset with save := s.rlg.save, acts := s.rlg.acts } }

/-- Entry to P2: caches written back, ports quit, tiers in self-refresh, the source stopped, every fabric-derived field cleared; the
node answers no fabric traffic from then on (R209, R423, R450, R471, R529, R581, R606). -/
def enterP2 (s : State) : State :=
  let s := quiesceChans (fun _ => true) (cacheFlush (l1FlushAll s))
  let s := quitAll (unitsIdle s)
  let s := (s.set rngStatusReady 0).onRng (fun g => { g with testing := false, words := [], lanes := [] })
  let s := { clearFb s with fab := FabState.reset, tick := TickState.reset, flt := { s.flt with cleared := 0 } }
  (s.set fumStatusState 3).onHost (fun h => { h with quiet := true })

end Sys2Proof.Machine
end

