-- ==== Sys2Proof/Machine/FabMgmt.lean ====
section
/-! DEFINITION. The fabric as membership sees it (chapter 03): forwarding, the responses to this node's own requests and their
timeouts, the management messages, broadcast, joining, detachment, route tables and the fabric reset. -/

namespace Sys2Proof.Machine

/-- Whether a packet names this node, which takes part in the fabric. -/
def forUs (s : State) (pkt : List Byte) : Bool := fabricOn s && pktDst pkt == ownId s

/-! ## This node's remote requests (R112, R113, R131) -/

/-- OUTSTANDING follows the list. -/
def reqCount (s : State) : State := s.set fabReqStatOutstanding s.fab.reqs.length

/-- The timeout in ps. -/
def reqTimeoutPs (s : State) : Nat := s.get fabReqTimeoutUs * 1000000

/-- Whether a tag may be used: no request has it and no timeout keeps it. -/
def tagFree (s : State) (tag : Nat) : Bool :=
  !s.fab.reqs.any (fun r => r.tag == tag) && !s.fab.retired.any (fun r => r.1 == tag && decide (s.now < r.2))

/-- A request or a packet for which no port leads on (R104 step 6): a request is answered NO_ROUTE, anything is counted. -/
def noRoute (arr : Option Nat) (pkt : List Byte) (s : State) : State :=
  let s := s.bump fabDropNoRoute 1
  if !requestPkt pkt then s
  else
    let s := fault .fabric 1 (pktDst pkt) (pktAddr pkt) 10 none s
    let r := mkPkt (pktSrc pkt) 2 (ownId s) 0 (responseOp (pktOp pkt)) 0 0 (pktTag pkt) 5 []
    match arr with
    | none => { s with fab := { s.fab with inbox := s.fab.inbox ++ [r] } }
    | some _ => sendVc arr r s

/-- A packet that reached its node: a reserved operation is dropped unless the packet is a request, which is answered FORMAT
(R104 step 1, R108). -/
def deliverHere (pkt : List Byte) (s : State) : State :=
  if opKnown pkt || requestPkt pkt then s.onFab (fun f => { f with inbox := f.inbox ++ [pkt] }) else s

/-- A transit request remembered with its port of arrival while no route bank is active; the source and the tag find it again
(R104 step 5; DESIGN CHOICE, assumption 70). -/
def noteTransit (arr : Option Nat) (pkt : List Byte) (s : State) : State :=
  match arr with
  | some a =>
    if requestPkt pkt && !s.flag fabStatusRoutes then
      s.onFab (fun f => { f with
        transit := f.transit.filter (fun x => x.1 != pktSrc pkt || x.2.1 != pktTag pkt) ++ [(pktSrc pkt, pktTag pkt, a)] })
    else s
  | none => s

/-- The port on which the request of a response arrived, at a node with no active route bank (R104 step 5). -/
def requestPort (pkt : List Byte) (s : State) : Option Nat :=
  if isResponse (pktOp pkt) && !s.flag fabStatusRoutes then
    (s.fab.transit.find? (fun x => x.1 == pktDst pkt && x.2.1 == pktTag pkt)).map (fun x => x.2.2)
  else none

/-- A packet on its way: local delivery, a route, the neighbour route, for a response of a node without routes the port its request
arrived on, or step 6 (R104). -/
def forward (arr : Option Nat) (pkt : List Byte) (s : State) : State :=
  if pktDst pkt = ownId s then deliverHere pkt s
  else
    match routePort s (pktDst pkt) with
    | some p => sendPacket p pkt (noteTransit arr pkt s)
    | none =>
      match requestPort pkt s with
      | some p => sendPacket p pkt (s.onFab (fun f => { f with
          transit := f.transit.filter (fun x => x.1 != pktDst pkt || x.2.1 != pktTag pkt) }))
      | none => noRoute arr pkt s

/-- A copy of a broadcast sent on a mask of ports. -/
def bcastDown (mask : Nat) (pkt : List Byte) (s : State) : State :=
  State.each ((List.range 16).filter (fun p => bitOf mask p && portOpen s p)) (fun p t => sendPacket p pkt t) s

/-- A broadcast: with no active route bank dropped; at the timekeeper, or from the UP or ALT port of the entry in force, delivered
and sent down; from below, or of this node, sent on UP of the entry in force, an own one with DST set to the accepted timekeeper
(R114). -/
def bcast (arr : Option Nat) (pkt : List Byte) (s : State) : State :=
  let pkt := if arr = none then withDst (s.get tickTkNode) pkt else pkt
  let up := s.get tickBeaconPortUp
  if !s.flag fabStatusRoutes then s
  else if s.flag tickStatusTk || (s.tick.upOk && arr == some up) || (s.tick.altOk && arr == some (s.get tickBeaconPortAlt)) then
    bcastDown (s.get tickBeaconPortDown) pkt (deliverHere pkt s)
  else if s.tick.upOk && portOpen s up then sendPacket up pkt s
  else s

/-- PACKET_FORWARD: a packet of VC 1 to 3 that arrived on a port, or that this node originates. An own request takes its tag and
waits while 1,024 are outstanding or the tag is not free (R94, R104, R112). -/
def execPacketForward (port : Option (Fin 16)) (pkt : List Byte) (s : State) : Host.Outcome State Fault Refusal :=
  if !fabricOn s ∨ pktVc pkt = 0 then done s
  else
    match port with
    | some p =>
      let s := consume p.val pkt s
      done (if pktOp pkt = 0x47 then bcast (some p.val) pkt s else forward (some p.val) pkt s)
    | none =>
      if pktOp pkt = 0x47 then done (bcast none pkt s)
      else if !requestPkt pkt then done (forward none pkt s)
      else if 1024 ≤ s.fab.reqs.length ∨ !tagFree s (pktTag pkt) then done s
      else
        let r : RemReq := ⟨pktTag pkt, pktOp pkt, pktDst pkt, pktAddr pkt, (routePort s (pktDst pkt)).getD 16, s.now, false⟩
        done (forward none pkt (reqCount (s.onFab (fun f => { f with reqs := f.reqs ++ [r] }))))

/-- Whether a request's timeout is due: in the cycle of its timeout a response loses (R131). -/
def reqExpired (s : State) (r : RemReq) : Bool := decide (cycleAt (r.issued + reqTimeoutPs s) ≤ cycleAt s.now)

/-- A response completes its outstanding request, whose result goes to the software; poisoned data is a fabric fault. One that
matches none, or whose request has reached its timeout, is dropped and counted (R109, R112, R131). -/
def response (op : Nat) (port : Nat) (pkt : List Byte) (s : State) : State :=
  if !forUs s pkt ∨ pktOp pkt ≠ op then s
  else
    let s := take port pkt s
    match s.fab.reqs.find? (fun r => r.tag == pktTag pkt && responseOp r.op == op && !reqExpired s r) with
    | none => s.bump fabDropUnmatched 1
    | some r =>
      let s := reqCount (s.onFab (fun f => { f with reqs := f.reqs.filter (fun x => x != r) }))
      let s := if pktStatus pkt = 4 then fault .fabric 3 r.dst r.addr 0 none s else s
      s.emit (.message pkt)

/-- READ_DATA: the response to a READ. -/
def execReadData (port : Fin 16) (pkt : List Byte) (s : State) : Host.Outcome State Fault Refusal :=
  done (response 0x81 port.val pkt s)

/-- WRITE_ACK: the response to a WRITE. -/
def execWriteAck (port : Fin 16) (pkt : List Byte) (s : State) : Host.Outcome State Fault Refusal :=
  done (response 0x82 port.val pkt s)

/-- ATOMIC_ACK: the response to ATOMIC_ADD or FETCH_ADD. -/
def execAtomicAck (port : Fin 16) (pkt : List Byte) (s : State) : Host.Outcome State Fault Refusal :=
  done (response 0x83 port.val pkt s)

/-- REQUEST_TIMEOUT: an outstanding request ends in TIMEOUT at FAB_REQ_TIMEOUT: counted, the event set, a fabric fault with the
claim of its port, its tag kept for two periods; a FABRIC_FENCE that covers it sets TIMEOUT (R112, R441, R576). -/
def execRequestTimeout (tag : BitVec 16) (s : State) : Host.Outcome State Fault Refusal :=
  match s.fab.reqs.find? (fun r => r.tag == tag.toNat) with
  | none => done s
  | some r =>
    let s := s.reach (r.issued + reqTimeoutPs s)
    let s := reqCount (s.onFab (fun f => { f with
      reqs := f.reqs.filter (fun x => x != r), retired := f.retired ++ [(r.tag, s.now + 2 * reqTimeoutPs s)] }))
    let s := raise fabEvtTimeout (s.bump fabReqStatTimeouts 1)
    let s := if r.fenced then (fun t : State => { t with coh := { t.coh with fenceTimeout := true } }) (raise cohFenceTimeout s) else s
    done (fault .fabric 2 r.dst r.addr 0 (if r.port < 16 then some r.port else none) s)

/-! ## Messages that only reach their node (R116, R122, R115, R511) -/

/-- A management message handed to the software of the node it names. -/
def handUp (op : Nat) (pkt : List Byte) (s : State) : State :=
  if forUs s pkt ∧ pktOp pkt = op then (consumeAny pkt s).emit (.message pkt) else s

/-- NEIGHBOUR_NOTICE reaches the management node. -/
def execNeighbourNotice (pkt : List Byte) (s : State) : Host.Outcome State Fault Refusal := done (handUp 0x40 pkt s)

/-- DETACH_DONE reaches the management node. -/
def execDetachDone (pkt : List Byte) (s : State) : Host.Outcome State Fault Refusal := done (handUp 0x45 pkt s)

/-- PUSH_DONE reaches the management node. -/
def execPushDone (pkt : List Byte) (s : State) : Host.Outcome State Fault Refusal := done (handUp 0x48 pkt s)

/-- TELEMETRY reaches its destination. -/
def execTelemetry (pkt : List Byte) (s : State) : Host.Outcome State Fault Refusal := done (handUp 0x49 pkt s)

/-! ## Joining (R118 to R121) -/

/-- An announce with its relaying node and port filled in, sent on to FAB_MGMT_NODE. -/
def relayed (s : State) (port : Nat) (pkt : List Byte) : List Byte :=
  withDst (s.get fabMgmtNodeNode) (pkt.take 40 ++ leBytes 2 (ownId s + port * 4096) ++ pkt.drop 42)

/-- JOIN_ANNOUNCE: a member relays an announce that its neighbour sent; one already relayed has reached its node (R118). -/
def execJoinAnnounce (port : Fin 16) (pkt : List Byte) (s : State) : Host.Outcome State Fault Refusal :=
  if !forUs s pkt ∨ pktOp pkt ≠ 0x41 then done s
  else
    let direct := pktSrc pkt == s.get (elvPartnerNode port.val)
    let s := take port.val pkt s
    if !direct then done (s.emit (.message pkt))
    else if s.get fabStatusJoin = 3 then done (sendVc none (relayed s port.val pkt) s) else done s

/-- JOIN_ANNOUNCE_REPEAT: 1,000 ticks after the last, an ANNOUNCING node in LOCKED announces again (R118). -/
def execJoinAnnounceRepeat (s : State) : Host.Outcome State Fault Refusal :=
  if s.get fabStatusJoin = 1 ∧ s.get tickStatusLock = 2 ∧ 1000 ≤ s.fab.sinceAnnounce ∧ fabricOn s then done (announceAll s) else done s

/-- JOIN_ACCEPT: a node not yet accepted, refused or detaching takes its management and admin nodes and its windows; a repeat
changes nothing (R120). -/
def execJoinAccept (pkt : List Byte) (s : State) : Host.Outcome State Fault Refusal :=
  if !forUs s pkt ∨ pktOp pkt ≠ 0x42 then done s
  else
    let s := consumeAny pkt s
    if 2 ≤ s.get fabStatusJoin then done s
    else
      let u := leAt pkt 16 8
      let s := ((s.set fabMgmtNodeNode (bits u 0 12)).set fabAdminNodeNode (bits u 16 12)).set fabStatusJoin 2
      done (s.onFab (fun f => { f with windows := bits u 32 4 }))

/-- JOIN_REFUSE: the node becomes REFUSED, whatever it was, and stops announcing; which address the fabric fault names the spec
leaves open (R120). -/
def execJoinRefuse (pkt : List Byte) (s : State) : Host.Outcome State Fault Refusal :=
  if !forUs s pkt ∨ pktOp pkt ≠ 0x43 then done s
  else
    let (a, s) := (raise fabEvtRefused ((consumeAny pkt s).set fabStatusJoin 4)).takeFree
    done (fault .fabric 4 (pktSrc pkt) (a % 2 ^ 64) 0 none s)

/-! ## Departure (R122, R123) -/

/-- DETACH: from the admin node, sets the detach tick. -/
def execDetach (pkt : List Byte) (s : State) : Host.Outcome State Fault Refusal :=
  if !forUs s pkt ∨ pktOp pkt ≠ 0x44 then done s
  else
    let s := consumeAny pkt s
    if pktSrc pkt = s.get fabAdminNodeNode then done (s.set fabDetachAtAt (leAt pkt 16 8)) else done s

/-- The DETACH commands that wait in host queues complete (R594). -/
def detachCompletes (s : State) : State :=
  State.each ((List.range 16).filter (fun q => match (s.queue q).running with
    | some c => cmdOp c == 8 && (s.queue q).step != 0
    | none => false)) (fun q t => finish q 0 0 (cmdArg0 (((t.queue q).running).getD [])) t) s

/-- DETACH_REQUESTS_DRAINED: a detaching node with no request outstanding sends DETACH_DONE, completes the queue's DETACH, reads
DETACHED and enters P2 (R123, R471, R529). -/
def execDetachRequestsDrained (s : State) : Host.Outcome State Fault Refusal :=
  if !s.fab.detaching ∨ s.fab.reqs ≠ [] then done s
  else
    let s := sendMgmt (s.get fabMgmtNodeNode) 0x45 [] s
    done (enterP2 ((detachCompletes s).set fabStatusJoin 6))

/-! ## Fabric reset (R126, R542, R557) -/

/-- FABRIC_RESET: from the accepted timekeeper with FRST_EN set and the node past ready-for-plan, a fabric reset; else dropped and
counted. -/
def execFabricReset (pkt : List Byte) (late : BitVec 64) (ns : Nat) (s : State) : Host.Outcome State Fault Refusal :=
  if !forUs s pkt ∨ pktOp pkt ≠ 0x46 then done s
  else
    let s := consumeAny pkt s
    if pktSrc pkt = s.get tickTkNode ∧ s.flag fabRemoteCtlFrstEn ∧ isReady s then done (lowReset 3 5 late.toNat ns s)
    else done (s.bump fabDropNoRoute 1)

/-- FAB_FRST_CMD written with GO: on the timekeeper, FABRIC_RESET to the target. -/
def frstGo (target : Nat) (s : State) : State :=
  let s := s.set fabFrstCmdTarget target
  if s.flag tickStatusTk then sendMgmt target 0x46 [] s else s

/-- FRST_GO: a write of FAB_FRST_CMD with GO. -/
def execFrstGo (target : Fin 4096) (s : State) : Host.Outcome State Fault Refusal := done (frstGo target.val s)

/-! ## Broadcast (R114, R115) -/

/-- BCAST: a broadcast packet arrives on a port. -/
def execBcast (port : Fin 16) (pkt : List Byte) (s : State) : Host.Outcome State Fault Refusal :=
  if !fabricOn s ∨ pktOp pkt ≠ 0x47 then done s else done (bcast (some port.val) pkt (take port.val pkt s))

/-- PUSH_DONE: the plan ID in the standby bank and the reason (R108, R115). -/
def pushDone (s : State) : State :=
  sendMgmt (s.get fabMgmtNodeNode) 0x48
    (leBytes 16 (planAt s (standbyBank s) 8 4 + s.get tickPlanStatusReason * 2 ^ 32)) s

/-- Plan bytes that came over the fabric: written as the host would, and each check answered with PUSH_DONE; a PLAN_SEG for an armed
bank is dropped and answered with ARMED (R115). -/
def fabricPlan (seg : Bool) (b o : Nat) (bs : List Byte) (s : State) : State :=
  let armed := s.flag tickSwitchCtlArmed
  let active := b = activeBank s
  let s := planWrite b o bs s
  let last := 60 + 32 * bankSlots s b
  if active then s
  else if armed then (if seg then pushDone s else s)
  else if o ≤ last ∧ last < o + bs.length then pushDone s else s

/-- PLAN_SEG: a delivered broadcast with inner operation 1 writes units 1 to LEN − 1 at its offset of the standby plan bank; one
with another inner operation is not recognised. A node with no active route bank receives none (R114, R115). -/
def execPlanSeg (pkt : List Byte) (s : State) : Host.Outcome State Fault Refusal :=
  if !fabricOn s ∨ !s.flag fabStatusRoutes ∨ pktOp pkt ≠ 0x47 then done s
  else if leAt pkt 16 1 ≠ 1 then done (consumeAny pkt s)
  else done (fabricPlan true (standbyBank s) (leAt pkt 20 4) (slice pkt 32 (16 * (pktLen pkt - 1))) (consumeAny pkt s))

/-! ## Route tables (R101 to R103, R121) -/

/-- ROUTE_CHECK: a write of FAB_ROUTE_CTL.CHECK. -/
def execRouteCheck (s : State) : Host.Outcome State Fault Refusal := done (routeCheck s)

/-- A write of ADOPT_NOW: with the active plan bank empty and an accepted standby table, that table is active at once and the node a
member; with no JOIN_ACCEPT the windows are those of FAB_REMOTE_CTL. -/
def adoptNow (s : State) : State :=
  if s.flag tickStatusBankEmpty ∧ routeOk s (standbyRoute s) then
    let w := if s.get fabStatusJoin = 2 ∨ s.get fabStatusJoin = 3 then s.fab.windows else 15
    member (routeSwap (s.onFab (fun f => { f with windows := w })))
  else s

/-- ADOPT_NOW: a write of FAB_ROUTE_CTL.ADOPT_NOW. -/
def execAdoptNow (s : State) : Host.Outcome State Fault Refusal := done (adoptNow s)

end Sys2Proof.Machine
end

