-- ==== Sys2Proof/Machine/Mailbox.lean ====
section
/-! DEFINITION. The flash and fuse mailbox (R600 to R602). An operation takes effect when it starts; BUSY and REASON say when it
has ended. -/

namespace Sys2Proof.Machine

/-- Whether an operation on the flash meets the slot in use (R601). -/
def slotInUse (s : State) (a n : Nat) : Bool :=
  let ph := s.get idBootStatPhase
  decide (3 ≤ ph) && decide (ph ≤ 5) && meets a n (slotBase (s.get idBootStatSlot)) 0x4000000

/-- Bytes that an operation acts on. -/
def mboxLen (s : State) (op : Nat) : Nat := if op = 3 then 0x10000 else s.get idFlashLenBytes

/-- Whether KEY_HASH[k] is programmed, and whether a programmed, unrevoked key is left besides slot k. -/
def keyHeld (s : State) (k : Nat) : Bool := Tab.get 0 s.boot.keyHash k != 0
def otherKey (s : State) (k : Nat) : Bool :=
  (List.range 4).any (fun j => j != k && keyHeld s j && !bitOf s.boot.revoked j)

/-- Whether a FUSE operation breaks a rule of R602. -/
def fuseBad (s : State) : Bool :=
  let k := s.get idFuseArgSlot
  let v := s.get idFuseArgSvn
  match s.get idFuseArgFuseOp with
  | 0 => keyHeld s k
  | 1 => k == s.get idKeyStatUsed || !otherKey s k
  | 2 => decide (v ≤ s.boot.svn) || decide (s.get idImageSvnImage < v)
  | _ => true

/-- Why an operation is refused, the first cause of the table; 0 for none (R601). -/
def mboxReason (s : State) (op key : Nat) : Nat :=
  let ph := s.get idBootStatPhase
  let a := s.get idFlashAddrOffset
  let n := mboxLen s op
  let write := op == 2 || op == 3
  if s.host.mbox.isSome then 6
  else if (write && ph == 2) || (op == 4 && ph != 5) then 1
  else if write && slotInUse s a n then 2
  else if (write && decide (0x8000000 ≤ a + n - 1)) || (op != 4 && decide (0x10000000 < a + n)) then 3
  else if (op == 1 && (n == 0 || decide (4096 < n))) ||
      (op == 2 && (a % 256 != 0 || n % 256 != 0 || n == 0 || decide (4096 < n))) || (op == 3 && a % 0x10000 != 0) then 4
  else if op != 1 && key != 0x464C then 5
  else if op == 4 && fuseBad s then 8
  else 0

/-- Bytes of ID_FLASH_BUF. -/
def flashBufBytes (s : State) (o n : Nat) : List Byte := (List.range n).map (fun i => Tab.get 0 s.host.flashBuf (o + i))

/-- Bytes written to ID_FLASH_BUF. -/
def flashBufWrite (o : Nat) (bs : List Byte) (s : State) : State :=
  let put (t : Tab Byte) (x : Byte × Nat) : Tab Byte := if o + x.2 < 4096 then Tab.set 0 t (o + x.2) x.1 else t
  s.onHost (fun h => { h with flashBuf := bs.zipIdx.foldl put h.flashBuf })

/-- What an accepted operation does, and the REASON it will report. -/
def mboxDo (op a n : Nat) (s : State) : Nat × State :=
  let k := s.get idFuseArgSlot
  match op with
  | 1 => (0, flashBufWrite 0 (flashBytes s a n) s)
  | 2 =>
    let s' := flashProgram a (flashBufBytes s 0 n) s
    (if flashBytes s' a n = flashBufBytes s 0 n then 0 else 7, s')
  | 3 => (0, flashErase a n s)
  | _ =>
    match s.get idFuseArgFuseOp with
    | 0 => (0, s.onBoot (fun b => { b with keyHash := Tab.set 0 b.keyHash k (beNat (flashBufBytes s 0 48)) }))
    | 1 => (0, s.onBoot (fun b => { b with revoked := Nat.lor b.revoked (2 ^ k) }))
    | _ => (0, s.onBoot (fun b => { b with svn := s.get idFuseArgSvn }))

/-- A write of ID_FLASH_CTL with GO: the operation starts, or REFUSED and REASON are set. A reserved OP does nothing. -/
def mboxGo (op key : Nat) (s : State) : State :=
  let s := s.set idFlashCtlOp op
  if op = 0 ∨ 4 < op then s
  else
    let r := mboxReason s op key
    if r ≠ 0 then raise idFlashStatRefused (s.set idFlashStatReason r)
    else
      let a := if op = 4 then s.get idFuseArgFuseOp + 4 * s.get idFuseArgSlot + 16 * s.get idFuseArgSvn else s.get idFlashAddrOffset
      let n := if op = 4 then s.boot.svn else mboxLen s op
      let (why, s) := mboxDo op a n s
      (s.set idFlashStatBusy 1).onHost (fun h => { h with mbox := some (op, a, n, why) })

/-- Whether the ID block answers: the internal reset is released. -/
def idAnswers (s : State) : Bool := s.host.answers && !s.rst.held

/-- A GO of the mailbox from outside. -/
def mboxCommand (op key : Nat) (s : State) : Host.Outcome State Fault Refusal :=
  if idAnswers s then done (mboxGo op key s) else done s

/-- FLASH_READ: GO with OP READ. -/
def execFlashRead (s : State) : Host.Outcome State Fault Refusal := mboxCommand 1 0 s

/-- FLASH_PROGRAM: GO with OP PROGRAM and a key. -/
def execFlashProgram (key : BitVec 16) (s : State) : Host.Outcome State Fault Refusal := mboxCommand 2 key.toNat s

/-- FLASH_ERASE: GO with OP ERASE and a key. -/
def execFlashErase (key : BitVec 16) (s : State) : Host.Outcome State Fault Refusal := mboxCommand 3 key.toNat s

/-- FUSE_KEY_HASH: GO with OP FUSE while FUSE_OP is KEY_HASH. -/
def execFuseKeyHash (key : BitVec 16) (s : State) : Host.Outcome State Fault Refusal :=
  if s.get idFuseArgFuseOp = 0 then mboxCommand 4 key.toNat s else done s

/-- FUSE_REVOKE: GO with OP FUSE while FUSE_OP is REVOKE. -/
def execFuseRevoke (key : BitVec 16) (s : State) : Host.Outcome State Fault Refusal :=
  if s.get idFuseArgFuseOp = 1 then mboxCommand 4 key.toNat s else done s

/-- FUSE_SVN: GO with OP FUSE while FUSE_OP is SVN. -/
def execFuseSvn (key : BitVec 16) (s : State) : Host.Outcome State Fault Refusal :=
  if s.get idFuseArgFuseOp = 2 then mboxCommand 4 key.toNat s else done s

/-- FLASH_OP_DONE: the operation ends: BUSY clears, DONE and REASON are set, REFUSED too for VERIFY, the fuse registers follow, and
the alert cause becomes pending (R600 to R602, R610; DEDUCED, assumption 50). -/
def execFlashOpDone (s : State) : Host.Outcome State Fault Refusal :=
  match s.host.mbox with
  | none => done s
  | some (op, _, _, r) =>
    let s := ((s.onHost (fun h => { h with mbox := none })).set idFlashStatBusy 0).set idFlashStatReason r
    let s := if r = 7 then raise idFlashStatRefused s else s
    let s := if op = 4 then showFuses s else s
    done (raiseAlert idFlashStatDone 5 s)

end Sys2Proof.Machine
end

