-- ==== Sys2Proof/Machine/Register.lean ====
section
/-! DEFINITION. Register accesses (R2 to R5, R585, R616 to R622): the access codes, what a write of each register does, the
windows of BAR0 that hold no register fields, and reads. -/

namespace Sys2Proof.Machine

/-- The state a meaning answers, as an effect of a register write. -/
def after (s : State) (o : Host.Outcome State Fault Refusal) : State :=
  match o with
  | .next t => t
  | .fault _ => s
  | .refused _ => s

/-- The index of an instance among `cnt` at `base` with a stride, for the offset of one of its registers. -/
def inst (o base stride cnt : Nat) : Option Nat :=
  if base ≤ o ∧ (o - base) % stride = 0 ∧ (o - base) / stride < cnt then some ((o - base) / stride) else none

/-! ## Host queues by their registers (R589, R591, R593) -/

/-- A completion held for a full CQ leaves once there is room. -/
def releaseHeld (q : Nat) (s : State) : State :=
  match (s.queue q).held with
  | some (bs, quiet) => deliver q bs quiet (s.onQueue q (fun x => { x with held := none }))
  | none => s

/-- Entries that were fetched and have not begun are given up. -/
def dropFetched (q : Nat) (s : State) : State :=
  let keep := match (s.queue q).running with
    | some c => isSerial c
    | none => false
  (s.onQueue q (fun x => { x with order := [], cmds := [] })).onHost (fun h => { h with
    reads := h.reads.filter (fun r => !(r.2.1 == q && r.2.2.1 == 0))
    serial := (if keep then (h.serial.find? (fun k => k.1 == q)).toList else []) ++ h.serial.filter (fun k => k.1 != q) })

/-- A write of HST_Q[q]_CFG (R589): an accepted ENABLE sets the four indices to 0; a refused one sets QERR and leaves the
queue disabled. -/
def queueCfg (q x : Nat) (s : State) : State :=
  let n := bits x 1 4
  let s := dropFetched q (s.set (hstQCfgEntries q) n)
  if !bitOf x 0 then s.set (hstQCfgEnable q) 0
  else if s.get (hstQSqBaseAddr q) % 4096 = 0 ∧ s.get (hstQCqBaseAddr q) % 4096 = 0 ∧ 4 ≤ n ∧ n ≤ 12 then
    let s := (((s.set (hstQSqHeadIndex q) 0).set (hstQSqTailIndex q) 0).set (hstQCqHeadIndex q) 0).set (hstQCqTailIndex q) 0
    pumpQueues (releaseHeld q ((s.set (hstQCfgEnable q) 1).onQueue q (fun x => { x with phase := true })))
  else raise hstEvtQerr (s.set (hstQCfgEnable q) 0)

/-- A write of HST_Q[q]_SQ_TAIL, the doorbell (R591). -/
def queueTail (q v : Nat) (s : State) : State :=
  if s.flag (hstQCfgEnable q) ∧ v < qEntries s q then pumpQueues (s.set (hstQSqTailIndex q) v) else raise hstEvtQerr s

/-- A write of HST_Q[q]_CQ_HEAD (R593). -/
def queueHead (q v : Nat) (s : State) : State := pumpQueues (releaseHeld q (s.set (hstQCqHeadIndex q) v))

/-! ## MSI-X table and pending bits (R597, R598) -/

/-- Pending messages that may leave now do. -/
def msixFlush (s : State) : State :=
  State.each ((List.range 64).filter (fun v => bitOf s.host.msixPend v)) (fun v t =>
    sendVector v (t.onHost (fun h => { h with msixPend := clearBits h.msixPend (2 ^ v) }))) s

/-- A word of the MSI-X table. -/
def msixWord (s : State) (o : Nat) : Nat :=
  let e := Tab.get msixReset s.host.msix (o / 16)
  match o % 16 / 4 with
  | 0 => e.addr % 2 ^ 32
  | 1 => e.addr / 2 ^ 32
  | 2 => e.data
  | _ => e.ctrl

/-- A word of the MSI-X table written; an entry unmasked sends what is pending. -/
def msixWrite (o v : Nat) (s : State) : State :=
  let f (e : Msix) : Msix :=
    match o % 16 / 4 with
    | 0 => { e with addr := putBits e.addr 0 32 (v / 4 * 4) }
    | 1 => { e with addr := putBits e.addr 32 32 v }
    | 2 => { e with data := v }
    | _ => { e with ctrl := v % 2 }
  msixFlush (s.onHost (fun h => { h with msix := Tab.upd msixReset h.msix (o / 16) f }))

/-! ## Windows of BAR0 without register fields -/

/-- The windows: 0 FLASH_BUF, 1 the MSI-X table, 2 the pending bits, 3 and 4 the plan banks, 5 and 6 the route banks, 7
TEL_LAST, 8 TEL_FAULT_BUF; with the offset in the window. -/
def windowOf (o : Nat) : Option (Nat × Nat) :=
  ([(0x11000, 0x1000), (0x20000, 0x400), (0x30000, 8), (0x110000, 0x10000), (0x120000, 0x10000), (0x410000, 0x4000),
    (0x420000, 0x4000), (0x1C00100, 0x100), (0x1C01100, 0x200)].zipIdx.find? (fun x => decide (x.1.1 ≤ o) &&
      decide (o < x.1.1 + x.1.2))).map (fun x => (x.2, o - x.1.1))

/-- A word of a window. Bytes of plan and route tables that their formats reserve read back as written: R3 speaks of the reserved
fields of registers, and whether it covers a table format held in a window is open (DESIGN CHOICE, log entry 65). -/
def windowWord (s : State) (k o : Nat) : Nat :=
  let bytes (f : Nat → Byte) : Nat := leNat ((List.range 4).map (fun i => f (o + i)))
  match k with
  | 0 => leNat (flashBufBytes s o 4)
  | 1 => msixWord s o
  | 2 => bits s.host.msixPend (8 * o) 32
  | 3 => planAt s 0 o 4
  | 4 => planAt s 1 o 4
  | 5 => bytes (fun i => Tab.get 0 s.fab.banks i)
  | 6 => bytes (fun i => Tab.get 0 s.fab.banks (16384 + i))
  | 7 => bytes (fun i => Tab.get 0 s.fum.last i)
  | _ => bytes (fun i => Tab.get 0 s.flt.buf i)

/-- A word of a window written; `fabric` when it came in a remote WRITE (R120). -/
def windowWrite (fabric : Bool) (k o v : Nat) (s : State) : State :=
  let bs := leBytes 4 v
  match k with
  | 0 => flashBufWrite o bs s
  | 1 => msixWrite o v s
  | 3 => if fabric then fabricPlan false 0 o bs s else planWrite 0 o bs s
  | 4 => if fabric then fabricPlan false 1 o bs s else planWrite 1 o bs s
  | 5 => routeWrite 0 o bs s
  | 6 => routeWrite 1 o bs s
  | _ => s

/-! ## Writes (R2, R4) -/

/-- Whether a field has a bit among `n` bytes from bit `lo`. -/
def Fld.meets (f : Fld) (lo n : Nat) : Bool := decide (f.lsb < lo + 8 * n) && decide (lo < f.lsb + f.width)

/-- What a write presents to the whole register: the bytes written, and elsewhere the RW fields as they stand. -/
def mergeReg (r : Reg) (lo n v : Nat) (s : State) : Nat :=
  let cur := (r.flds.map (fun f => if f.acc == .rw then s.get f * 2 ^ f.lsb else 0)).sum
  clearBits cur ((2 ^ (8 * n) - 1) * 2 ^ lo) + v % 2 ^ (8 * n) * 2 ^ lo

/-- The RW and W1C fields that a write touches (R2). -/
def storeFlds (r : Reg) (lo n x : Nat) (s : State) : State :=
  State.each (r.flds.filter (fun f => f.meets lo n)) (fun f t =>
    match f.acc with
    | .rw => t.set f (bits x f.lsb f.width)
    | .w1c => t.set f (clearBits (t.get f) (bits x f.lsb f.width))
    | .ro | .wo | .rc => t) s

/-- What a write does in the identity block (R600, R610); `old` is ALERT_EN before the write. A pending cause newly enabled
drives SMB_ALERT_N low, and it is released when no pending cause is enabled. -/
def idWrite (o x old : Nat) (s : State) : State :=
  if o = idFlashCtlOp.reg then (if bitOf x 3 then mboxGo (bits x 0 3) (bits x 16 16) s else s)
  else if o = idMgtCtlAlertEn.reg then
    let on := Nat.land s.host.alerts (s.get idMgtCtlAlertEn)
    s.onHost (fun h => { h with alertLow := (h.alertLow && on != 0) || clearBits on old != 0 })
  else s

/-- What a write does in the tick block. -/
def tickWrite (o x : Nat) (s : State) : State :=
  if o = tickMarginDefaultPct.reg then clampFld tickMarginDefaultPct 0 50 s
  else if o = tickSwitchCtlArm.reg then
    let s := if bitOf x 0 then after s (execArm (bitOf x 2) s) else s
    if bitOf x 1 then disarm s else s
  else s

/-- What a write does in port `p` (R61, R80, R84). -/
def elvWrite (p o x : Nat) (s : State) : State :=
  let port := Fin.ofNat 16 p
  if o = (elvCfgEnable p).reg then after s (execPortEnable port (bitOf x 0) s)
  else if o = (elvCtlRetrain p).reg then
    let s := if bitOf x 1 then after s (execUnfence port s) else s
    let s := if bitOf x 0 then after s (execRetrain port s) else s
    if bitOf x 2 then after s (execRenegotiate port s) else s
  else s

/-- What a write does in the fabric block (R101, R103, R112, R126). -/
def fabWrite (o x : Nat) (s : State) : State :=
  if o = fabRouteCtlCheck.reg then
    let s := if bitOf x 0 then routeCheck s else s
    if bitOf x 1 then adoptNow s else s
  else if o = fabReqTimeoutUs.reg then clampFld fabReqTimeoutUs 200 (2 ^ 32 - 1) s
  else if o = fabFrstCmdTarget.reg then (if bitOf x 12 then frstGo (bits x 0 12) s else s)
  else s

/-- What a write does in the collectives block; `old` is the step before the write. -/
def calWrite (o x old : Nat) (s : State) : State :=
  if o = calCtlRetryMax.reg then
    let s := clampFld calCtlRetryMax 1 15 s
    if bitOf x 5 then after s (execCalResume s) else s
  else if o = calStepStep.reg then (if s.flag tickStatusBankEmpty then s else s.set calStepStep old)
  else if o = calResolveStep.reg then after s (execCalResolve (BitVec.ofNat 64 x) s)
  else s

/-- What a write does in the channel registers of a channel. -/
def chanWrite (c o x : Nat) (s : State) : State :=
  if o = (if c < 256 then (hbmTgCtlStart (c / 32) (c % 32)).reg else (dtcTgCtlStart (c - 256)).reg) then
    let s := if bitOf x 0 then tgStart c x (decide (c < 256) && rlNames s c) s else s
    if bitOf x 1 then tgAbort c s else s
  else s

/-- What a write does in the registers of stack `k`, or of the deep tier for `none`. -/
def careWrite (k : Option Nat) (o x : Nat) (s : State) : State :=
  match k with
  | some st =>
    if o = (hbmCtlScrubEn st).reg then clampFld (hbmCtlCeLimit st) 1 255 s
    else if o = (hbmScrubGapCycles st).reg then clampFld (hbmScrubGapCycles st) 256 (2 ^ 24 - 1) s
    else if o = (hbmRemapReqRow st).reg then after s (execRemapReq (some (Fin.ofNat 8 st)) (BitVec.ofNat 32 x) s)
    else chanWrite (st * 32 + o % 0x1000 / 0x40 - 4) o x s
  | none =>
    if o = dtcCtlScrubEn.reg then clampFld dtcCtlCeLimit 1 255 s
    else if o = dtcScrubGapCycles.reg then clampFld dtcScrubGapCycles 256 (2 ^ 24 - 1) s
    else if o = dtcRemapReqBlock.reg then after s (execRemapReq none (BitVec.ofNat 32 x) s)
    else chanWrite (256 + (o % 0x1000 / 0x40 - 4)) o x s

/-- What a write does in the row-logic block (R261, R265). -/
def rlgWrite (o x : Nat) (s : State) : State :=
  if o = rlgFenceGo.reg then (if bitOf x 0 then after s (execRlFenceGo s) else s)
  else
    match inst o (rlgStackSubmitAddr 0).reg 0x20 8 with
    | some st => after s (execRlgSubmit (Fin.ofNat 8 st) (BitVec.ofNat 64 x) s)
    | none => s

/-- What a write does in stream context `c`. -/
def strWrite (c o x : Nat) (s : State) : State :=
  let ctx := Fin.ofNat 512 c
  if o = (strCtlHalt c).reg then
    let s := if bitOf x 0 then after s (execContextHalt ctx s) else s
    let s := if bitOf x 1 then after s (execStreamResume ctx s) else s
    let s := if bitOf x 2 then after s (execContextSave ctx s) else s
    if bitOf x 3 then after s (execContextRestore ctx s) else s
  else s

/-- What a write does in engine `e`. -/
def upeWrite (e o x : Nat) (s : State) : State :=
  let eng := Fin.ofNat 64 e
  if o = (upeCtlHalt e).reg then
    let s := if bitOf x 0 then after s (execEngineHalt eng s) else s
    let s := if bitOf x 1 then after s (execEngineSave eng s) else s
    if bitOf x 2 then after s (execEngineRestore eng s) else s
  else if o = (upeSubmitAddr e).reg then after s (execEngineSubmit eng (BitVec.ofNat 64 x) s)
  else s

/-- What a write does in the KV block. -/
def kvsWrite (o x : Nat) (s : State) : State :=
  match inst o (kvsPoolCtlLoad 0).reg 0x40 8 with
  | some p =>
    let pool := Fin.ofNat 8 p
    let s := if bitOf x 0 then after s (execPoolLoad pool s) else s
    let s := if bitOf x 1 then after s (execPoolUnload pool s) else s
    if bitOf x 2 then after s (execLabFlush pool s) else s
  | none => s

/-- What a write does in the noise-source block; `old` is SOURCE_EN before the write. -/
def rngWrite (o x old : Nat) (s : State) : State :=
  if o = rngCtlSourceEn.reg then
    let s := sourceEnable (bitOf x 0) (s.set rngCtlSourceEn old)
    if bitOf x 1 then after s (execRetest s) else s
  else if o = rngLfsrCmdGo.reg then after s (execLfsrSeed (BitVec.ofNat 32 x) s)
  else s

/-- What a write does in the coherence block (R440 to R442); KIND 3 is refused. -/
def cohWrite (o x old : Nat) (s : State) : State :=
  if o = cohFenceGo.reg then
    let s := if s.flag cohFenceBusy then s.set cohFenceKind old else s
    if !bitOf x 0 then s
    else if bits x 1 2 = 3 then raise cohFenceRefused s
    else fenceGo (bits x 1 2) s
  else s

/-- What a write does in the power block (R512, R518, R527). -/
def fumWrite (o x : Nat) (s : State) : State :=
  if o = fumPstateReq.reg then
    if !bitOf x 2 then s
    else match bits x 0 2 with
      | 0 => after s (execP1Exit s)
      | 2 => after s (execP1Entry s)
      | r => pstateRefuse r s
  else if o = fumBudgetNextWatts.reg then clampFld fumBudgetNextWatts 450 1350 s
  else if o = fumBudgetDefaultWatts.reg then clampFld fumBudgetDefaultWatts 450 1350 s
  else if o = fumHotShare.reg then clampFld fumHotShare 25 100 s
  else if o = fumCoolWatts.reg then clampFld fumCoolWatts 450 1350 s
  else s

/-- What a write does in the host block. -/
def hstWrite (o : Nat) (s : State) : State :=
  if o = hstIrqEnVectors.reg then s.set hstIrqEnVectors (Nat.lor (s.get hstIrqEnVectors) 1)
  else s

/-- Registers whose fields no write stores but through the meaning of its own: their effect, if `o` is one. -/
def ownWrite (o x : Nat) (s : State) : Option State :=
  if 0x800100 ≤ o ∧ o < 0x800500 then
    let p := (o - 0x800100) / 0x40
    let part := Fin.ofNat 16 p
    match (o - 0x800100) % 0x40 with
    | 0x00 =>
      some (if bitOf x 0 then after s (execPartitionEnable part (BitVec.ofNat 32 x) s)
        else after s (execPartitionDisable part (BitVec.ofNat 32 x) s))
    | 0x04 => some (writeRange p x s)
    | 0x08 => some (after s (execRegulatorWrite part false (BitVec.ofNat 32 x) s))
    | 0x0C => some (after s (execRegulatorWrite part true (BitVec.ofNat 32 x) s))
    | 0x10 => some (writeSplit p x s)
    | _ => none
  else if 0xd00000 ≤ o ∧ o < 0xd80000 ∧ o % 0x400 = 0x10 then
    some (after s (execFloorWrite (Fin.ofNat 512 ((o - 0xd00000) / 0x400)) (BitVec.ofNat 32 x) s))
  else if 0x1000000 ≤ o ∧ o < 0x1400000 ∧ 0x1000 ≤ o % 0x10000 ∧ o % 0x10000 < 0x2000 then
    some (ruleWrite (o / 0x10000 % 64) (o % 0x1000 / 4) x s)
  else if 0x1a00100 ≤ o ∧ o < 0x1a00500 then
    let q := (o - 0x1a00100) / 0x40
    match (o - 0x1a00100) % 0x40 with
    | 0x10 => some (queueCfg q x s)
    | 0x14 => some (queueTail q (bits x 0 12) s)
    | 0x1C => some (queueHead q (bits x 0 12) s)
    | _ => none
  else none

/-- What a write of register `o` does beside storing its fields; `x` is the register as written, `t` the state before. `src`
names the writer as RST_STATUS.SOURCE does. -/
def regEffect (src o x : Nat) (t s : State) : State :=
  if o < 0x100000 then idWrite o x (t.get idMgtCtlAlertEn) s
  else if o < 0x200000 then tickWrite o x s
  else if o < 0x300000 then elvWrite (o / 0x10000 % 16) o x s
  else if o < 0x600000 then fabWrite o x s
  else if o < 0x800000 then calWrite o x (t.get calStepStep) s
  else if o < 0xa00000 then s
  else if o < 0xb00000 then careWrite (some (o / 0x10000 % 16)) o x s
  else if o < 0xc00000 then careWrite none o x s
  else if o < 0xd00000 then rlgWrite o x s
  else if o < 0xd80000 then strWrite ((o - 0xd00000) / 0x400) o x s
  else if o < 0x1000000 then (if (gldGroupCfgLookahead 0).reg ≤ o ∧ o < 0xe00200 then strSync s else s)
  else if o < 0x1400000 then upeWrite (o / 0x10000 % 64) o x s
  else if o < 0x1500000 then
    (if o = mxaSubmitAddr.reg then after s (execMxaSubmit (BitVec.ofNat 64 x) s) else s)
  else if o < 0x1600000 then kvsWrite o x s
  else if o < 0x1700000 then rngWrite o x (t.get rngCtlSourceEn) s
  else if o < 0x1800000 then cohWrite o x (t.get cohFenceKind) s
  else if o < 0x1900000 then fumWrite o x s
  else if o < 0x1a00000 then
    if o = rstCtlModule.reg then
      let (ns, s) := s.takeFree
      rstWrite x src 0 false ns s
    else s
  else if o < 0x1b00000 then hstWrite o s
  else if o < 0x1c00000 then
    (if o = mmuInvalAsid.reg then after s (execMmuInval (BitVec.ofNat 64 x) s) else s)
  else if o = telClaimAckPort.reg then after s (execClaimAck (Fin.ofNat 16 (bits x 0 4)) (BitVec.ofNat 16 (bits x 16 16)) s)
  else s

/-- A write of `n` bytes, 4 or 8, of a register. -/
def regStore (src : Nat) (r : Reg) (lo n v : Nat) (s : State) : State :=
  let x := mergeReg r lo n v s
  match ownWrite r.off x s with
  | some t => t
  | none => regEffect src r.off x s (storeFlds r lo n x s)

/-- One aligned word written (R4, R617). -/
def wordWrite (src o v : Nat) (s : State) : State :=
  match windowOf o with
  | some (k, w) => windowWrite (src == 4) k w v s
  | none =>
    match regAt o with
    | some r => regStore src r (8 * (o - r.off)) 4 v s
    | none => s

/-- Whether an aligned 8-byte access at `o` is one access of a 64-bit register (R4, R621). -/
def wideAt (o : Nat) : Option Reg :=
  match regAt o with
  | some r => if r.size = 8 ∧ r.off = o then some r else none
  | none => none

/-- Aligned words written in ascending order, a whole 64-bit register as one access (R585, R620). A reset that the write
starts ends it. -/
def wordsWrite (src : Nat) : Nat → Nat → List Byte → State → State
  | 0, _, _, s => s
  | k + 1, o, bs, s =>
    if bs.length < 4 ∨ s.rst.held then s
    else
      match (if 8 ≤ bs.length then wideAt o else none) with
      | some r => wordsWrite src k (o + 8) (bs.drop 8) (regStore src r 0 8 (leAt bs 0 8) s)
      | none => wordsWrite src k (o + 4) (bs.drop 4) (wordWrite src o (leAt bs 0 4) s)

/-! ## Reads (R2, R4, R5) -/

/-- Whether the event register at `o` holds a set bit. -/
def evtSet (s : State) (o : Nat) : Bool := s.regs.any (fun p => p.1 / 32 == o / 4)

/-- One bit for each of `n` event registers. -/
def evtMask (s : State) (n : Nat) (f : Nat → Nat) : Nat := ((List.range n).map (fun i => b2n (evtSet s (f i)) * 2 ^ i)).sum

/-- What a read returns of a field: 0 of a write-only one, the live value of the lights and of the summaries. -/
def readFld (s : State) (f : Fld) : Nat :=
  if f.acc == .wo then 0
  else if f = idLedCtlStatusShown then (lightsOf s).status
  else if f = idLedCtlSafe then b2n ((lightsOf s).safe == 1)
  else if f = hstSummaryPorts then evtMask s 16 (fun n => 0x20001c + n * 0x10000)
  else if f = hstSummaryStacks then evtMask s 8 (fun n => 0xa00010 + n * 0x10000)
  else if f = hstSummaryDeep then b2n (evtSet s dtcEvtUe.reg)
  else if (hstStrSummaryCtx 0).reg ≤ f.reg ∧ f.reg ≤ (hstStrSummaryCtx 7).reg then
    let i := (f.reg - (hstStrSummaryCtx 0).reg) / 8
    evtMask s 64 (fun b => 0xd00014 + (64 * i + b) * 0x400)
  else s.get f

/-- The value of a register. -/
def regValue (r : Reg) (s : State) : Nat := (r.flds.map (fun f => readFld s f * 2 ^ f.lsb)).sum

/-- The place of a counter in the telemetry record, for the clearing counters that it sums (R509). -/
def lostIndex (f : Fld) : Option Nat :=
  if (List.range 16).any (fun n => f == elvReplayReplays n) then some 8
  else if (List.range 16).any (fun n => f == elvErrCrc n) then some 9
  else if f = memLossCount 6 ∨ f = memLossCount 14 then some 4
  else if f = memLossCount 1 ∨ f = memLossCount 9 then some 5
  else if f = fumCapCycCount then some 12
  else none

/-- The RC fields among the bytes read are cleared (R2); what telemetry still has to report of them is kept. A read of part of a field
clears all of it, and a narrow read is a read of its whole word (DESIGN CHOICE: the spec is silent on both; log entry 65). -/
def clearRead (r : Reg) (lo n : Nat) (s : State) : State :=
  State.each (r.flds.filter (fun f => f.acc == .rc && f.meets lo n)) (fun f t =>
    let t := match lostIndex f with
      | some k => t.onFum (fun m => { m with lost := Tab.upd 0 m.lost k (fun v => v + t.get f) })
      | none => t
    t.set f 0) s

/-- Whether R5 latches a register: 64 bits, every field RO or RC. -/
def latches (r : Reg) : Bool := r.size == 8 && !r.flds.isEmpty && r.flds.all (fun f => f.acc == .ro || f.acc == .rc)

/-- A read of `n` bytes, 4 or 8, of a register. Each register has one latch, which the host port, the management port and the fabric
share (DESIGN CHOICE: R5 does not say whose read takes the latched word; log entry 65). -/
def regFetch (r : Reg) (lo n : Nat) (s : State) : Nat × State :=
  let held := Tab.get 0 s.host.latch r.off
  if latches r ∧ n = 4 ∧ lo = 32 ∧ held ≠ 0 then (held - 1, s.onHost (fun h => { h with latch := Tab.set 0 h.latch r.off 0 }))
  else
    let (v, s) := if r.off = rngSeedWord.reg then rngSeedTake s else (regValue r s, clearRead r lo n s)
    let s := if latches r ∧ n = 4 ∧ lo = 0 then
      s.onHost (fun h => { h with latch := Tab.set 0 h.latch r.off (v / 2 ^ 32 % 2 ^ 32 + 1) }) else s
    (bits v lo (8 * n), s)

/-- One aligned word read (R4, R617). -/
def wordRead (o : Nat) (s : State) : Nat × State :=
  match windowOf o with
  | some (k, w) => (windowWord s k w, s)
  | none =>
    match regAt o with
    | some r => regFetch r (8 * (o - r.off)) 4 s
    | none => (0, s)

/-- An aligned read of 4 or 8 bytes (R4, R621). -/
def regRead (o n : Nat) (s : State) : Nat × State :=
  if n = 8 then
    match wideAt o with
    | some r => regFetch r 0 8 s
    | none =>
      let (a, s) := wordRead o s
      let (b, s) := wordRead (o + 4) s
      (a + b * 2 ^ 32, s)
  else wordRead o s

/-- Bytes of a word read narrowly: the bytes of the containing word (R4). The latch of R5 serves and follows 32-bit reads only, so
a narrow read neither returns nor changes it. -/
def narrowRead (o n : Nat) (s : State) : Nat × State :=
  let (v, t) := wordRead (o / 4 * 4) (s.onHost (fun h => { h with latch := [] }))
  (bits v (8 * (o % 4)) (8 * n), t.onHost (fun h => { h with latch := s.host.latch }))

/-! ## Host accesses (R498, R585, R622) -/

/-- Whether an offset is served: all of BAR0, or the identity block alone in the bring-up window and in P2. -/
def regOpen (s : State) (o : Nat) : Bool :=
  decide (o < 0x100000) || (!s.flag idBootStatWindow && s.get fumStatusState != 3)

/-- Whether a request for a write is one the node serves: whole aligned words, 4 to 128 bytes. -/
def writeServed (o n : Nat) : Bool := decide (4 ≤ n) && decide (n ≤ 128) && n % 4 == 0 && o % 4 == 0

/-- Whether host accesses of BAR0 reach the node: its ID block answers, and memory decoding is not off in D3hot (R586). -/
def barReach (s : State) : Bool := idAnswers s && !s.host.d3

/-- A host write of BAR0: malformed ones are counted in BAR0_DROP, those the window or P2 shuts out in BOOT_DROPS. -/
def barWrite (src o : Nat) (bs : List Byte) (s : State) : State :=
  if !regOpen s o then s.bump idBootDropsWrites 1
  else if !writeServed o bs.length then s.bump hstErrBar0Drop 1
  else
    let n := if o < 0x100000 ∧ !regOpen s 0x100000 then min bs.length (0x100000 - o) else bs.length
    wordsWrite src 32 o (bs.take n) (if n < bs.length then s.bump idBootDropsWrites 1 else s)

/-- A host read of BAR0: its value, or none for Unsupported Request. -/
def barRead (o n : Nat) (s : State) : Option Nat × State :=
  if (n = 4 ∨ n = 8) ∧ o % n = 0 then
    if regOpen s o then
      let (v, s) := regRead o n s
      (some v, s)
    else (some (2 ^ (8 * n) - 1), s)
  else if 1 ≤ n ∧ n ≤ 3 ∧ o % 4 + n ≤ 4 then
    if regOpen s o then
      let (v, s) := narrowRead o n s
      (some v, s)
    else (some (2 ^ (8 * n) - 1), s)
  else (none, s)

/-- A host read answered. -/
def hostAnswer (r : Option Nat × State) : State :=
  match r.1 with
  | some v => r.2.emit (.value v)
  | none => r.2.emit (.hostStatus 1)

/-- The W1C fields of the register at `o` whose bits hardware sets in the cycle of a write, by bit number in the register. -/
def sameSets (o : Nat) (sets : List Nat) : List Fld :=
  match regAt o with
  | some r => r.flds.filter (fun f => f.acc == .w1c && sets.contains f.lsb)
  | none => []

/-- REGISTER_WRITE: a host write of BAR0 (R2, R4, R585). A set of a W1C bit that reaches it in the same cycle comes before the
write and is not cleared by it (R11). -/
def execRegisterWrite (off : Nat) (data : WriteData) (s : State) : Host.Outcome State Fault Refusal :=
  if barReach s then
    let o := off % 2 ^ 28
    let fs := sameSets o data.sets
    done (State.each fs (fun f t => t.set f 1) (barWrite 3 o data.bytes (State.each fs raise s)))
  else done s

/-- A hardware update of an RC field: a count, or the highest reading. -/
def rcUpdate (f : Fld) (v : Nat) (s : State) : State :=
  if (List.range 8).any (fun k => f == hbmTempMax k) ∨ f = cohQueueHigh then s.set f (max (s.get f) v) else s.bump f v

/-- RC_READ: a host read of BAR0; `same` gives the hardware updates that reach the fields of the register in the same
cycle, which are applied after the clear (R2, R12). -/
def execRcRead (off len : Nat) (same : List Nat) (s : State) : Host.Outcome State Fault Refusal :=
  if barReach s then
    let o := off % 2 ^ 28
    let s := hostAnswer (barRead o len s)
    let fs : List Fld := match regAt o with
      | some r => r.flds.filter (fun f => f.acc == .rc && f != rngSeedWord)
      | none => []
    done (State.each (fs.zip same) (fun p t => rcUpdate p.1 p.2 t) s)
  else done s

/-- LATCHED_LOW_WORD_READ: a 32-bit host read; of the low word of a 64-bit RO or RC register it latches the high word (R5). -/
def execLatchedLowWordRead (off : Nat) (s : State) : Host.Outcome State Fault Refusal :=
  if barReach s then done (hostAnswer (barRead (off % 2 ^ 28) 4 s)) else done s

end Sys2Proof.Machine
end

