-- ==== Sys2Proof/Machine/FabServe.lean ====
section
/-! DEFINITION. Remote requests served at this node (R107 to R111, R175, R201): reads, writes and atomics of the memory
region and of the register windows, and their responses. -/

namespace Sys2Proof.Machine

/-- The windows of registers that the fabric may reach now: as JOIN_ACCEPT opened them, limited by FAB_REMOTE_CTL (R120). -/
def windowsNow (s : State) : Nat :=
  let w := Nat.land s.fab.windows
    (s.get fabRemoteCtlMemEn + 2 * s.get fabRemoteCtlPlanWin + 4 * s.get fabRemoteCtlRouteWin + 8 * s.get fabRemoteCtlAllRegs)
  w

/-- Whether a word of BAR0 lies in a permitted window: all of it; the plan banks and the switch registers; the route banks and
FAB_ROUTE_CTL. -/
def wordPermitted (s : State) (o : Nat) : Bool :=
  let w := windowsNow s
  bitOf w 3 ||
    (bitOf w 1 && ((decide (0x110000 ≤ o) && decide (o < 0x130000)) || (decide (0x100040 ≤ o) && decide (o < 0x100050)))) ||
    (bitOf w 2 && ((decide (0x410000 ≤ o) && decide (o < 0x414000)) || (decide (0x420000 ≤ o) && decide (o < 0x424000)) ||
      o == 0x40000C))

/-- The local part of a fabric address: its region and the offset in it (R96). -/
def pktRegion (pkt : List Byte) : Nat := bits (pktAddr pkt) 48 4
def pktOff (pkt : List Byte) : Nat := bits (pktAddr pkt) 0 48

/-- Payload units a request must carry. -/
def pktUnits (pkt : List Byte) : Nat := if pktOp pkt = 1 then 0 else pktLen pkt

/-- Whether a request breaks its format: a reserved OP, FMT, HINT or field, a payload that disagrees with LEN, an atomic of
other than one unit, a C80 operand that is not sign-extended (R107, R108, R201). -/
def pktMalformed (pkt : List Byte) : Bool :=
  let atomic := pktOp pkt == 3 || pktOp pkt == 4
  !isRequest (pktOp pkt) || bits (leAt pkt 0 2) 14 2 != 0 || bits (leAt pkt 2 2) 14 2 != 0 || pktHint pkt == 3 ||
    decide (6 ≤ pktFmt pkt) || (pktData pkt).length != 16 * pktUnits pkt ||
    (atomic && (pktLen pkt != 1 || pktRegion pkt == 1 || !atomicOk (pktFmt pkt) (leAt (pktData pkt) 0 16)))

/-- The status a request earns before it is performed, 0 when it may be (R109, R110): FORMAT, DENIED for the state of this node,
UNMAPPED for the region, DENIED for the source and the windows, ALIGN. A REFUSED node answers DENIED to every request (R120).
A node that is detaching still serves (R123). A register access whose bits [47:28] are not 0 answers UNMAPPED: R96 names no
status for it (DESIGN CHOICE, assumption 70). -/
def requestStatus (s : State) (pkt : List Byte) : Nat :=
  let atomic := pktOp pkt == 3 || pktOp pkt == 4
  let o := pktOff pkt
  if s.get fabStatusJoin = 4 then 2
  else if pktMalformed pkt then 6
  else if s.get fabStatusJoin ≠ 2 ∧ s.get fabStatusJoin ≠ 3 ∧ s.get fabStatusJoin ≠ 5 then 2
  else if 2 ≤ pktRegion pkt ∨ (pktRegion pkt = 1 ∧ 2 ^ 28 ≤ o) then 1
  else if pktRegion pkt = 1 ∧ (pktSrc pkt ≠ s.get fabAdminNodeNode ∨ !wordPermitted s (o / 4 * 4)) then 2
  else if pktRegion pkt = 0 ∧ !bitOf (windowsNow s) 0 then 2
  else if atomic then (if o % atomicSize (pktFmt pkt) = 0 then 0 else 3)
  else if pktLen pkt = 0 ∨ 16 < pktLen pkt ∨ 256 < o % 256 + 16 * pktLen pkt ∨ (pktRegion pkt = 1 ∧ o % 4 ≠ 0) then 3
  else 0

/-- A request for this node taken, checked, performed and answered. `f` performs it: its status, its data and the state. -/
def serveRequest (op : Nat) (port : Nat) (pkt : List Byte) (f : State → Nat × List Byte × State) (s : State) : State :=
  let known := isRequest (pktOp pkt)
  if !forUs s pkt ∨ (known ∧ pktOp pkt ≠ op) ∨ (!known ∧ (op ≠ 2 ∨ pktVc pkt ≠ 1)) then s
  else
    let s := take port pkt s
    let r := requestStatus s pkt
    let (st, d, s) := if r = 0 then f s else (r, [], s)
    respond (some port) (pktSrc pkt) (responseOp (pktOp pkt)) (pktTag pkt) st d s

/-- The words of a register access, those outside the permitted windows read as 0. -/
def regWords (s : State) : Nat → Nat → List Byte × State
  | 0, _ => ([], s)
  | k + 1, o =>
    let (v, t) := if wordPermitted s o then wordRead o s else (0, s)
    let (bs, u) := regWords t k (o + 4)
    (leBytes 4 v ++ bs, u)

/-- A remote READ performed: at the memory-side cache with the packet's hint, or word by word in the register windows (R111). -/
def doRead (pkt : List Byte) (s : State) : Nat × List Byte × State :=
  let o := pktOff pkt
  let n := 16 * pktLen pkt
  if pktRegion pkt = 1 then
    let (bs, s) := regWords s (n / 4) o
    (0, bs, s)
  else
    let (bs, refused, poison, s) := useRead 584 o n (pktHint pkt) 1 s
    if refused then (1, [], s) else if poison then (4, [], s) else (0, bs, s)

/-- The permitted leading words of a register write. -/
def permittedBytes (s : State) (o : Nat) (bs : List Byte) : List Byte :=
  bs.take (4 * ((List.range (bs.length / 4)).takeWhile (fun i => wordPermitted s (o + 4 * i))).length)

/-- A remote WRITE performed (R111, R175): a refused one stores nothing; a failed channel answers POISON (R217). -/
def doWrite (pkt : List Byte) (s : State) : Nat × List Byte × State :=
  let o := pktOff pkt
  let n := 16 * pktLen pkt
  if pktRegion pkt = 1 then (0, [], wordsWrite 4 64 o (permittedBytes s o (pktData pkt)) s)
  else if !servedRange s o n then (1, [], s)
  else
    let (_, po, s) := usePut 584 o (pktData pkt) (pktHint pkt) 1 none s
    (if po then 4 else 0, [], s)

/-- A remote atomic performed at the adder of its channel (R111, R198 to R201). -/
def doAtomic (pkt : List Byte) (s : State) : Nat × List Byte × State :=
  let o := pktOff pkt
  if refusal s o ≠ 0 then (1, [], s)
  else
    let (old, poison, s) := atomicNow 584 (pktFmt pkt) o (leAt (pktData pkt) 0 (atomicSize (pktFmt pkt))) s
    if poison then (4, [], s) else (0, if pktOp pkt = 4 then leBytes 16 old else [], s)

/-- READ: answered with READ_DATA. -/
def execRead (port : Fin 16) (pkt : List Byte) (s : State) : Host.Outcome State Fault Refusal :=
  whole (fun s =>
    done (serveRequest 1 port.val pkt (doRead pkt) s)) s

/-- WRITE: answered with WRITE_ACK, as is a request with a reserved OP (R108). -/
def execWrite (port : Fin 16) (pkt : List Byte) (s : State) : Host.Outcome State Fault Refusal :=
  whole (fun s =>
    done (serveRequest 2 port.val pkt (doWrite pkt) s)) s

/-- ATOMIC_ADD: answered with ATOMIC_ACK. -/
def execAtomicAdd (port : Fin 16) (pkt : List Byte) (s : State) : Host.Outcome State Fault Refusal :=
  whole (fun s =>
    done (serveRequest 3 port.val pkt (doAtomic pkt) s)) s

/-- FETCH_ADD: answered with ATOMIC_ACK and the value before. -/
def execFetchAdd (port : Fin 16) (pkt : List Byte) (s : State) : Host.Outcome State Fault Refusal :=
  whole (fun s =>
    done (serveRequest 4 port.val pkt (doAtomic pkt) s)) s

end Sys2Proof.Machine
end

