-- ==== Sys2Proof/Machine/HostPort.lean ====
section
/-! DEFINITION. The host port: queue registers, the commands that drivers put in the queues, completions of the node's reads
of host memory, host memory requests, configuration requests, and the host link (R501, R582 to R606). -/

namespace Sys2Proof.Machine

/-! ## Queue registers (R589, R591, R593) -/

/-- A driver's write of one word of HST_Q[q]. -/
def queueReg (q o v : Nat) (s : State) : Host.Outcome State Fault Refusal :=
  if barReach s then done (barWrite 3 (0x1a00100 + 0x40 * q + o) (leBytes 4 v) s) else done s

/-- QUEUE_ENABLE: a write of HST_Q[q]_CFG. -/
def execQueueEnable (q : Fin 16) (value : BitVec 32) (s : State) : Host.Outcome State Fault Refusal :=
  queueReg q.val 0x10 value.toNat s

/-- SQ_DOORBELL: a write of HST_Q[q]_SQ_TAIL. -/
def execSqDoorbell (q : Fin 16) (value : BitVec 32) (s : State) : Host.Outcome State Fault Refusal :=
  queueReg q.val 0x14 value.toNat s

/-- CQ_HEAD_WRITE: a write of HST_Q[q]_CQ_HEAD. -/
def execCqHeadWrite (q : Fin 16) (value : BitVec 32) (s : State) : Host.Outcome State Fault Refusal :=
  queueReg q.val 0x1C value.toNat s

/-! ## The commands of the queues (R594) -/

/-- The value of TICK_SWITCH_CTL. -/
def switchCtl (s : State) : Nat :=
  match regAt tickSwitchCtlArm.reg with
  | some r => regValue r s
  | none => 0

/-- The VALUE of a completion as the table of R594 gives it for each opcode; a READ_REG that reads nothing has none, a free
value. -/
def columnValue (c : List Byte) (s : State) : Nat × State :=
  match cmdOp c with
  | 1 => (s.get (tickPlanIdId (standbyBank s)), s)
  | 2 => (s.get fabRouteStatusDead, s)
  | 6 | 7 => (switchCtl s, s)
  | 8 => (cmdArg0 c, s)
  | 0x0B => s.takeFree
  | _ => (0, s)

/-- A command ends with a status and the VALUE of its column. -/
def ends (q status detail : Nat) (s : State) : State :=
  match (s.queue q).running with
  | none => s
  | some c =>
    let (v, s) := columnValue c s
    complete q status detail v s

/-- The running command of a queue, when its opcode is `op`. -/
def runs (q op : Nat) (s : State) : Option (List Byte) :=
  match (s.queue q).running with
  | some c => if cmdOp c = op then some c else none
  | none => none

/-- A command of opcode `op` performed on queue `q`: BAD for its form; HOST_ERR once a read of its host data has failed; it
waits while host data is outstanding; then `f`. -/
def command (q op : Nat) (f : List Byte → State → State) (s : State) : Host.Outcome State Fault Refusal :=
  match runs q op s with
  | none => done s
  | some c =>
    let x := s.queue q
    if cmdBad c ≠ 0 then done (ends q 2 (cmdBad c) s)
    else if x.err ≠ 0 then done (ends q 3 x.err s)
    else if x.need ≠ 0 then done s
    else done (f c s)

/-- QUEUE_NOP. -/
def execQueueNop (q : Fin 16) (s : State) : Host.Outcome State Fault Refusal :=
  command q.val 0 (fun _ s => ends q.val 0 0 s) s

/-- PLAN_LOAD: the standby bank window is written from offset 0 and R29 runs; an armed bank is rejected (R29). A LEN that does
not match the plan's SLOTS is BAD. -/
def execPlanLoad (q : Fin 16) (s : State) : Host.Outcome State Fault Refusal :=
  command q.val 1 (fun c s =>
    let bs := gotBytes (s.queue q.val)
    if cmdLen c ≠ 64 + 32 * leAt bs 6 2 then ends q.val 2 2 s
    else
      let armed := s.flag tickSwitchCtlArmed
      let s := planWrite (standbyBank s) 0 bs s
      let s := if armed then s else planCheck s
      let r := s.get tickPlanStatusReason
      ends q.val (if r = 0 then 0 else 1) r s) s

/-- ROUTE_LOAD: the standby route bank is written and R101 runs. -/
def execRouteLoad (q : Fin 16) (s : State) : Host.Outcome State Fault Refusal :=
  command q.val 2 (fun _ s =>
    let s := routeCheck (routeWrite (standbyRoute s) 0 (gotBytes (s.queue q.val)) s)
    let r := s.get fabRouteStatusReason
    ends q.val (if r = 0 then 0 else 1) r s) s

/-- The engines of a mask. -/
def maskEngines (m : Nat) : List Nat := (List.range 64).filter (fun e => bitOf m e)

/-- RULE_LOAD: the words go to each engine of the mask, or, when an entry is protected on one of them, BUSY and none is
written (R329, R595). -/
def execRuleLoad (q : Fin 16) (s : State) : Host.Outcome State Fault Refusal :=
  command q.val 3 (fun c s =>
    let bs := gotBytes (s.queue q.val)
    let n := cmdLen c / 4
    let at_ := bits (cmdArg1 c) 0 10
    let es := maskEngines (cmdArg0 c)
    if es.any (fun e => (List.range n).any (fun i => ruleHeld s e (at_ + i))) then complete q.val 7 0 0 s
    else
      complete q.val 0 0 n
        (State.each es (fun e t => State.each (List.range n) (fun i t => ruleWrite e (at_ + i) (leAt bs (4 * i) 4) t) t) s)) s

/-! ## Copies (R594, R596) -/

/-- Pieces of a local range written in order until one is refused: whether one was. -/
def copyWrite (hint a : Nat) (bs : List Byte) (s : State) : Bool × State :=
  (pieces a bs.length).foldl (fun acc p =>
    if acc.1 then acc else useWrite 583 p.1 (slice bs (p.1 - a) p.2) hint 1 acc.2) (false, s)

/-- COPY_IN: the pieces of host data that have arrived are written; the command ends once all are, or with MAP at a refused
address, or with HOST_ERR after a failed read. -/
def execCopyIn (q : Fin 16) (s : State) : Host.Outcome State Fault Refusal :=
  whole (fun s =>
    match runs q.val 4 s with
    | none => done s
    | some c =>
      if cmdBad c ≠ 0 then done (ends q.val 2 (cmdBad c) s)
      else
        let x := s.queue q.val
        let hint := bits (cmdArg0 c) 0 1
        let s := s.onQueue q.val (fun x => { x with got := [] })
        let (refused, s) := x.got.foldl (fun (acc : Bool × State) p =>
          if acc.1 then acc else copyWrite hint (cmdLocal c + p.1) p.2 acc.2) (false, s)
        if refused then done (ends q.val 5 0 s)
        else if x.err ≠ 0 then done (ends q.val 3 x.err s)
        else if x.need = 0 then done (ends q.val 0 0 s)
        else done s) s

/-- Pieces of a local range sent to the host until one is refused: whether one was, whether one was poisoned. -/
def copyRead (hint a host n : Nat) (s : State) : Bool × Bool × State :=
  (pieces a n).foldl (fun acc p =>
    let (refused, poison, s) := acc
    if refused then acc
    else
      let (bs, rf, po, s) := useRead 583 p.1 p.2 hint 1 s
      if rf then (true, poison, s)
      else (false, poison || po, s.emit (.hostWrite (host + (p.1 - a)) bs po))) (false, false, s)

/-- COPY_OUT: local memory is sent to host memory, poisoned lines with EP set. -/
def execCopyOut (q : Fin 16) (s : State) : Host.Outcome State Fault Refusal :=
  whole (fun s =>
    command q.val 5 (fun c s =>
      if !hostReach s then s
      else
        let (refused, poison, s) := copyRead (bits (cmdArg0 c) 0 1) (cmdLocal c) (cmdHost c) (cmdLen c) s
        ends q.val (if refused then 5 else if poison then 4 else 0) 0 s) s) s

/-! ## Arming, detaching, fences, registers (R594) -/

/-- QUEUE_ARM: the switch registers are written, then ARM; OK when ARMED reads 1. -/
def execQueueArm (q : Fin 16) (s : State) : Host.Outcome State Fault Refusal :=
  command q.val 6 (fun c s =>
    let s := (s.set tickSwitchAtAt (cmdArg0 c)).set tickSwitchPlanId (bits (cmdArg1 c) 0 32)
    let s := after s (execArm (bitOf (cmdArg1 c) 32) s)
    ends q.val (if s.flag tickSwitchCtlArmed then 0 else 1) 0 s) s

/-- QUEUE_DISARM. -/
def execQueueDisarm (q : Fin 16) (s : State) : Host.Outcome State Fault Refusal :=
  command q.val 7 (fun _ s => ends q.val 0 0 (disarm s)) s

/-- QUEUE_DETACH: BAD when the tick is not ahead, its DETAIL a free value; else FAB_DETACH_AT is written and the command waits
for step 5 of R123. -/
def execQueueDetach (q : Fin 16) (s : State) : Host.Outcome State Fault Refusal :=
  command q.val 8 (fun c s =>
    if (s.queue q.val).step ≠ 0 then s
    else if cmdArg0 c ≤ s.get tickCountCount then
      let (d, s) := s.takeFree
      ends q.val 2 (d % 256) s
    else (s.set fabDetachAtAt (cmdArg0 c)).onQueue q.val (fun x => { x with step := 1 })) s

/-- FENCE: issued once COH_FENCE is free, and completed when the fence is over; DETAIL 1 for a FABRIC_FENCE with a request that
timed out. -/
def execFence (q : Fin 16) (s : State) : Host.Outcome State Fault Refusal :=
  command q.val 9 (fun c s =>
    let k := bits (cmdArg0 c) 0 2
    let step := (s.queue q.val).step
    if k = 3 then
      let s := if step = 0 then fenceIssue 4 q.val (s.onQueue q.val (fun x => { x with step := 1 })) else s
      if fenceWaits s 4 q.val then s else ends q.val 0 0 s
    else if step = 0 then
      if s.flag cohFenceBusy then s
      else
        let s := if k < 2 then s.set cohFenceMaskEngines (cmdArg1 c) else s
        let s := fenceGo k s
        s.onQueue q.val (fun x => { x with step := s.coh.fenceSeq + 1 })
    else if s.flag cohFenceBusy ∧ step = s.coh.fenceSeq + 1 then s
    else ends q.val 0 (if k = 2 ∧ s.coh.fenceTimeout then 1 else 0) s) s

/-- WRITE_REG: a BAR0 register is written as a host write would. -/
def execWriteReg (q : Fin 16) (s : State) : Host.Outcome State Fault Refusal :=
  command q.val 0x0A (fun c s =>
    ends q.val 0 0 (barWrite 3 (cmdLocal c % 2 ^ 28) (leBytes (cmdLen c) (cmdArg0 c)) s)) s

/-- READ_REG: a BAR0 register is read as a host read would. -/
def execReadReg (q : Fin 16) (s : State) : Host.Outcome State Fault Refusal :=
  command q.val 0x0B (fun c s =>
    match barRead (cmdLocal c % 2 ^ 28) (cmdLen c) s with
    | (some v, s) => complete q.val 0 0 v s
    | (none, s) => ends q.val 3 1 s) s

/-! ## Completions of the node's reads (R593, R596) -/

/-- An outstanding read by its tag. -/
def readOf (s : State) (tag : Nat) : Option (Nat × Nat × Nat × Nat × Nat) := s.host.reads.find? (fun r => r.1 == tag)

/-- A read no longer outstanding. -/
def readEnds (tag : Nat) (s : State) : State :=
  s.onHost (fun h => { h with reads := h.reads.filter (fun r => r.1 != tag) })

/-- HOST_READ_COMPLETION: `status` 0 successful, 1 Unsupported Request, 2 Completer Abort, 3 poisoned. -/
def execHostReadCompletion (tag : Fin 1024) (status : Fin 4) (data : List Byte) (s : State) : Host.Outcome State Fault Refusal :=
  match readOf s tag.val with
  | none => done s
  | some r =>
    let s := readEnds tag.val s
    done (if status = 0 then readArrives r data s else readFails r status.val s)

/-- The AER bits of the uncorrectable error status that the node logs: Poisoned TLP Received and Completion Timeout, as PCI
Express numbers them (PRESUMED). -/
def aerPoison : Nat := 2 ^ 12
def aerTimeout : Nat := 2 ^ 14

/-- An AER event logged. -/
def aerLog (m : Nat) (s : State) : State := s.onHost (fun h => { h with aer := Nat.lor h.aer m })

/-- HOST_READ_TIMEOUT: 10 ms without a completion. -/
def execHostReadTimeout (tag : Fin 1024) (s : State) : Host.Outcome State Fault Refusal :=
  match readOf s tag.val with
  | none => done s
  | some r => done (readFails r 4 (aerLog aerTimeout ((readEnds tag.val s).bump hstErrCplTimeout 1)))

/-! ## Host memory requests (R501, R587, R588) -/

/-- Whether host memory requests reach memory: not in the bring-up window and not in P2 (R501, R606). -/
def barTwoOpen (s : State) : Bool := !s.flag idBootStatWindow && s.get fumStatusState != 3

/-- HOST_MEMORY_REQUEST: a request of BAR2 at an offset; a write carries `data` and may have EP set, a read asks for `len`
bytes. While memory is not open a write has no effect and what a read returns is not stated, a free value. -/
def execHostMemoryRequest (write : Bool) (off : BitVec 41) (len : Nat) (data : List Byte) (ep : Bool) (s : State) :
    Host.Outcome State Fault Refusal :=
  whole (fun s =>
    if !barReach s then done s
    else if !barTwoOpen s then
      if write then done s
      else
        let (v, s) := s.takeFree
        done (s.emit (.hostData (leBytes len v) false))
    else
      let hint := s.get hstCtlHint
      let a := off.toNat
      if write then
        if ep then done (aerLog aerPoison (s.bump hstErrPoisonRx 1))
        else done (useWrite 583 a data hint 1 s).2
      else
        let (bs, _, po, s) := useRead 583 a len hint 1 s
        let s := if po then s.bump hstErrPoisonTx 1 else s
        done (s.emit (.hostData bs po))) s

/-! ## Configuration space (R501, R583, R584) -/

/-- The host can be reached again: held completions, pending messages and fetching go on. -/
def hostBack (s : State) : State := msixFlush (pumpQueues (State.each (List.range 16) releaseHeld s))

/-- The value of a configuration item: 0 Vendor and Device ID; 1 Command; 2 Revision ID and class code; 3 to 8 BAR0 to BAR5; 9
subsystem; 10 Interrupt Pin; 11 and 12 the Device Serial Number; 13 MSI-X Message Control; 14 the power state; 15 AER, logged
events. Other items have no stated value: what was written, or a free value. -/
def cfgValue (i : Nat) (s : State) : Nat × State :=
  let h := s.host
  let stored := Tab.get 0 h.cfg i
  match i with
  | 0 => (0x53311FA1, s)
  | 1 => (2 * b2n h.memEn + 4 * b2n h.busMaster, s)
  | 2 => (0x12000000 + s.get idSteppingStep, s)
  | 3 => (stored / 2 ^ 28 * 2 ^ 28 + 4, s)
  | 4 => (stored, s)
  | 5 => (0xC, s)
  | 6 => (stored / 2 ^ 9 * 2 ^ 9, s)
  | 7 | 8 | 10 => (0, s)
  | 9 => (0x00011FA1, s)
  | 11 => (bits (s.get idUidUid) 0 32, s)
  | 12 => (bits (s.get idUidUid) 32 32, s)
  | 13 => (63 + 2 ^ 14 * b2n h.msixMask + 2 ^ 15 * b2n h.msixEn, s)
  | 14 => (if h.d3 then 3 else 0, s)
  | 15 => (h.aer, s)
  | _ => if stored = 0 then s.takeFree else (stored - 1, s)

/-- D3hot entered or left: memory decoding and bus mastering stop, and nothing else (R586). -/
def powerState (d3 : Bool) (s : State) : State :=
  let t := s.onHost (fun h => { h with d3 := d3 })
  if s.host.d3 && !d3 then hostBack t else t

/-- A configuration write of an item. -/
def cfgWrite (i v : Nat) (s : State) : State :=
  match i with
  | 1 => s.onHost (fun h => { h with memEn := bitOf v 1, busMaster := bitOf v 2 })
  | 3 | 4 | 6 => s.onHost (fun h => { h with cfg := Tab.set 0 h.cfg i v })
  | 13 => msixFlush (s.onHost (fun h => { h with msixMask := bitOf v 14, msixEn := bitOf v 15 }))
  | 14 => powerState (decide (bits v 0 2 = 3)) s
  | 15 => s.onHost (fun h => { h with aer := clearBits h.aer v })
  | 0 | 2 | 5 | 7 | 8 | 9 | 10 | 11 | 12 => s
  | _ => s.onHost (fun h => { h with cfg := Tab.set 0 h.cfg i (v + 1) })

/-- CONFIG_REQUEST: retry status (code 2) until the ID block answers; then a write, or a read of an item. -/
def execConfigRequest (item : Nat) (write : Bool) (value : BitVec 32) (s : State) : Host.Outcome State Fault Refusal :=
  if !idAnswers s then done (s.emit (.hostStatus 2))
  else if write then done (cfgWrite item value.toNat s)
  else
    let (v, s) := cfgValue item s
    done (s.emit (.value v))

/-- D3HOT: entry to D3hot. -/
def execD3hot (s : State) : Host.Outcome State Fault Refusal := if idAnswers s then done (powerState true s) else done s

/-! ## The host link (R501, R603, R604) -/

/-- HOST_LINK_UP: the link has trained; speed 1 to 5, and lanes. -/
def execHostLinkUp (speed : Fin 16) (width : Fin 32) (s : State) : Host.Outcome State Fault Refusal :=
  if s.mod.seq < 8 then done s
  else done (hostBack (((s.set hstStatusUp 1).set hstStatusSpeed speed.val).set hstStatusWidth width.val))

/-- The link is down: fetching stops, every ENABLE clears, host reads are abandoned (R603). -/
def linkLost (s : State) : State :=
  let s := queuesLost (((s.set hstStatusUp 0).set hstStatusSpeed 0).set hstStatusWidth 0)
  raise hstEvtLinkDown s

/-- LINK_DOWN: the host link goes down without a reset of the node. -/
def execLinkDown (s : State) : Host.Outcome State Fault Refusal :=
  if s.flag hstStatusUp then done (linkLost s) else done s

/-- Configuration space, the HST registers, the MSI-X table and its pending bits at their reset values, every vector masked. -/
def hostFresh (s : State) : State :=
  let s : State := { s with regs := s.regs.filter (fun p => !(decide (0x1a00000 * 8 ≤ p.1) && decide (p.1 < 0x1b00000 * 8))) }
  s.onHost (fun h => { h with
    msix := [], msixPend := 0, msixEn := false, msixMask := false, memEn := false, busMaster := false, d3 := false, cfg := []
    aer := 0 })

/-- HOT_RESET: a hot reset or link disable: configuration space and the HST block return to reset, and the link goes down
(R604). -/
def execHotReset (s : State) : Host.Outcome State Fault Refusal := if idAnswers s then done (linkLost (hostFresh s)) else done s

end Sys2Proof.Machine
end

