-- ==== Sys2Proof/Machine/Mgmt.lean ====
section
/-! DEFINITION. The management port: its commands, their status bytes, PEC, and alerts (R607 to R610). -/

namespace Sys2Proof.Machine

/-! ## Status bytes (R608): 0 OK, 1 NOT_READY, 2 DENIED, 3 BAD, 4 BUSY, 5 PEC -/

/-- A block read answered: STATUS and the bytes after it; PEC after a write that was dropped for it. -/
def mgmtAnswer (status : Nat) (bs : List Byte) (s : State) : State :=
  if s.host.pecErr then (s.onHost (fun h => { h with pecErr := false })).emit (.mgmt 5 [])
  else s.emit (.mgmt status bs)

/-- A command of a block write, a block read, or both: nothing is acknowledged while the ID block does not answer (R609); a
write whose PEC does not match is dropped; `f` gives the effect of the write and the answer of the read. -/
def mgmtCommand (pec rd : Bool) (f : State → Nat × List Byte × State) (s : State) : Host.Outcome State Fault Refusal :=
  if !idAnswers s then done s
  else if !pec then
    let s := s.onHost (fun h => { h with pecErr := true })
    done (if rd then mgmtAnswer 5 [] s else s)
  else
    let (status, bs, s) := f s
    done (if rd then mgmtAnswer status bs s else s)

/-- The bytes of a register of 4 bytes, as a read returns them. -/
def mgmtWord (o : Nat) (s : State) : List Byte × State :=
  let (v, s) := regRead o 4 s
  (leBytes 4 v, s)

/-- The bytes of several registers of 4 bytes. -/
def mgmtWords (os : List Nat) (s : State) : List Byte × State :=
  os.foldl (fun acc o =>
    let (bs, s) := mgmtWord o acc.2
    (acc.1 ++ bs, s)) ([], s)

/-- Whether only the window's commands are served: in the bring-up window and in P2. -/
def mgmtWindow (s : State) : Bool := !regOpen s 0x100000

/-! ## The commands -/

/-- IDENTITY: UID, part, stepping, phase and image version. -/
def execIdentity (s : State) : Host.Outcome State Fault Refusal :=
  mgmtCommand true true (fun s =>
    (0, leBytes 16 (s.get idUidUid) ++ leBytes 8 (s.get idPartCode) ++ leBytes 1 (s.get idSteppingStep) ++
      leBytes 1 (s.get idBootStatPhase) ++ leBytes 4 (s.get idImageVerVersion), s)) s

/-- STATUS: the boot, module, power, coolant and clock registers. -/
def execStatus (s : State) : Host.Outcome State Fault Refusal :=
  mgmtCommand true true (fun s =>
    let (bs, s) := mgmtWords [0x1C, 0x20, 0x100, 0x104, 0x108, 0x10C, 0x110] s
    (0, bs, s)) s

/-- The bytes of an access width code, 0 for 32 bits and 1 for 64; 0 for another code. -/
def mgmtWidth (width : Nat) : Nat := if width = 0 then 4 else if width = 1 then 8 else 0

/-- Whether a management access names an aligned register of BAR0 and a width. -/
def mgmtForm (off width : Nat) : Bool :=
  mgmtWidth width != 0 && off % mgmtWidth width == 0 && decide (off < 2 ^ 28)

/-- REG_READ: a register read; outside the ID block DENIED in the window and in P2, with the bytes that R498 gives. -/
def execRegRead (off : BitVec 32) (width : Byte) (pec : Bool) (s : State) : Host.Outcome State Fault Refusal :=
  mgmtCommand pec true (fun s =>
    let o := off.toNat
    if !mgmtForm o width.toNat then (3, [], s)
    else if !regOpen s o then (2, List.replicate 8 0xFF, s)
    else
      let (v, s) := regRead o (mgmtWidth width.toNat) s
      (0, leBytes 8 v, s)) s

/-- REG_WRITE: a register written; outside the ID block DENIED in the window and in P2, dropped and counted (R498, R622). -/
def execRegWrite (off : BitVec 32) (width : Byte) (value : BitVec 64) (pec rd : Bool) (s : State) :
    Host.Outcome State Fault Refusal :=
  mgmtCommand pec rd (fun s =>
    let o := off.toNat
    if !mgmtForm o width.toNat then (3, [], s)
    else if !regOpen s o then (2, [], s.bump idBootDropsWrites 1)
    else (0, [], wordsWrite 2 2 o (leBytes (mgmtWidth width.toNat) value.toNat) s)) s

/-- TELEMETRY: 16 bytes of TEL_LAST. -/
def execMgtTelemetry (chunk : Byte) (pec : Bool) (s : State) : Host.Outcome State Fault Refusal :=
  mgmtCommand pec true (fun s =>
    if mgmtWindow s then (1, [], s)
    else if 15 < chunk.toNat then (3, [], s)
    else (0, (List.range 16).map (fun i => Tab.get 0 s.fum.last (16 * chunk.toNat + i)), s)) s

/-- FAULT: half of a record of TEL_FAULT_BUF. -/
def execFault (record half : Byte) (pec : Bool) (s : State) : Host.Outcome State Fault Refusal :=
  mgmtCommand pec true (fun s =>
    if 15 < record.toNat ∨ 1 < half.toNat then (3, [], s)
    else (0, (List.range 16).map (fun i => Tab.get 0 s.flt.buf (32 * record.toNat + 16 * half.toNat + i)), s)) s

/-- FLASH_BUF: 16 bytes of ID_FLASH_BUF, written first when the write carries them. -/
def execFlashBuf (off : BitVec 16) (data : List Byte) (pec rd : Bool) (s : State) : Host.Outcome State Fault Refusal :=
  mgmtCommand pec rd (fun s =>
    let o := off.toNat
    if o % 16 ≠ 0 ∨ 4096 ≤ o ∨ (data ≠ [] ∧ data.length ≠ 16) then (3, [], s)
    else
      let s := flashBufWrite o data s
      (0, flashBufBytes s o 16, s)) s

/-- FLASH_CMD: ID_FLASH_ADDR, _LEN and ID_FUSE_ARG are written, then ID_FLASH_CTL with GO; the read returns ID_FLASH_STAT. -/
def execFlashCmd (ctl addr len fuse : BitVec 32) (pec rd : Bool) (s : State) : Host.Outcome State Fault Refusal :=
  mgmtCommand pec rd (fun s =>
    let busy := s.host.mbox.isSome
    let s := wordWrite 2 0x10010 fuse.toNat (wordWrite 2 0x10008 len.toNat (wordWrite 2 0x10004 addr.toNat s))
    let s := mboxGo (bits ctl.toNat 0 3) (bits ctl.toNat 16 16) s
    let (bs, s) := mgmtWord 0x1000C s
    (if busy then 4 else 0, bs, s)) s

/-- RESET: with the key, a module reset; `late` and `cacheLate` say which write-backs do not end in time. -/
def execReset (key : BitVec 16) (pec rd : Bool) (late : BitVec 64) (cacheLate : Bool) (s : State) :
    Host.Outcome State Fault Refusal :=
  mgmtCommand pec (rd && decide (key.toNat ≠ 0x5253)) (fun s =>
    if key.toNat = 0x5253 then (0, [], moduleReset 2 late.toNat cacheLate s) else (3, [], s)) s

/-- LOCATE: LED_CTL.LOCATE written. -/
def execLocate (on : Byte) (pec rd : Bool) (s : State) : Host.Outcome State Fault Refusal :=
  mgmtCommand pec rd (fun s =>
    if 1 < on.toNat then (3, [], s) else (0, [], s.set idLedCtlLocate on.toNat)) s

/-- ALERT: the mask written, when the write carries one; the read returns the causes pending, clears them and releases
SMB_ALERT_N. -/
def execAlert (mask : Option (BitVec 32)) (pec rd : Bool) (s : State) : Host.Outcome State Fault Refusal :=
  mgmtCommand pec rd (fun s =>
    let s := match mask with
      | some m => wordWrite 2 0x10018 m.toNat s
      | none => s
    let bs := leBytes 4 s.host.alerts
    (0, bs, if rd ∧ !s.host.pecErr then s.onHost (fun h => { h with alerts := 0, alertLow := false }) else s)) s

/-- ALERT_RESPONSE: the Alert Response Address is read; while it drives SMB_ALERT_N low, the node answers its address and
releases the line (R454, R610). -/
def execAlertResponse (s : State) : Host.Outcome State Fault Refusal :=
  if !idAnswers s ∨ !s.host.alertLow then done s
  else done ((s.onHost (fun h => { h with alertLow := false })).emit (.value (0x30 + s.get idModuleStatMgtAddr)))

end Sys2Proof.Machine
end

