-- ==== Sys2Proof/Machine/TickEdge.lean ====
section
/-! DEFINITION. The tick edge (R15, R35, R37, R45, R103, R121, R123, R510, R512, R522, R525, R625). -/

namespace Sys2Proof.Machine

/-! ## The late rule (R45) -/

/-- An item not completed at the final edge, by its class: a collective slot takes the handling of its phase; an engine, stream,
row-logic or matrix item runs on, or is deferred until its unit is free; a window answers RETRY for what it has not started. -/
def lateItem (i : Nat) (s : State) : State :=
  let s := recordLate i (lateAction s i) s
  let x := slotOf s i
  if x.cls = 0 then lateCollective i s
  else if x.cls = 5 then
    if slotState s i = .running then winDrained (x.unit % 8) (kvRetryAll (x.unit % 8) s) else endSlot i .late s
  else if s.tick.deferred.contains i then s
  else if slotState s i = .running then
    (if s.tick.overrun.contains i then s else s.onTick (fun t => { t with overrun := t.overrun ++ [i] }))
  else s.onTick (fun t => { t with deferred := t.deferred ++ [i] })

/-- Whether a slot depends on an item that is deferred, or is about to be (R45). -/
def depDeferred (s : State) (i : Nat) : Bool :=
  match (slotOf s i).dep with
  | some d => (slotOf s d).cls != 0 && (s.tick.deferred.contains d || (runsNow s d && slotState s d == .sched))
  | none => false

/-- Whether the edge of this tick decides over a slot: each tick of an item, but a collective slot is one phase over all the
ticks of its range, so its last, or the last before a switchover, or one whose DEP_SLOT is deferred (R37, R45; DEDUCED,
assumption 68). -/
def dueNow (s : State) (forced : Bool) (i : Nat) : Bool :=
  runsNow s i && ((slotOf s i).cls != 0 || forced || lastTick s i || depDeferred s i)

/-- A slot that the sequencer could not issue: out of tick lock, while OUT is set or, for a collective, while CAL_STATUS.OUT
is (R24, R164, R521). It is not late; a phase that a node out of lock did not run has failed (R155). A row-logic slot of a
suspended stack is deferred (R273). -/
def notIssued (i : Nat) (s : State) : State :=
  let x := slotOf s i
  if x.cls = 3 ∧ inLock s ∧ unitBusy s i then lateItem i s
  else if x.cls ≠ 0 ∨ x.phase = 2 ∨ s.flag fumStatusOut ∨ s.flag calStatusOut then endSlot i .aborted s
  else noteFail i (endSlot i .late s)

/-- The late rule over the items of the closing tick, in slot order; `forced`: the plan leaves the active bank (R37, R45). -/
def lateRule (forced : Bool) (s : State) : State :=
  let issued := inLock s && !s.flag fumStatusOut
  State.each ((List.range (planSlots s)).filter (dueNow s forced)) (fun i t =>
    match slotState t i with
    | .running => lateItem i t
    | .sched => if t.tick.deferred.contains i || (issued && !((slotOf t i).cls == 0 && t.flag calStatusOut)) then lateItem i t else notIssued i t
    | .idle => notIssued i t
    | .done | .cancelled | .late | .aborted | .skipped => t) s

/-! ## The slots of a tick (R31) -/

/-- The instance of a collective slot in the tick that begins: one over all the ticks of its range. A confirm that a verdict
has settled ahead is over (R157); while CAL_STATUS.OUT is set none is issued (R164). -/
def scheduleCollective (go : Bool) (i : Nat) (s : State) : State :=
  let out := s.flag calStatusOut
  if firstTick s i then
    let ended := s.cal.settled.contains i
    let s := s.onCal (fun c => { c with
      launched := c.launched.filter (fun j => j != i) ++ (if ended then [i] else []), settled := c.settled.filter (fun j => j != i) })
    setSlot i (if ended ∨ out then .aborted else if go then .sched else .idle) s
  else if slotState s i = .idle ∧ go ∧ ¬ out then setSlot i .sched s
  else s

/-- The instance of any other slot in the tick that begins; behind one that still runs or waits it is deferred (R45). -/
def scheduleItem (go : Bool) (i : Nat) (s : State) : State :=
  if slotState s i = .running ∨ s.tick.deferred.contains i then
    (if go ∨ (slotOf s i).cls = 3 then s.onTick (fun k => { k with deferred := k.deferred ++ [i] }) else s)
  else setSlot i (if go then .sched else .idle) s

/-- The slots of the tick that begins are scheduled. What depends on a confirm that was aborted or held is cancelled, in later
ticks too (R162, R165), and after SKIP the batches that depend on it complete at once (R333); repeats that are not to run
complete (R167). -/
def scheduleTick (s : State) : State :=
  let go := inLock s && !s.flag fumStatusOut
  let l := (List.range (planSlots s)).filter (runsNow s)
  let s := State.each l (fun i t => if (slotOf t i).cls = 0 then scheduleCollective go i t else scheduleItem go i t) s
  let s := State.each l (fun i t =>
    if slotState t i ≠ .sched ∨ t.tick.deferred.contains i then t
    else if (depChain t i).any (fun d => slotState t d == .aborted) then endSlot i .cancelled t
    else if skips (slotOf t i) ∧ (depChain t i).any (fun d => slotState t d == .skipped) then endSlot i .done t
    else t) s
  settleRepeats s

/-- The items that a plan leaves unfinished when it leaves the active bank keep their slots under numbers 1,024 higher, and run
on or run as soon as their unit is free (R37, R45). One that waits for a DEP_SLOT which cannot complete any more is not
kept. -/
def carryPlan (s : State) : State :=
  let mine (i : Nat) : Bool := (slotOf s i).cls != 0 && (slotState s i == .running || s.tick.deferred.contains i)
  let able (i : Nat) : Bool :=
    slotState s i == .running || depMet s i || (match (slotOf s i).dep with | some d => mine d | none => true)
  let keep := (allSlots s).filter (fun i => mine i && able i)
  let up (l : List Nat) : List Nat := (l.filter keep.contains).map (· + 1024)
  (mapSlots (· + 1024) s).onTick (fun t => { t with
    old := keep.foldl (fun m i => Tab.set noItem m (i + 1024) { slotOf s i with dep := (slotOf s i).dep.map (· + 1024) }) []
    slots := (keep ++ keep.filterMap (fun i => (slotOf s i).dep)).foldl (fun m i => Tab.set .idle m (i + 1024) (slotState s i)) []
    overrun := up t.overrun, deferred := up t.deferred })

/-! ## Switchover (R35, R103, R121, R512, R522) -/

/-- The budget of the next plan taken. -/
def budgetSwitch (s : State) : State :=
  if s.flag fumBudgetNextValid then (s.set fumBudgetWatts (s.get fumBudgetNextWatts)).set fumBudgetNextValid 0 else s

/-- OUT cleared at a switchover that was committed after REJOIN_READY (R522). -/
def outClear (s : State) : State :=
  if s.fum.clearOut then (s.set fumStatusOut 0).onFum (fun f => { f with clearOut := false, rejoin := false }) else s

/-- A committed node adopts the standby plan and its period; the route banks follow when the standby table is bound to it; an
ACCEPTED node becomes a member. -/
def switchOver (s : State) : State :=
  let b := standbyBank s
  let id := s.get (tickPlanIdId b)
  let swap := routeOk s (standbyRoute s) && routeAt s (standbyRoute s) 8 4 == id
  let s := carryPlan s
  let s := (s.set tickStatusActiveBank b).set tickStatusBankEmpty 0
  let s := s.set tickPeriodCycles (bits (planAt s b 12 4) 0 21)
  let s := ((s.set tickSwitchCtlArmed 0).set tickSwitchCtlCommitted 0).onTick (fun t => { t with pos := 0 })
  let s := if swap then routeSwap s else s
  let s := if s.get fabStatusJoin = 2 then member s else s
  outClear (budgetSwitch s)

/-- The plan at the edge that begins tick `n`: switched, or one place further in its cycle. The tick of a committed switch is
TICK_SWITCH_AT as it stands now: a write after arming moves it (DESIGN CHOICE, assumption 66). A node still armed at its tick and
not committed saw no announcement: it disarms (R34). -/
def planEdge (n : Nat) (s : State) : State :=
  if s.flag tickSwitchCtlCommitted ∧ n = s.get tickSwitchAtAt then switchOver s
  else
    let s := if s.flag tickStatusBankEmpty then s
      else s.onTick (fun t => { t with pos := (t.pos + 1) % max (planCycle s) 1 })
    if s.flag tickSwitchCtlArmed ∧ ¬ s.flag tickSwitchCtlCommitted ∧ s.get tickSwitchAtAt ≤ n then
      fault .tick 3 0 n 0 none (raise tickEvtSwitchMismatch (s.set tickSwitchCtlArmed 0))
    else s

/-- The detachment that begins at the edge of tick `n`: DETACHING, no slots, both plan banks cleared (R123, R130). -/
def detachStart (n : Nat) (s : State) : State :=
  if s.get fabDetachAtAt ≠ n ∨ n = 0 then s
  else
    let s := (detachSlots s).onTick (fun t => { t with banks := [], ok := [], pos := 0 })
    let s := ((s.set tickStatusBankEmpty 1).set (tickPlanIdId 0) 0).set (tickPlanIdId 1) 0
    let s := (s.set tickSwitchCtlArmed 0).set tickSwitchCtlCommitted 0
    (s.set fabStatusJoin 5).onFab (fun f => { f with detaching := true })

/-! ## The edge -/

/-- The counters of a tick start anew. -/
def newTick (edge : Nat) (s : State) : State :=
  let s := (s.set tickHoldStatGranted s.tick.ext).set tickCountCount (s.get tickCountCount + 1)
  let s := s.onTick (fun t => { t with
    past := (t.ext :: t.past).take 32, edge := edge, ext := 0, round := 0, roundsOver := false, asked := 0, sentTotal := 0, arrived := 0, arrivedNext := 0 })
  let s := if s.tick.yielding then (s.set tickStatusTk 0).onTick (fun t => { t with yielding := false }) else s
  s.onFab (fun f => { f with sinceAnnounce := f.sinceAnnounce + 1 })

/-- TICK_EDGE: the local timer reaches the pending edge: the late rule over the tick that closes and its telemetry record, the
count, then the plan, detachment, A1, the timekeeper's beacon and the slots of the tick that begins. -/
def execTickEdge (tel : List Byte) (s : State) : Host.Outcome State Fault Refusal :=
  if !s.tick.running then done s
  else
    let edge := pendingEdge s
    let s := s.reach edge
    let s := lateRule (s.flag tickSwitchCtlCommitted && s.get tickSwitchAtAt == s.get tickCountCount + 1) s
    let s := if inLock s then telemetryRecord (s.get tickCountCount) false tel s else s
    let s := newTick edge s
    let n := s.get tickCountCount
    let s := a1Edge (detachStart n (planEdge n s))
    let s := if s.flag tickStatusTk then launchTick s else s
    done (scheduleTick s)

end Sys2Proof.Machine
end

