-- ==== Sys2Proof/Machine/Dispatch.lean ====
section
/-! DEFINITION. One arm per command: the direct call of its meaning. -/

namespace Sys2Proof.Machine

def exec (i : Instr) (s : State) : Host.Outcome State Fault Refusal :=
  match i with
  | .registerWrite off data => Sys2Proof.Machine.execRegisterWrite off data s
  | .rcRead off len same => Sys2Proof.Machine.execRcRead off len same s
  | .latchedLowWordRead off => Sys2Proof.Machine.execLatchedLowWordRead off s
  | .tickEdge tel => Sys2Proof.Machine.execTickEdge tel s
  | .beaconReceive port msg at_ fwd replayed => Sys2Proof.Machine.execBeaconReceive port msg at_ fwd replayed s
  | .beaconMiss => Sys2Proof.Machine.execBeaconMiss s
  | .lockLost => Sys2Proof.Machine.execLockLost s
  | .takeover => Sys2Proof.Machine.execTakeover s
  | .holdRequestSend estimates hot => Sys2Proof.Machine.execHoldRequestSend estimates hot s
  | .holdRequest port msg at_ => Sys2Proof.Machine.execHoldRequest port msg at_ s
  | .lateNotice port msg at_ => Sys2Proof.Machine.execLateNotice port msg at_ s
  | .holdRoundDeadline => Sys2Proof.Machine.execHoldRoundDeadline s
  | .holdGrant port msg at_ fwd => Sys2Proof.Machine.execHoldGrant port msg at_ fwd s
  | .planBankWrite bank off data => Sys2Proof.Machine.execPlanBankWrite bank off data s
  | .arm force => Sys2Proof.Machine.execArm force s
  | .disarm => Sys2Proof.Machine.execDisarm s
  | .collectiveSlotStart slot => Sys2Proof.Machine.execCollectiveSlotStart slot s
  | .vc0Packet port pkt at_ => Sys2Proof.Machine.execVc0Packet port pkt at_ s
  | .verdictAccept port msg at_ fwd => Sys2Proof.Machine.execVerdictAccept port msg at_ fwd s
  | .calResolve value => Sys2Proof.Machine.execCalResolve value s
  | .calResume => Sys2Proof.Machine.execCalResume s
  | .signalDetect port => Sys2Proof.Machine.execSignalDetect port s
  | .capabilityPage port lane inverted body crc at_ => Sys2Proof.Machine.execCapabilityPage port lane inverted body crc at_ s
  | .exchangeTimeout port => Sys2Proof.Machine.execExchangeTimeout port s
  | .trainingDone port ok lanes => Sys2Proof.Machine.execTrainingDone port ok lanes s
  | .trainTimeout port lanes => Sys2Proof.Machine.execTrainTimeout port lanes s
  | .alignDone port mapOk lanes => Sys2Proof.Machine.execAlignDone port mapOk lanes s
  | .delayProbe port tx turn replayed => Sys2Proof.Machine.execDelayProbe port tx turn replayed s
  | .delayReply port echo turn ret => Sys2Proof.Machine.execDelayReply port echo turn ret s
  | .verifyEnd port uncorrectable corrected received crcError lanes => Sys2Proof.Machine.execVerifyEnd port uncorrectable corrected received crcError lanes s
  | .downBackoff port => Sys2Proof.Machine.execDownBackoff port s
  | .flitReceive port flit codewords at_ => Sys2Proof.Machine.execFlitReceive port flit codewords at_ s
  | .nakRepeat port ctrl => Sys2Proof.Machine.execNakRepeat port ctrl s
  | .ackIdleSend port => Sys2Proof.Machine.execAckIdleSend port s
  | .ackTimeout port ctrl at_ => Sys2Proof.Machine.execAckTimeout port ctrl at_ s
  | .episodeWindowClose port => Sys2Proof.Machine.execEpisodeWindowClose port s
  | .lossOfSignal port canRetrain => Sys2Proof.Machine.execLossOfSignal port canRetrain s
  | .retrainDone port rtt => Sys2Proof.Machine.execRetrainDone port rtt s
  | .retrainTimeout port => Sys2Proof.Machine.execRetrainTimeout port s
  | .degradedWindow port corrected received => Sys2Proof.Machine.execDegradedWindow port corrected received s
  | .retrain port => Sys2Proof.Machine.execRetrain port s
  | .unfence port => Sys2Proof.Machine.execUnfence port s
  | .renegotiate port => Sys2Proof.Machine.execRenegotiate port s
  | .portEnable port on => Sys2Proof.Machine.execPortEnable port on s
  | .lpRequest port => Sys2Proof.Machine.execLpRequest port s
  | .lpAcknowledge port => Sys2Proof.Machine.execLpAcknowledge port s
  | .lpExit port => Sys2Proof.Machine.execLpExit port s
  | .quit port cause => Sys2Proof.Machine.execQuit port cause s
  | .packetForward port pkt => Sys2Proof.Machine.execPacketForward port pkt s
  | .read port pkt => Sys2Proof.Machine.execRead port pkt s
  | .write port pkt => Sys2Proof.Machine.execWrite port pkt s
  | .atomicAdd port pkt => Sys2Proof.Machine.execAtomicAdd port pkt s
  | .fetchAdd port pkt => Sys2Proof.Machine.execFetchAdd port pkt s
  | .readData port pkt => Sys2Proof.Machine.execReadData port pkt s
  | .writeAck port pkt => Sys2Proof.Machine.execWriteAck port pkt s
  | .atomicAck port pkt => Sys2Proof.Machine.execAtomicAck port pkt s
  | .requestTimeout tag => Sys2Proof.Machine.execRequestTimeout tag s
  | .neighbourNotice pkt => Sys2Proof.Machine.execNeighbourNotice pkt s
  | .joinAnnounce port pkt => Sys2Proof.Machine.execJoinAnnounce port pkt s
  | .joinAnnounceRepeat => Sys2Proof.Machine.execJoinAnnounceRepeat s
  | .joinAccept pkt => Sys2Proof.Machine.execJoinAccept pkt s
  | .joinRefuse pkt => Sys2Proof.Machine.execJoinRefuse pkt s
  | .detach pkt => Sys2Proof.Machine.execDetach pkt s
  | .detachRequestsDrained => Sys2Proof.Machine.execDetachRequestsDrained s
  | .detachDone pkt => Sys2Proof.Machine.execDetachDone pkt s
  | .fabricReset pkt late ns => Sys2Proof.Machine.execFabricReset pkt late ns s
  | .frstGo target => Sys2Proof.Machine.execFrstGo target s
  | .bcast port pkt => Sys2Proof.Machine.execBcast port pkt s
  | .planSeg pkt => Sys2Proof.Machine.execPlanSeg pkt s
  | .pushDone pkt => Sys2Proof.Machine.execPushDone pkt s
  | .telemetry pkt => Sys2Proof.Machine.execTelemetry pkt s
  | .routeCheck => Sys2Proof.Machine.execRouteCheck s
  | .adoptNow => Sys2Proof.Machine.execAdoptNow s
  | .partitionEnable part cfg => Sys2Proof.Machine.execPartitionEnable part cfg s
  | .partitionDisable part cfg => Sys2Proof.Machine.execPartitionDisable part cfg s
  | .flushDone part => Sys2Proof.Machine.execFlushDone part s
  | .regulatorWrite part burst value => Sys2Proof.Machine.execRegulatorWrite part burst value s
  | .memoryAccess req write addr data len hint uses deadline => Sys2Proof.Machine.execMemoryAccess req write addr data len hint uses deadline s
  | .missGrant part => Sys2Proof.Machine.execMissGrant part s
  | .regulatorIssue part => Sys2Proof.Machine.execRegulatorIssue part s
  | .lineFillDone line ecc => Sys2Proof.Machine.execLineFillDone line ecc s
  | .atomicRequest req addr fmt fetch operand => Sys2Proof.Machine.execAtomicRequest req addr fmt fetch operand s
  | .adderComplete line ecc => Sys2Proof.Machine.execAdderComplete line ecc s
  | .scrubRead chan ecc => Sys2Proof.Machine.execScrubRead chan ecc s
  | .softRemapDone chan => Sys2Proof.Machine.execSoftRemapDone chan s
  | .remapReq stack value => Sys2Proof.Machine.execRemapReq stack value s
  | .remapLogAppend => Sys2Proof.Machine.execRemapLogAppend s
  | .logCompaction => Sys2Proof.Machine.execLogCompaction s
  | .tgStart chan value => Sys2Proof.Machine.execTgStart chan value s
  | .tgStop chan => Sys2Proof.Machine.execTgStop chan s
  | .tgDone chan flips ecc => Sys2Proof.Machine.execTgDone chan flips ecc s
  | .tempRead stack reading => Sys2Proof.Machine.execTempRead stack reading s
  | .stackSelfRefresh stack => Sys2Proof.Machine.execStackSelfRefresh stack s
  | .selfRefreshExit stack => Sys2Proof.Machine.execSelfRefreshExit stack s
  | .rowlogicBatchStart slot => Sys2Proof.Machine.execRowlogicBatchStart slot s
  | .rlgNop stack => Sys2Proof.Machine.execRlgNop stack s
  | .copy stack ecc => Sys2Proof.Machine.execCopy stack ecc s
  | .not stack ecc => Sys2Proof.Machine.execNot stack ecc s
  | .and stack ecc => Sys2Proof.Machine.execAnd stack ecc s
  | .or stack ecc => Sys2Proof.Machine.execOr stack ecc s
  | .xor stack ecc => Sys2Proof.Machine.execXor stack ecc s
  | .maj stack ecc => Sys2Proof.Machine.execMaj stack ecc s
  | .accClear stack => Sys2Proof.Machine.execAccClear stack s
  | .accLoad stack ecc => Sys2Proof.Machine.execAccLoad stack ecc s
  | .accAdd stack ecc => Sys2Proof.Machine.execAccAdd stack ecc s
  | .accStore stack => Sys2Proof.Machine.execAccStore stack s
  | .chainMove stack => Sys2Proof.Machine.execChainMove stack s
  | .chainAdd stack => Sys2Proof.Machine.execChainAdd stack s
  | .rlFenceGo => Sys2Proof.Machine.execRlFenceGo s
  | .rlFenceComplete => Sys2Proof.Machine.execRlFenceComplete s
  | .rlgSubmit stack value => Sys2Proof.Machine.execRlgSubmit stack value s
  | .streamBatchStart slot => Sys2Proof.Machine.execStreamBatchStart slot s
  | .streamNop ctx => Sys2Proof.Machine.execStreamNop ctx s
  | .movi ctx => Sys2Proof.Machine.execMovi ctx s
  | .streamAdd ctx => Sys2Proof.Machine.execStreamAdd ctx s
  | .addi ctx => Sys2Proof.Machine.execAddi ctx s
  | .muli ctx => Sys2Proof.Machine.execMuli ctx s
  | .ld64 ctx => Sys2Proof.Machine.execLd64 ctx s
  | .setl ctx => Sys2Proof.Machine.execSetl ctx s
  | .setlr ctx => Sys2Proof.Machine.execSetlr ctx s
  | .endl ctx => Sys2Proof.Machine.execEndl ctx s
  | .emit ctx => Sys2Proof.Machine.execEmit ctx s
  | .emitw ctx => Sys2Proof.Machine.execEmitw ctx s
  | .layer ctx => Sys2Proof.Machine.execLayer ctx s
  | .rlf ctx => Sys2Proof.Machine.execRlf ctx s
  | .streamEnd ctx => Sys2Proof.Machine.execStreamEnd ctx s
  | .tileAllocate => Sys2Proof.Machine.execTileAllocate s
  | .tileReady ctx ue => Sys2Proof.Machine.execTileReady ctx ue s
  | .outputTileCommit ctx => Sys2Proof.Machine.execOutputTileCommit ctx s
  | .streamBatchComplete ctx => Sys2Proof.Machine.execStreamBatchComplete ctx s
  | .groupDrain group => Sys2Proof.Machine.execGroupDrain group s
  | .pageMigration ctx => Sys2Proof.Machine.execPageMigration ctx s
  | .contextHalt ctx => Sys2Proof.Machine.execContextHalt ctx s
  | .contextHalted ctx => Sys2Proof.Machine.execContextHalted ctx s
  | .streamResume ctx => Sys2Proof.Machine.execStreamResume ctx s
  | .contextSave ctx => Sys2Proof.Machine.execContextSave ctx s
  | .contextRestore ctx => Sys2Proof.Machine.execContextRestore ctx s
  | .floorWrite ctx value => Sys2Proof.Machine.execFloorWrite ctx value s
  | .waitforTrace ctx => Sys2Proof.Machine.execWaitforTrace ctx s
  | .engineBatchStart slot => Sys2Proof.Machine.execEngineBatchStart slot s
  | .engineFetch eng => Sys2Proof.Machine.execEngineFetch eng s
  | .ruleNop eng => Sys2Proof.Machine.execRuleNop eng s
  | .vadd eng => Sys2Proof.Machine.execVadd eng s
  | .vsub eng => Sys2Proof.Machine.execVsub eng s
  | .vmul eng => Sys2Proof.Machine.execVmul eng s
  | .vfma eng => Sys2Proof.Machine.execVfma eng s
  | .vfnma eng => Sys2Proof.Machine.execVfnma eng s
  | .vmax eng => Sys2Proof.Machine.execVmax eng s
  | .vmin eng => Sys2Proof.Machine.execVmin eng s
  | .vabs eng => Sys2Proof.Machine.execVabs eng s
  | .vneg eng => Sys2Proof.Machine.execVneg eng s
  | .vsign eng => Sys2Proof.Machine.execVsign eng s
  | .vsel eng => Sys2Proof.Machine.execVsel eng s
  | .vcmplt eng => Sys2Proof.Machine.execVcmplt eng s
  | .vrcp eng => Sys2Proof.Machine.execVrcp eng s
  | .vsqrt eng => Sys2Proof.Machine.execVsqrt eng s
  | .vrsqrt eng => Sys2Proof.Machine.execVrsqrt eng s
  | .vdiv eng => Sys2Proof.Machine.execVdiv eng s
  | .vrnd eng => Sys2Proof.Machine.execVrnd eng s
  | .emset eng => Sys2Proof.Machine.execEmset eng s
  | .emadd eng => Sys2Proof.Machine.execEmadd eng s
  | .emupd eng => Sys2Proof.Machine.execEmupd eng s
  | .emrnd eng => Sys2Proof.Machine.execEmrnd eng s
  | .srbf eng => Sys2Proof.Machine.execSrbf eng s
  | .rnbf eng => Sys2Proof.Machine.execRnbf eng s
  | .vld eng => Sys2Proof.Machine.execVld eng s
  | .vst eng => Sys2Proof.Machine.execVst eng s
  | .vacc eng => Sys2Proof.Machine.execVacc eng s
  | .vrsum eng => Sys2Proof.Machine.execVrsum eng s
  | .qstat eng => Sys2Proof.Machine.execQstat eng s
  | .ruleEnd eng => Sys2Proof.Machine.execRuleEnd eng s
  | .engineBatchComplete eng => Sys2Proof.Machine.execEngineBatchComplete eng s
  | .engineHalt eng => Sys2Proof.Machine.execEngineHalt eng s
  | .engineSave eng => Sys2Proof.Machine.execEngineSave eng s
  | .engineRestore eng => Sys2Proof.Machine.execEngineRestore eng s
  | .engineSubmit eng value => Sys2Proof.Machine.execEngineSubmit eng value s
  | .ruleStoreWrite eng index value => Sys2Proof.Machine.execRuleStoreWrite eng index value s
  | .derivePass eng => Sys2Proof.Machine.execDerivePass eng s
  | .engineFenceWb => Sys2Proof.Machine.execEngineFenceWb s
  | .engineFenceWbinv => Sys2Proof.Machine.execEngineFenceWbinv s
  | .fabricFence => Sys2Proof.Machine.execFabricFence s
  | .engineFenceComplete => Sys2Proof.Machine.execEngineFenceComplete s
  | .fabricFenceComplete => Sys2Proof.Machine.execFabricFenceComplete s
  | .matrixJobStart slot => Sys2Proof.Machine.execMatrixJobStart slot s
  | .mxaSubmit value => Sys2Proof.Machine.execMxaSubmit value s
  | .matrixPass => Sys2Proof.Machine.execMatrixPass s
  | .matrixJobComplete => Sys2Proof.Machine.execMatrixJobComplete s
  | .poolLoad pool => Sys2Proof.Machine.execPoolLoad pool s
  | .poolUnload pool => Sys2Proof.Machine.execPoolUnload pool s
  | .labFlush pool => Sys2Proof.Machine.execLabFlush pool s
  | .mmuInval value => Sys2Proof.Machine.execMmuInval value s
  | .kvWindowStart slot => Sys2Proof.Machine.execKvWindowStart slot s
  | .kvRequestAccept pool => Sys2Proof.Machine.execKvRequestAccept pool s
  | .kvWindowEnd pool => Sys2Proof.Machine.execKvWindowEnd pool s
  | .kvOpen pool => Sys2Proof.Machine.execKvOpen pool s
  | .append pool => Sys2Proof.Machine.execAppend pool s
  | .attend pool => Sys2Proof.Machine.execAttend pool s
  | .attendBwd pool => Sys2Proof.Machine.execAttendBwd pool s
  | .fork pool => Sys2Proof.Machine.execFork pool s
  | .release pool => Sys2Proof.Machine.execRelease pool s
  | .kvRead pool => Sys2Proof.Machine.execKvRead pool s
  | .rngSeedRead => Sys2Proof.Machine.execRngSeedRead s
  | .retest => Sys2Proof.Machine.execRetest s
  | .startupTestDone samples => Sys2Proof.Machine.execStartupTestDone samples s
  | .noiseBlock samples => Sys2Proof.Machine.execNoiseBlock samples s
  | .lfsrSeed value => Sys2Proof.Machine.execLfsrSeed value s
  | .seedDone => Sys2Proof.Machine.execSeedDone s
  | .rdS eng tag line => Sys2Proof.Machine.execRdS eng tag line s
  | .rdX eng tag line off data => Sys2Proof.Machine.execRdX eng tag line off data s
  | .upg eng tag line off data => Sys2Proof.Machine.execUpg eng tag line off data s
  | .evict eng tag line => Sys2Proof.Machine.execEvict eng tag line s
  | .wb eng tag line => Sys2Proof.Machine.execWb eng tag line s
  | .dataS eng tag line => Sys2Proof.Machine.execDataS eng tag line s
  | .dataE eng tag line => Sys2Proof.Machine.execDataE eng tag line s
  | .dataX eng tag line => Sys2Proof.Machine.execDataX eng tag line s
  | .upgAck eng tag line => Sys2Proof.Machine.execUpgAck eng tag line s
  | .evictAck eng tag line => Sys2Proof.Machine.execEvictAck eng tag line s
  | .wbAck eng tag line => Sys2Proof.Machine.execWbAck eng tag line s
  | .wbSuperseded eng tag line => Sys2Proof.Machine.execWbSuperseded eng tag line s
  | .snpShare eng slice tag line => Sys2Proof.Machine.execSnpShare eng slice tag line s
  | .snpInv eng slice tag line => Sys2Proof.Machine.execSnpInv eng slice tag line s
  | .snpDiscard eng slice tag line => Sys2Proof.Machine.execSnpDiscard eng slice tag line s
  | .rspGone eng slice tag line => Sys2Proof.Machine.execRspGone eng slice tag line s
  | .rspInv eng slice tag line => Sys2Proof.Machine.execRspInv eng slice tag line s
  | .rspInvS eng slice tag line => Sys2Proof.Machine.execRspInvS eng slice tag line s
  | .rspData eng slice tag line => Sys2Proof.Machine.execRspData eng slice tag line s
  | .rspDataS eng slice tag line => Sys2Proof.Machine.execRspDataS eng slice tag line s
  | .snoopTimeout slice tag => Sys2Proof.Machine.execSnoopTimeout slice tag s
  | .presenceDebounce fresh => Sys2Proof.Machine.execPresenceDebounce fresh s
  | .presenceLost => Sys2Proof.Machine.execPresenceLost s
  | .railPowerGood straps => Sys2Proof.Machine.execRailPowerGood straps s
  | .trip cause => Sys2Proof.Machine.execTrip cause s
  | .vinLow volts amps => Sys2Proof.Machine.execVinLow volts amps s
  | .coolLoss => Sys2Proof.Machine.execCoolLoss s
  | .coolLimitLift => Sys2Proof.Machine.execCoolLimitLift s
  | .leak => Sys2Proof.Machine.execLeak s
  | .ejectOpened => Sys2Proof.Machine.execEjectOpened s
  | .ejectClosed => Sys2Proof.Machine.execEjectClosed s
  | .referenceRelock => Sys2Proof.Machine.execReferenceRelock s
  | .perst vinOk at_ late cacheLate => Sys2Proof.Machine.execPerst vinOk at_ late cacheLate s
  | .moduleReset key fabric late cacheLate => Sys2Proof.Machine.execModuleReset key fabric late cacheLate s
  | .computeReset key fabric late ns => Sys2Proof.Machine.execComputeReset key fabric late ns s
  | .planReset key fabric => Sys2Proof.Machine.execPlanReset key fabric s
  | .planResetHalted at_ => Sys2Proof.Machine.execPlanResetHalted at_ s
  | .resetForced at_ => Sys2Proof.Machine.execResetForced at_ s
  | .dieResetRelease => Sys2Proof.Machine.execDieResetRelease s
  | .imageSlotVerify flashOk => Sys2Proof.Machine.execImageSlotVerify flashOk s
  | .coreReady core => Sys2Proof.Machine.execCoreReady core s
  | .coreReadyTimeout core => Sys2Proof.Machine.execCoreReadyTimeout core s
  | .memoryReady failedPc failedCh lanes repairFails => Sys2Proof.Machine.execMemoryReady failedPc failedCh lanes repairFails s
  | .channelZeroed chan => Sys2Proof.Machine.execChannelZeroed chan s
  | .domainStart => Sys2Proof.Machine.execDomainStart s
  | .readyForPlan => Sys2Proof.Machine.execReadyForPlan s
  | .bootLate => Sys2Proof.Machine.execBootLate s
  | .throttleUpdate pMs pS dieMax iin => Sys2Proof.Machine.execThrottleUpdate pMs pS dieMax iin s
  | .overcurrentThrottle => Sys2Proof.Machine.execOvercurrentThrottle s
  | .dieHotThrottle => Sys2Proof.Machine.execDieHotThrottle s
  | .telemetryInterval tel => Sys2Proof.Machine.execTelemetryInterval tel s
  | .clusterGate unit => Sys2Proof.Machine.execClusterGate unit s
  | .p1Entry => Sys2Proof.Machine.execP1Entry s
  | .p1Exit => Sys2Proof.Machine.execP1Exit s
  | .pstateDone => Sys2Proof.Machine.execPstateDone s
  | .claimAck port id => Sys2Proof.Machine.execClaimAck port id s
  | .coalesceExpiry => Sys2Proof.Machine.execCoalesceExpiry s
  | .queueEnable q value => Sys2Proof.Machine.execQueueEnable q value s
  | .sqDoorbell q value => Sys2Proof.Machine.execSqDoorbell q value s
  | .cqHeadWrite q value => Sys2Proof.Machine.execCqHeadWrite q value s
  | .queueNop q => Sys2Proof.Machine.execQueueNop q s
  | .planLoad q => Sys2Proof.Machine.execPlanLoad q s
  | .routeLoad q => Sys2Proof.Machine.execRouteLoad q s
  | .ruleLoad q => Sys2Proof.Machine.execRuleLoad q s
  | .copyIn q => Sys2Proof.Machine.execCopyIn q s
  | .copyOut q => Sys2Proof.Machine.execCopyOut q s
  | .queueArm q => Sys2Proof.Machine.execQueueArm q s
  | .queueDisarm q => Sys2Proof.Machine.execQueueDisarm q s
  | .queueDetach q => Sys2Proof.Machine.execQueueDetach q s
  | .fence q => Sys2Proof.Machine.execFence q s
  | .writeReg q => Sys2Proof.Machine.execWriteReg q s
  | .readReg q => Sys2Proof.Machine.execReadReg q s
  | .hostReadTimeout tag => Sys2Proof.Machine.execHostReadTimeout tag s
  | .hostMemoryRequest write off len data ep => Sys2Proof.Machine.execHostMemoryRequest write off len data ep s
  | .configRequest item write value => Sys2Proof.Machine.execConfigRequest item write value s
  | .d3hot => Sys2Proof.Machine.execD3hot s
  | .linkDown => Sys2Proof.Machine.execLinkDown s
  | .hotReset => Sys2Proof.Machine.execHotReset s
  | .flashRead => Sys2Proof.Machine.execFlashRead s
  | .flashProgram key => Sys2Proof.Machine.execFlashProgram key s
  | .flashErase key => Sys2Proof.Machine.execFlashErase key s
  | .fuseKeyHash key => Sys2Proof.Machine.execFuseKeyHash key s
  | .fuseRevoke key => Sys2Proof.Machine.execFuseRevoke key s
  | .fuseSvn key => Sys2Proof.Machine.execFuseSvn key s
  | .flashOpDone => Sys2Proof.Machine.execFlashOpDone s
  | .identity => Sys2Proof.Machine.execIdentity s
  | .status => Sys2Proof.Machine.execStatus s
  | .regRead off width pec => Sys2Proof.Machine.execRegRead off width pec s
  | .regWrite off width value pec rd => Sys2Proof.Machine.execRegWrite off width value pec rd s
  | .mgtTelemetry chunk pec => Sys2Proof.Machine.execMgtTelemetry chunk pec s
  | .fault record half pec => Sys2Proof.Machine.execFault record half pec s
  | .flashBuf off data pec rd => Sys2Proof.Machine.execFlashBuf off data pec rd s
  | .flashCmd ctl addr len fuse pec rd => Sys2Proof.Machine.execFlashCmd ctl addr len fuse pec rd s
  | .reset key pec rd late cacheLate => Sys2Proof.Machine.execReset key pec rd late cacheLate s
  | .locate on pec rd => Sys2Proof.Machine.execLocate on pec rd s
  | .alert mask pec rd => Sys2Proof.Machine.execAlert mask pec rd s
  | .alertResponse => Sys2Proof.Machine.execAlertResponse s
  | .clusterUngate unit => Sys2Proof.Machine.execClusterUngate unit s
  | .hostLinkUp speed width => Sys2Proof.Machine.execHostLinkUp speed width s
  | .hostReadCompletion tag status data => Sys2Proof.Machine.execHostReadCompletion tag status data s
  | .rampComplete => Sys2Proof.Machine.execRampComplete s
  | .alignTimeout port lanes => Sys2Proof.Machine.execAlignTimeout port lanes s
  | .measureTimeout port => Sys2Proof.Machine.execMeasureTimeout port s
  | .dieHot => Sys2Proof.Machine.execDieHot s

end Sys2Proof.Machine
end

