-- ==== Sys2Proof/Machine/Step.lean ====
section
/-! DEFINITION. One step of the node. -/

namespace Sys2Proof.Machine

/-- One step: the command at the front of the queue takes effect over the rest of the queue; on an empty queue one core cycle
passes (DESIGN CHOICE, assumption 1). -/
def step (s : State) : Host.Outcome State Fault Refusal :=
  match s.pending with
  | [] => done (coreCycle s)
  | c :: rest => exec c { s with pending := rest }

/-- The command that a word of the operation table spells put at the front of the queue; no word spells one. -/
def State.withFetchWord (s : State) (nbits w : Nat) : State :=
  match decodeTableWord nbits w with
  | some c => { s with pending := c :: s.pending }
  | none => s

end Sys2Proof.Machine
end

