-- ==== Sys2Proof/Safety.lean ====
section
/-! DEFINITION. The words that the statements use beside the model's own: a state whose lights follow it, a state whose lines are
whole, the commands that store nothing, and, for units that run a program or a batch, the condition under which the next
instruction, command or request is ready and the shared steps of its effect. -/

namespace Sys2Proof.Machine

/-- The three lights show what R469 derives from the state. -/
def Lit (s : State) : Prop := s.lights = lightsOf s

/-- The command `c` on `s` answers the next state `t`. -/
def Answers (c : Instr) (s t : State) : Prop := exec c s = .next t

/-- Every access that led from `s` to `t` found its channel serving (R224, R520, R521, R528, R549): none was held up. -/
abbrev Served (s t : State) : Prop := t.mem.heldUp = s.mem.heldUp

/-- Stack `k` runs batch `b`, whose next command is `c`, and is neither suspended nor in self-refresh (R253, R273). -/
abbrev RowNext (k : Nat) (s : State) (b : RlgBatch) (c : List Byte) : Prop :=
  rlBatch s k = some b ∧ b.cmds[b.next]? = some c ∧ bitOf (s.get rlgStatusSuspended) k = false ∧
    bitOf (s.get fumStatusSelfRefresh) k = false

/-- The banks that command `c` of batch `b` selects on stack `k`, as (pseudo-channel of the node, bank). -/
def rowBanks (k : Nat) (b : RlgBatch) (c : List Byte) : List (Nat × Nat) :=
  (rlSelected (b.masks.getD (rlMask c) (0, 0))).map (fun x => (k * 32 + x.1, x.2))

/-- The activations of a command counted and the decodes of its source rows taken (R251, R262). -/
def rowBegin (k : Nat) (b : RlgBatch) (c : List Byte) (rows : List Nat) (ecc : List (Nat × Ecc)) (s : State) : State :=
  let sel := rlSelected (b.masks.getD (rlMask c) (0, 0))
  rlEcc k sel rows ecc (s.onRlg (fun r => { r with acts := r.acts + rlActs (rlOp c) * sel.length }))

/-- The batch after its command: remaps that the command called for started (R240), NEXT and COUNT advanced, the batch ended
after its last command. -/
def rowAfter (k : Nat) (b : RlgBatch) (s : State) : State :=
  let b' := { b with next := b.next + 1 }
  let s := ((setBatch k (some b') (startDue s)).set (rlgStackStatNext k) (b.next + 1)).bump (rlgStackCmdsCount k) 1
  if b.next + 1 = b.cmds.length then rlEnd k b' s else s

/-- Context `c` runs a batch, nothing keeps it, and its next instruction is `w` (R279, R295, R297, R305). -/
abbrev InsnReady (c : Nat) (s : State) (w : Nat) : Prop :=
  ((s.ctx c).active = true ∧ (s.ctx c).ended = false ∧ (s.ctx c).halting = false ∧ (s.ctx c).held = false) ∧
    (strState s c = 1 ∨ strState s c = 2) ∧ (s.ctx c).refused = none ∧ (unheld (s.ctx c)).isSome = false ∧
    strInsn s c = w

/-- Engine `e` is in COMPUTE and the next instruction of its program is `w` (R319). -/
abbrev RuleReady (e : Nat) (s : State) (w : Nat) : Prop :=
  (s.eng e).active = true ∧ engState s e = 3 ∧ ruleInsn s e = w

/-- An instruction issued for beats 0 to 3 in turn: its issue cost is counted and the program goes on (R319). -/
def ruleIssue (e w : Nat) (f : Nat → State → State) (s : State) : State :=
  ((State.each (List.range 4) f s).bump (upeComputeCycCount e) (4 * issueCost (ruleOp w))).onEng e (fun x => { x with pc := x.pc + 1 })

/-- The window of pool `p` runs request `r` next: its opcode is `op`, it waits for nothing, and every check that comes
before a request's effect passes (R383, R384). -/
abbrev KvReady (op p : Nat) (s : State) (w : KvWin) (r : List Byte) : Prop :=
  kvNext (kvBorrow s) p = some (w, r) ∧ (rqOp r = op ∧ 1 ≤ op ∧ op ≤ 7) ∧
    kvWaits (kvBorrow s) (poolDesc (kvBorrow s) p) w r = false ∧
    rqBad (kvTaken p w (kvBorrow s)) (poolDesc (kvBorrow s) p) w r = false ∧
    rqState (kvTaken p w (kvBorrow s)) (poolDesc (kvBorrow s) p) r = false ∧
    droppedSpans (kvTaken p w (kvBorrow s)) (poolDesc (kvBorrow s) p) r = []

/-- The state in which a request's effect begins. -/
def kvBegun (p : Nat) (s : State) (w : KvWin) (r : List Byte) : State :=
  kvStamp (poolDesc (kvBorrow s) p) r (kvTaken p w (kvBorrow s))

/-- A request's completion written and the window closed when it was the last. -/
def kvEnd (p : Nat) (r : List Byte) (x : KvRes × State) : State := winDrained p (kvComplete p r x.1 x.2)

/-- Every cached line and every dirty copy in an L1 or a write-back buffer holds 128 bytes. -/
def LinesWhole (s : State) : Prop :=
  (∀ line l, cached s line = some l → l.data.length = 128) ∧ ∀ line d, dirtyCopy s line = some d → d.2.1.length = 128

/-- Commands whose effect holds no write of the tiers: neither a store of their own nor a fault record for the ring. -/
def storesNothing (c : Instr) : Bool :=
  match c with
  | .rcRead .. | .latchedLowWordRead .. | .beaconMiss | .holdRequestSend .. | .holdRequest .. | .planBankWrite .. | .arm ..
  | .disarm | .calResume | .signalDetect .. | .delayProbe .. | .downBackoff .. | .nakRepeat .. | .ackIdleSend ..
  | .unfence .. | .lpRequest .. | .lpAcknowledge .. | .lpExit .. | .neighbourNotice .. | .joinAnnounce ..
  | .joinAnnounceRepeat | .joinAccept .. | .detach .. | .detachDone .. | .frstGo .. | .bcast .. | .planSeg ..
  | .pushDone .. | .telemetry .. | .routeCheck | .adoptNow | .partitionDisable .. | .regulatorWrite .. | .missGrant ..
  | .logCompaction | .tgStart .. | .selfRefreshExit .. | .rlFenceGo
  | .rlFenceComplete | .streamBatchComplete .. | .groupDrain .. | .contextHalt .. | .floorWrite ..
  | .ruleNop .. | .vadd .. | .vsub .. | .vmul .. | .vfma .. | .vfnma .. | .vmax .. | .vmin .. | .vabs .. | .vneg ..
  | .vsign .. | .vsel .. | .vcmplt .. | .vrcp .. | .vsqrt .. | .vrsqrt .. | .vdiv .. | .vrnd .. | .emset .. | .emadd ..
  | .emupd .. | .emrnd .. | .srbf .. | .rnbf .. | .qstat .. | .ruleEnd .. | .ruleStoreWrite .. | .engineFenceWb
  | .engineFenceWbinv | .fabricFence | .fabricFenceComplete | .matrixJobComplete | .poolUnload .. | .labFlush ..
  | .mmuInval .. | .kvWindowEnd .. | .rngSeedRead | .retest | .startupTestDone .. | .lfsrSeed .. | .seedDone | .evictAck ..
  | .wbAck .. | .wbSuperseded .. | .presenceDebounce .. | .railPowerGood ..
  | .coolLimitLift | .ejectOpened | .ejectClosed | .referenceRelock | .planResetHalted .. | .channelZeroed ..
  | .overcurrentThrottle | .dieHotThrottle | .clusterGate .. | .p1Entry | .p1Exit | .claimAck .. | .linkDown | .hotReset
  | .flashRead | .flashProgram .. | .flashErase .. | .fuseKeyHash .. | .fuseRevoke .. | .fuseSvn .. | .flashOpDone
  | .identity | .status | .regRead .. | .mgtTelemetry .. | .fault .. | .flashBuf .. | .locate .. | .alertResponse
  | .clusterUngate .. | .rampComplete | .measureTimeout .. | .dieHot => true
  | _ => false

end Sys2Proof.Machine
end

