-- ==== Sys2Proof/Certificates/Slice0/Obligations.lean ====
section
/-! DEFINITION. The statements about the node, from the numbered rules of the spec. Each names, in its docstring, the rules it
rests on; a completion statement says for each of its commands which next state the command answers and under which conditions. -/

open Sys2Proof Sys2Proof.Machine

/-- A step runs the command at the front of the queue (00_scope.md). For every command c and state s, a step of s with c at
the front of its queue is exec of c on s with the queue's rest. -/
def Obligations.StepRunsFront : Prop :=
  ∀ (c : Instr) (rest : List Instr) (s : State), step { s with pending := c :: rest } = exec c { s with pending := rest }

/-- On an empty queue a step is one core cycle (the model's choice, log entry 1) (R185, R429, R510). On an empty queue a step
answers a next state: time advances by 625 ps, the queue stays empty, memory and every register stay, but for the count of
cycles with a full pending queue, the capped cycles and the stall cycles of the regulators. That a step on an empty queue
is a core cycle is the model's choice (log entry 1). -/
def Obligations.StepIdles : Prop :=
  ∀ s : State, s.pending = [] → ∃ t, step s = .next t ∧ t.now = s.now + 625 ∧ t.pending = [] ∧ t.mem.cells = s.mem.cells ∧
    (∀ f : Fld, f.key ≠ cohQueueFull.key → f.key ≠ fumCapCycCount.key → (∀ p < 16, f.key ≠ (memPartStallCycles p).key) →
      t.get f = s.get f) ∧
    t.get cohQueueFull = (if someQueueFull s then counted cohQueueFull (s.get cohQueueFull + 1) % 2 ^ 16 else s.get cohQueueFull)

/-- What power-on leaves (R6, R469, R498, R549). State.reset has an empty queue, every register field at its reset value (the
bring-up window open, PART, LAST 1, HST_IRQ_EN 1, LOCK and JOIN 0 among them), the lights that follow from it, memory in
canonical form with every byte reading 0. That an unwritten byte reads 0 is the model's choice where the spec states none
(log entry 18). -/
def Obligations.ResetLeaves : Prop :=
  State.reset.pending = [] ∧ Lit State.reset ∧ Memory.wf State.reset.mem.cells = true ∧ (∀ f : Fld, State.reset.get f = f.reset) ∧
    State.reset.get idBootStatWindow = 1 ∧ State.reset.get idPartCode = 0x0000314D2D524453 ∧ State.reset.get rstStatusLast = 1 ∧
    State.reset.get hstIrqEnVectors = 1 ∧ State.reset.get tickStatusLock = 0 ∧ State.reset.get fabStatusJoin = 0 ∧
    ∀ a, nodeByte State.reset a = 0

/-- Every step completes, and the lights follow the state (R469). From every state whose lights show what R469 derives from
its registers and pins, a step answers a next state (never a fault or a refusal), and the lights of that state again show
what R469 derives from it. -/
def Obligations.LightsFollowState : Prop :=
  ∀ s : State, Lit s → ∃ t, step s = .next t ∧ Lit t

/-- No command adds to the queue of waiting commands or takes from it (00_scope.md). For every command and state, when exec
answers a next state, the queue of waiting commands is what it was. -/
def Obligations.CommandsKeepQueue : Prop :=
  ∀ (c : Instr) (s t : State), exec c s = .next t → t.pending = s.pending

/-- Every step keeps the canonical form of memory (R174, R180). From every state whose memory lists its addresses strictly
rising with no entry equal to what an unlisted address holds, a step that answers a next state leaves memory in that form. -/
def Obligations.MemoryStaysCanonical : Prop :=
  ∀ s t : State, Memory.wf s.mem.cells = true → step s = .next t → Memory.wf t.mem.cells = true

/-- Beacons, lock and takeover complete (R15, R17, R19, R21, R24, R25). A tick edge of a running timer, a beacon accepted by a
LOCKED follower from its source, a missed beacon, the loss of lock and a takeover each answer the next state their rules
give. -/
def Obligations.TickBeaconsComplete : Prop :=
  (∀ (s : State) (tel : List Byte), s.tick.running = true →
      exec (.tickEdge tel) s = .next (settle (let v := s.reach (pendingEdge s)
          let u := lateRule (v.flag tickSwitchCtlCommitted && v.get tickSwitchAtAt == v.get tickCountCount + 1) v
          let u := newTick (pendingEdge s) (if inLock u then telemetryRecord (u.get tickCountCount) false tel u else u)
          let u := a1Edge (detachStart (u.get tickCountCount) (planEdge (u.get tickCountCount) u))
          scheduleTick (if u.flag tickStatusTk then launchTick u else u)))) ∧
  (∀ (s u : State) (p : Fin 16) (msg : List Byte) (at_ fwd : Nat) (replayed : Bool),
      u = consumeCtrl p.val 1 msg (s.reach at_) → bKind msg = 0 → ownBeacon u msg = false →
      beaconPortOk u p.val (bRank msg) = true → sourceOk u msg = true → u.get tickStatusLock = 2 → freshSource u msg = false →
      exec (.beaconReceive p msg at_ fwd replayed) s = .next (settle (forwardBeacon p.val msg (min fwd 24000)
        (tickBeacon msg (at_ - (bAcc msg + u.get (tickLinkDelayPs p.val))) (!replayed) (acceptBeacon p.val msg u))))) ∧
  (∀ s : State, s.flag tickStatusTk = false → s.get tickStatusLock = 2 → s.tick.seen ≤ s.get tickCountCount → s.get idClkStatSource = 0 →
      ∃ t, exec .beaconMiss s = .next t ∧ t.get tickStatusLock = 3 ∧ t.get tickStatusMissed = min (s.get tickStatusMissed + 1) 31 ∧
        t.tick.seen = s.get tickCountCount + 1 ∧ t.now = max s.now (pendingEdge s)) ∧
  (∀ s : State, s.flag tickStatusTk = false → s.get tickStatusLock = 3 → (16 ≤ s.get tickStatusMissed ∨ 4 ≤ s.tick.outPhase) →
      exec .lockLost s = .next (settle (lockLost s))) ∧
  (∀ s : State, s.flag tickStatusTk = false → s.get tickStatusLock = 3 → 1 ≤ s.get tickRankRank → s.get tickRankRank ≤ 7 →
      2 + s.get tickRankRank ≤ s.get tickStatusMissed → s.now = s.tick.edge →
      exec .takeover s = .next (settle (let u := becomeTk ((s.get tickTkEpoch + 1) % 65536) (clockTo 3 (s.get idClkStatPort) s)
        let u := u.onTick (fun x => { x with tookOver := some (u.get tickCountCount) })
        launchTick (fault .tick 4 0 (u.get tickCountCount) 0 none (raise tickEvtTakeover u)))))

/-- Holds, late notices, verdicts and arming complete (R29, R33, R36, R38, R41, R42, R43, R157, R161). The hold request of a
round, a hold request and a late notice from downstream, the round deadline, a hold grant, a verdict beacon, plan bytes,
arming and disarming each answer the next state their rules give. -/
def Obligations.HoldsComplete : Prop :=
  (∀ (s u : State) (i e : Nat), u = s.reach (roundDeadline s - execHoldRequestSend.holdReachOf s) → inLock u = true →
      u.tick.ext = 0 → u.tick.asked = 0 → u.flag tickHoldCtlAuto = true → u.get fumStatusHot = 0 →
      slotState u i = .running → onlyClaimed u i = false → pendingEdge u < e → 0 < unitsFor u e →
      exec (.holdRequestSend [(i, e)] []) s = .next (settle (
        let v := (u.bump tickHoldStatRequests 1).onTick (fun x => { x with asked := x.ext + 1 })
        if v.flag tickStatusTk then takeTotal (unitsFor u e) v.now v else sendUp (holdMsg v 0 (unitsFor u e)) v))) ∧
  (∀ (s u : State) (p : Fin 16) (msg : List Byte) (at_ : Nat), u = consumeCtrl p.val 2 msg (s.reach at_) → leAt msg 10 1 = 0 →
      bitOf (u.get tickBeaconPortDown) p.val = true → leAt msg 0 8 = u.get tickCountCount →
      exec (.holdRequest p msg at_) s = .next (settle (if u.flag tickStatusTk then takeTotal (min 4 (leAt msg 11 1)) at_ u
        else if roundDeadline u < at_ ∨ min 4 (leAt msg 11 1) ≤ u.tick.sentTotal then u else upTotal (min 4 (leAt msg 11 1)) msg u))) ∧
  (∀ (s u : State) (p : Fin 16) (msg : List Byte) (at_ : Nat), u = consumeCtrl p.val 2 msg (s.reach at_) → leAt msg 10 1 = 1 →
      bitOf (u.get tickBeaconPortDown) p.val = true →
      exec (.lateNotice p msg at_) s = .next (settle (if u.flag tickStatusTk then takeNotice u else sendUp msg u))) ∧
  (∀ s : State, s.flag tickStatusTk = true → s.tick.running = true → s.tick.roundsOver = false → s.tick.tookOver = none →
      earlierEpoch s = false → s.tick.ext < min 4 s.tick.arrived → min 4 s.tick.arrived ≠ 4 →
      exec .holdRoundDeadline s = .next (settle (launchBeacon 1 0 ((s.reach (roundDeadline s)).onTick (fun x => { x with
        ext := min 4 s.tick.arrived, round := x.round + 1, arrived := max x.arrived x.arrivedNext, arrivedNext := 0 }))))) ∧
  (∀ (s u v : State) (p : Fin 16) (msg : List Byte) (at_ fwd : Nat), u = consumeCtrl p.val 1 msg (s.reach at_) →
      beaconTaken u p.val 1 msg = true →
      v = forwardBeacon p.val msg (min fwd 24000) (acceptBeacon p.val msg u) → bTick msg = v.get tickCountCount →
      exec (.holdGrant p msg at_ fwd) s = .next (settle (v.onTick (fun x => { x with ext := max x.ext (min 4 (bExt msg)) })))) ∧
  (∀ (s u : State) (p : Fin 16) (msg : List Byte) (at_ fwd : Nat), u = consumeCtrl p.val 1 msg (s.reach at_) →
      beaconTaken u p.val 2 msg = true →
      exec (.verdictAccept p msg at_ fwd) s = .next (settle (acceptVerdict (bKindData msg)
        (forwardBeacon p.val msg (min fwd 24000) (acceptBeacon p.val msg u))))) ∧
  (∀ (s : State) (b : Fin 2) (o : Nat) (bs : List Byte), b.val ≠ activeBank s → s.flag tickSwitchCtlArmed = false →
      o + bs.length ≤ 60 → exec (.planBankWrite b o bs) s = .next (settle (s.onTick (fun x => { x with
        banks := bs.zipIdx.foldl (fun m y => if o + y.2 < 65536 then Tab.set 0 m (b.val * 65536 + o + y.2) y.1 else m) x.banks
        ok := Tab.set false x.ok b.val false })))) ∧
  (∀ s : State, armOk true (s.set tickSwitchCtlForce 1) = true →
      exec (.arm true) s = .next (settle ((s.set tickSwitchCtlForce 1).set tickSwitchCtlArmed 1))) ∧
  (∀ s : State, s.flag tickSwitchCtlCommitted = false → exec .disarm s = .next (settle (s.set tickSwitchCtlArmed 0)))

/-- The commands of a port's negotiation complete (R63, R65, R66, R67, R68, R69, R80, R84). Signal, capability pages,
training, alignment, delay measurement, verification, backoff and the enable of a port each answer the next state their
rules give, in the port state that each is for: EXCHANGE, TRAIN, ALIGN, MEASURE, VERIFY, UP, DETECT, a failed attempt, or
DOWN with its cause. -/
def Obligations.NegotiationCompletes : Prop :=
  (∀ (p : Fin 16) (s : State), s.get (elvStatState p.val) = 1 →
      exec (.signalDetect p) s = .next (settle (toExchange p.val (s.onPort p.val (fun q => { q with signal := true }))))) ∧
  (∀ (p : Fin 16) (l : Fin 8) (b : BitVec 64) (c : BitVec 16) (at_ : Nat) (s u : State), u = s.reach at_ →
      u.get (elvStatState p.val) = 2 → c.toNat = crc16 (leBytes 8 b.toNat) →
      exec (.capabilityPage p l false b c at_) s =
        .next (settle (let v := markSilent p.val (takePage p.val l b.toNat u)
          match laneMap (v.port p.val) with
          | none => portDown p.val 3 v
          | some rev =>
            let w := v.set (elvStatReversed p.val) (b2n rev)
            let x := sendPages p.val w
            if !(validLanes (w.port p.val)).isEmpty ∧ (w.port p.val).partnerAck ∧ proposed w p.val ≠ 0 ∧
                (w.port p.val).partnerProp = proposed w p.val ∧ lanesSettled x p.val then
              enter p.val 3 (x.onPort p.val (fun q => { q with
                lanes := (laneGroup (rankMode (proposed w p.val)).1 (groupFails x p.val)).getD 0 }))
            else x))) ∧
  (∀ (p : Fin 16) (l : Fin 8) (i : Bool) (b : BitVec 64) (c : BitVec 16) (at_ : Nat) (s u : State), u = s.reach at_ →
      3 ≤ u.get (elvStatState p.val) → u.get (elvStatState p.val) ≤ 6 → c.toNat = crc16 (leBytes 8 b.toNat) →
      bits b.toNat 56 8 = (u.get (elvStatAttempt p.val) + 1) % 256 →
      exec (.capabilityPage p l i b c at_) s = .next (settle (exchangePage p.val l.val b.toNat i
        (toExchange p.val (u.set (elvStatAttempt p.val) (u.get (elvStatAttempt p.val) + 1)))))) ∧
  (∀ (p : Fin 16) (s : State), s.get (elvStatState p.val) = 2 →
      exec (.exchangeTimeout p) s =
        .next (settle (portDown p.val (if (heardLanes (s.port p.val)).isEmpty then 10 else 4) s))) ∧
  (∀ (p : Fin 16) (l : BitVec 8) (s : State), s.get (elvStatState p.val) = 3 →
      exec (.trainingDone p true l) s = .next (settle (enter p.val 4 s)) ∧
      exec (.trainingDone p false l) s = .next (settle (failAttempt p.val 2 l.toNat s))) ∧
  (∀ (p : Fin 16) (l : BitVec 8) (s : State), s.get (elvStatState p.val) = 3 →
      exec (.trainTimeout p l) s = .next (settle (failAttempt p.val 2 l.toNat s))) ∧
  (∀ (p : Fin 16) (l : BitVec 8) (s : State), s.get (elvStatState p.val) = 4 →
      exec (.alignTimeout p l) s = .next (settle (failAttempt p.val 2 l.toNat s))) ∧
  (∀ (p : Fin 16) (l : BitVec 8) (s : State), s.get (elvStatState p.val) = 4 →
      exec (.alignDone p true l) s = .next (settle (sendProbes p.val 64 (enter p.val 5
        (s.onPort p.val (fun q => { q with probes := 0, rttCount := 0, rttSum := 0 })))))) ∧
  (∀ (p : Fin 16) (tx turn : BitVec 64) (s : State), 5 ≤ s.get (elvStatState p.val) → s.get (elvStatState p.val) ≠ 10 →
      exec (.delayProbe p tx turn false) s = .next (settle (sendCtrl p.val 0x11 (leBytes 8 tx.toNat ++ leBytes 8 turn.toNat)
        (consumeCtrl p.val 0x10 (leBytes 8 tx.toNat) s)))) ∧
  (∀ (p : Fin 16) (echo turn : BitVec 64) (ret : Option (BitVec 64)) (s u : State), s.get (elvStatState p.val) = 5 →
      u = takeReply p.val echo.toNat turn.toNat ret s →
      exec (.delayReply p echo turn ret) s = .next (settle (
        if (u.port p.val).probes < 64 ∨ (u.port p.val).rttCount = 0 then u
        else if 320000 < (u.port p.val).rtt then portDown p.val 5 (u.set (elvRttPs p.val) (u.port p.val).rtt)
        else enter p.val 6 (setDelay p.val (u.port p.val).rtt u)))) ∧
  (∀ (p : Fin 16) (echo turn : BitVec 64) (ret : Option (BitVec 64)) (s : State), s.get (elvStatState p.val) = 8 →
      exec (.delayReply p echo turn ret) s = .next (settle (takeReply p.val echo.toNat turn.toNat ret s))) ∧
  (∀ (p : Fin 16) (s : State), s.get (elvStatState p.val) = 5 →
      exec (.measureTimeout p) s =
        .next (settle (toExchange p.val (s.set (elvStatAttempt p.val) (s.get (elvStatAttempt p.val) + 1))))) ∧
  (∀ (p : Fin 16) (c r : Nat) (e : Bool) (l : BitVec 8) (s : State), s.get (elvStatState p.val) = 6 →
      fecOn s p.val (s.port p.val).partnerProp = true → c * 65536 ≤ r →
      exec (.verifyEnd p false c r e l) s = .next (settle (comeUp p.val s)) ∧
      exec (.verifyEnd p true c r e l) s = .next (settle (failAttempt p.val 6 l.toNat s))) ∧
  (∀ (p : Fin 16) (s : State), s.get (elvStatState p.val) = 10 → s.flag (elvCfgEnable p.val) = true → s.get fumStatusState ≠ 3 →
      exec (.downBackoff p) s = .next (settle (toDetect p.val s))) ∧
  (∀ (p : Fin 16) (s : State), s.get (elvStatState p.val) = 0 → s.get fumStatusState ≠ 3 →
      exec (.portEnable p true) s = .next (settle (toDetect p.val (s.set (elvCfgEnable p.val) 1))))

/-- Flits, replay, retraining and low power of a port complete (R74, R75, R76, R78, R79, R80, R81, R83, R89). On a port that
is UP (or in the state each command is for), a good flit, the repeated NAK, the acknowledgement bound and timeout, the
close of an episode window, loss, retraining and its end, the driver's writes of CTL, the low-power messages and Quit each
answer the next state their rules give. -/
def Obligations.LinkTrafficCompletes : Prop :=
  (∀ (p : Fin 16) (flit f : List Byte) (at_ : Nat) (s u : State), f = slice flit 0 256 → u = s.reach at_ → flitsOpen u p.val = true →
      leAt f 252 4 = crc32c (f.take 252) → bits (leAt f 0 2) 12 3 < 3 →
      exec (.flitReceive p flit [] at_) s = .next (settle (if bits (leAt f 0 2) 12 3 = 0 then takeHeader p.val f u
        else takeSequenced p.val (bits (leAt f 0 2) 12 3 == 2) f (takeHeader p.val f u)))) ∧
  (∀ (p : Fin 16) (s : State), portLive s p.val = true → (s.port p.val).nakC = true →
      exec (.nakRepeat p true) s = .next (settle (sendIdle p.val (some true) s))) ∧
  (∀ (p : Fin 16) (s : State), portLive s p.val = true → (s.port p.val).nakD = true →
      exec (.nakRepeat p false) s = .next (settle (sendIdle p.val (some false) s))) ∧
  (∀ (p : Fin 16) (s : State), portLive s p.val = true → (s.port p.val).owed ≠ 0 →
      exec (.ackIdleSend p) s = .next (settle (sendIdle p.val none s))) ∧
  (∀ (p : Fin 16) (c : Bool) (at_ : Nat) (s : State), (portUp (s.reach at_) p.val = true ∨ portLive (s.reach at_) p.val = true ∧ c = true) →
      ((s.reach at_).port p.val).buf c ≠ [] →
      exec (.ackTimeout p c at_) s = .next (settle (replay p.val c ((s.reach at_).bump (elvReplayAckTo p.val) 1)))) ∧
  (∀ (p : Fin 16) (s : State), (s.port p.val).epOpen = true → ((s.port p.val).epOutD ≠ 0 ∨ (s.port p.val).epOutC ≠ 0) →
      exec (.episodeWindowClose p) s = .next (settle (exhaust p.val (s.reach ((s.port p.val).epStart + 1500000))))) ∧
  (∀ (p : Fin 16) (s : State), (s.port p.val).epOpen = true → (s.port p.val).epOutD = 0 → (s.port p.val).epOutC = 0 →
      exec (.episodeWindowClose p) s = .next (settle (lpDelayed p.val ((s.reach ((s.port p.val).epStart + 1500000)).onPort p.val
        (fun q => { q with epOpen := false, epReplays := 0 }))))) ∧
  (∀ (p : Fin 16) (line : LineCheck) (s : State), s.get (elvStatState p.val) = 8 → 8 ≤ (s.port p.val).probes →
      (s.port p.val).rttCount ≠ 0 → (s.port p.val).rtt ≤ 320000 →
      linePasses (s.flag (elvStatFec p.val)) line.uncorrectable line.corrected line.received line.crcError = true →
      exec (.retrainDone p line) s = .next (settle (
        let u := setDelay p.val (s.port p.val).rtt (enter p.val 7 s)
        let v := fault .link 3 p.val 0 0 (some p.val) (raise (elvEvtRetrainOk p.val)
          (if u.get (telClaimState p.val) = 1 then u.set (telClaimState p.val) 2 else u))
        let v := drainWait p.val true (resend p.val true v)
        lpDelayed p.val (drainHeld p.val (drainWait p.val false (resend p.val false v)))))) ∧
  (∀ (p : Fin 16) (s : State), s.get (elvStatState p.val) = 8 →
      exec (.retrainTimeout p) s = .next (settle (portDown p.val 7
        (if s.get (telClaimState p.val) = 1 then s.set (telClaimState p.val) 3 else s)))) ∧
  (∀ (p : Fin 16) (c r : Nat) (s : State), r < c * 4096 →
      exec (.degradedWindow p c r) s = .next (settle (fault .link 5 p.val 0 0 (some p.val) (raise (elvEvtDegraded p.val) s)))) ∧
  (∀ (p : Fin 16) (s : State), s.get (elvStatState p.val) = 7 →
      exec (.retrain p) s = .next (settle (enterRetrain p.val (claimRetraining p.val 3 s)))) ∧
  (∀ (p : Fin 16) (s : State), exec (.unfence p) s = .next (settle (s.set (elvStatFenced p.val) 0))) ∧
  (∀ (p : Fin 16) (s : State), s.get (elvStatState p.val) ≠ 0 → s.get (elvStatState p.val) ≠ 10 →
      (portDown p.val 9 s).flag (elvCfgEnable p.val) = true →
      exec (.renegotiate p) s = .next (settle (toDetect p.val (portDown p.val 9 s)))) ∧
  (∀ (p : Fin 16) (s u : State), u = consumeCtrl p.val 0x12 [] s → portUp u p.val = true → (u.port p.val).epOpen = false →
      exec (.lpRequest p) s = .next (settle (lpAnswer p.val u))) ∧
  (∀ (p : Fin 16) (s u : State), u = consumeCtrl p.val 0x13 [] s → portUp u p.val = true →
      exec (.lpAcknowledge p) s = .next (settle (enter p.val 9 u))) ∧
  (∀ (p : Fin 16) (s u : State), u = consumeCtrl p.val 0x14 [] s → u.get (elvStatState p.val) = 9 →
      exec (.lpExit p) s = .next (settle (enterRetrain p.val u))) ∧
  (∀ (p : Fin 16) (c : Byte) (s u : State), u = consumeCtrl p.val 0x15 [c] s → u.get (elvStatState p.val) ≠ 0 →
      u.get (elvStatState p.val) ≠ 10 → exec (.quit p c) s = .next (settle (portDown p.val 8 u)))

/-- Forwarding, responses and messages of the fabric complete (R94, R104, R109, R112, R116, R576). On a node that takes part
in the fabric, a packet of its own or of a port, the response to an outstanding request, the timeout of one, and a message
that only reaches its node each answer the next state their rules give. -/
def Obligations.FabricPacketsComplete : Prop :=
  (∀ (p : Fin 16) (pkt : List Byte) (s : State), fabricOn s = true → pktVc pkt ≠ 0 → pktOp pkt ≠ 0x47 →
      exec (.packetForward (some p) pkt) s = .next (settle (forward (some p.val) pkt (consume p.val pkt s)))) ∧
  (∀ (pkt : List Byte) (s : State), fabricOn s = true → pktVc pkt ≠ 0 → isRequest (pktOp pkt) = true → s.fab.reqs.length < 1024 →
      tagFree s (pktTag pkt) = true →
      exec (.packetForward none pkt) s = .next (settle (forward none pkt (reqCount (s.onFab (fun f => { f with
        reqs := f.reqs ++ [⟨pktTag pkt, pktOp pkt, pktDst pkt, pktAddr pkt, (routePort s (pktDst pkt)).getD 16, s.now, false⟩] })))))) ∧
  (∀ (p : Fin 16) (pkt : List Byte) (r : RemReq) (s u : State), forUs s pkt = true → pktOp pkt = 0x81 → u = take p.val pkt s →
      u.fab.reqs.find? (fun x => x.tag == pktTag pkt && responseOp x.op == 0x81 && !reqExpired u x) = some r →
      exec (.readData p pkt) s = .next (settle (
        let v := reqCount (u.onFab (fun f => { f with reqs := f.reqs.filter (fun x => x != r) }))
        (if pktStatus pkt = 4 then fault .fabric 3 r.dst r.addr 0 none v else v).emit (.message pkt)))) ∧
  (∀ (p : Fin 16) (pkt : List Byte) (r : RemReq) (s u : State), forUs s pkt = true → pktOp pkt = 0x82 → u = take p.val pkt s →
      u.fab.reqs.find? (fun x => x.tag == pktTag pkt && responseOp x.op == 0x82 && !reqExpired u x) = some r →
      exec (.writeAck p pkt) s = .next (settle (
        let v := reqCount (u.onFab (fun f => { f with reqs := f.reqs.filter (fun x => x != r) }))
        (if pktStatus pkt = 4 then fault .fabric 3 r.dst r.addr 0 none v else v).emit (.message pkt)))) ∧
  (∀ (p : Fin 16) (pkt : List Byte) (r : RemReq) (s u : State), forUs s pkt = true → pktOp pkt = 0x83 → u = take p.val pkt s →
      u.fab.reqs.find? (fun x => x.tag == pktTag pkt && responseOp x.op == 0x83 && !reqExpired u x) = some r →
      exec (.atomicAck p pkt) s = .next (settle (
        let v := reqCount (u.onFab (fun f => { f with reqs := f.reqs.filter (fun x => x != r) }))
        (if pktStatus pkt = 4 then fault .fabric 3 r.dst r.addr 0 none v else v).emit (.message pkt)))) ∧
  (∀ (tag : BitVec 16) (r : RemReq) (s u : State), s.fab.reqs.find? (fun x => x.tag == tag.toNat) = some r → r.fenced = false →
      u = s.reach (r.issued + reqTimeoutPs s) →
      exec (.requestTimeout tag) s = .next (settle (fault .fabric 2 r.dst r.addr 0 (if r.port < 16 then some r.port else none)
        (raise fabEvtTimeout ((reqCount (u.onFab (fun f => { f with
          reqs := f.reqs.filter (fun x => x != r), retired := f.retired ++ [(r.tag, u.now + 2 * reqTimeoutPs u)] }))).bump
            fabReqStatTimeouts 1))))) ∧
  (∀ (pkt : List Byte) (s : State), forUs s pkt = true → pktOp pkt = 0x40 →
      exec (.neighbourNotice pkt) s = .next (settle ((consumeAny pkt s).emit (.message pkt)))) ∧
  (∀ (pkt : List Byte) (s : State), forUs s pkt = true → pktOp pkt = 0x45 →
      exec (.detachDone pkt) s = .next (settle ((consumeAny pkt s).emit (.message pkt)))) ∧
  (∀ (pkt : List Byte) (s : State), forUs s pkt = true → pktOp pkt = 0x48 →
      exec (.pushDone pkt) s = .next (settle ((consumeAny pkt s).emit (.message pkt)))) ∧
  (∀ (pkt : List Byte) (s : State), forUs s pkt = true → pktOp pkt = 0x49 →
      exec (.telemetry pkt) s = .next (settle ((consumeAny pkt s).emit (.message pkt))))

/-- Joining, departure, broadcast and route tables complete (R101, R103, R114, R115, R118, R120, R121, R122, R123, R126). An
announce of a neighbour at a member, the repeated announce, JOIN_ACCEPT and JOIN_REFUSE at an ANNOUNCING node, DETACH from
the admin node, the end of a detachment, a fabric reset from the timekeeper, FAB_FRST_CMD, a broadcast, a plan segment,
the check of a route table and ADOPT_NOW each answer the next state their rules give. -/
def Obligations.MembershipCompletes : Prop :=
  (∀ (p : Fin 16) (pkt : List Byte) (s u : State), forUs s pkt = true → pktOp pkt = 0x41 → pktSrc pkt = s.get (elvPartnerNode p.val) →
      u = take p.val pkt s → u.get fabStatusJoin = 3 →
      exec (.joinAnnounce p pkt) s = .next (settle (sendVc none (relayed u p.val pkt) u))) ∧
  (∀ s : State, s.get fabStatusJoin = 1 → s.get tickStatusLock = 2 → 1000 ≤ s.fab.sinceAnnounce → fabricOn s = true →
      exec .joinAnnounceRepeat s = .next (settle (announceAll s))) ∧
  (∀ (pkt : List Byte) (s u : State), forUs s pkt = true → pktOp pkt = 0x42 → u = consumeAny pkt s → u.get fabStatusJoin < 2 →
      exec (.joinAccept pkt) s = .next (settle ((((u.set fabMgmtNodeNode (bits (leAt pkt 16 8) 0 12)).set fabAdminNodeNode
        (bits (leAt pkt 16 8) 16 12)).set fabStatusJoin 2).onFab (fun f => { f with windows := bits (leAt pkt 16 8) 32 4 })))) ∧
  (∀ (pkt : List Byte) (s u : State), forUs s pkt = true → pktOp pkt = 0x43 → u = raise fabEvtRefused ((consumeAny pkt s).set fabStatusJoin 4) →
      exec (.joinRefuse pkt) s = .next (settle (fault .fabric 4 (pktSrc pkt) (Config.freeValue u.free % 2 ^ 64) 0 none
        { u with free := u.free + 1 }))) ∧
  (∀ (pkt : List Byte) (s u : State), forUs s pkt = true → pktOp pkt = 0x44 → u = consumeAny pkt s → pktSrc pkt = u.get fabAdminNodeNode →
      exec (.detach pkt) s = .next (settle (u.set fabDetachAtAt (leAt pkt 16 8)))) ∧
  (∀ s : State, s.fab.detaching = true → s.fab.reqs = [] →
      exec .detachRequestsDrained s = .next (settle (enterP2 ((detachCompletes (sendMgmt (s.get fabMgmtNodeNode) 0x45 [] s)).set
        fabStatusJoin 6)))) ∧
  (∀ (pkt : List Byte) (late : BitVec 64) (ns : Nat) (s u : State), forUs s pkt = true → pktOp pkt = 0x46 → u = consumeAny pkt s →
      pktSrc pkt = u.get tickTkNode → u.flag fabRemoteCtlFrstEn = true → isReady u = true →
      exec (.fabricReset pkt late ns) s = .next (settle (lowReset 3 5 late.toNat ns u))) ∧
  (∀ (t : Fin 4096) (s u : State), u = s.set fabFrstCmdTarget t.val → u.flag tickStatusTk = true →
      exec (.frstGo t) s = .next (settle (sendMgmt t.val 0x46 [] u))) ∧
  (∀ (p : Fin 16) (pkt : List Byte) (s : State), fabricOn s = true → pktOp pkt = 0x47 →
      exec (.bcast p pkt) s = .next (settle (bcast (some p.val) pkt (take p.val pkt s)))) ∧
  (∀ (pkt : List Byte) (s : State), fabricOn s = true → s.flag fabStatusRoutes = true → pktOp pkt = 0x47 → leAt pkt 16 1 = 1 →
      exec (.planSeg pkt) s = .next (settle (fabricPlan true (standbyBank s) (leAt pkt 20 4) (slice pkt 32 (16 * (pktLen pkt - 1)))
        (consumeAny pkt s)))) ∧
  (∀ s : State, exec .routeCheck s = .next (settle (let b := standbyRoute s
        let u := (s.set fabRouteStatusReason (routeReason s b)).set fabRouteStatusDead (if routeReason s b = 0 then routeDead s b else 0)
        let u := if u.flag tickSwitchCtlCommitted then u
          else u.onFab (fun f => { f with ok := Tab.set false f.ok b (decide (routeReason s b = 0)) })
        if routeReason s b = 0 then u.set (fabRouteIdId b) (routeAt u b 8 4) else u))) ∧
  (∀ s : State, s.flag tickStatusBankEmpty = true → routeOk s (standbyRoute s) = true →
      exec .adoptNow s = .next (settle (member (routeSwap (s.onFab (fun f => { f with
        windows := if s.get fabStatusJoin = 2 ∨ s.get fabStatusJoin = 3 then s.fab.windows else 15 }))))))

/-- Remote requests, claim acknowledgements and coalesced faults complete (R107, R108, R109, R111, R566, R572). A well-formed
READ, WRITE, ATOMIC_ADD or FETCH_ADD for this node, admitted by its status checks, is performed and answered to its source
with its tag and the status that performing it gave, when the channels it needs serve; an acknowledgement of a recovered or DOWN claim of the same ID
returns it to NONE; the coalescing entry that expires first ends. -/
def Obligations.RemoteServiceCompletes : Prop :=
  (∀ (p : Fin 16) (pkt : List Byte) (s t : State), forUs s pkt = true → pktOp pkt = 1 → requestStatus (take p.val pkt s) pkt = 0 →
      t = (let r := doRead pkt (take p.val pkt s)
        respond (some p.val) (pktSrc pkt) 0x81 (pktTag pkt) r.1 r.2.1 r.2.2) → Served s t →
      exec (.read p pkt) s = .next (settle t)) ∧
  (∀ (p : Fin 16) (pkt : List Byte) (s t : State), forUs s pkt = true → pktOp pkt = 2 → requestStatus (take p.val pkt s) pkt = 0 →
      t = (let r := doWrite pkt (take p.val pkt s)
        respond (some p.val) (pktSrc pkt) 0x82 (pktTag pkt) r.1 r.2.1 r.2.2) → Served s t →
      exec (.write p pkt) s = .next (settle t)) ∧
  (∀ (p : Fin 16) (pkt : List Byte) (s t : State), forUs s pkt = true → pktOp pkt = 3 → requestStatus (take p.val pkt s) pkt = 0 →
      t = (let r := doAtomic pkt (take p.val pkt s)
        respond (some p.val) (pktSrc pkt) 0x83 (pktTag pkt) r.1 r.2.1 r.2.2) → Served s t →
      exec (.atomicAdd p pkt) s = .next (settle t)) ∧
  (∀ (p : Fin 16) (pkt : List Byte) (s t : State), forUs s pkt = true → pktOp pkt = 4 → requestStatus (take p.val pkt s) pkt = 0 →
      t = (let r := doAtomic pkt (take p.val pkt s)
        respond (some p.val) (pktSrc pkt) 0x83 (pktTag pkt) r.1 r.2.1 r.2.2) → Served s t →
      exec (.fetchAdd p pkt) s = .next (settle t)) ∧
  (∀ (p : Fin 16) (id : BitVec 16) (s : State), id.toNat = s.get (telClaimId p.val) → 2 ≤ s.get (telClaimState p.val) →
      exec (.claimAck p id) s = .next (settle (s.set (telClaimState p.val) 0))) ∧
  (∀ (c : Coal) (s : State), firstExpiring s.flt.coal = some c →
      exec .coalesceExpiry s = .next (settle (coalEnd c (s.reach c.expire))))

/-- Collective slots, VC 0 packets, CAL_RESOLVE and RESUME complete (R133, R135, R139, R140, R141, R165, R166). A
startable reduce-scatter slot whose descriptor passes its check begins with REDUCING, the epoch noted and the parts that
need no port; an accepted VC 0 packet on an input port goes into its accumulator entry; a held node applies a COMMIT or
an ABORT read from the timekeeper with CAL_VERDICT unchanged; RESUME clears OUT. A command that accesses memory is said
to complete where the channels its accesses need serve (Served). -/
def Obligations.CollectivesComplete : Prop :=
  (∀ (i : Fin 1024) (s u t : State) (b g : List Byte), startable s 0 i.val = true → s.flag calStatusOut = false →
      u = touchDesc i.val (startSlot i.val s) → slotRead u i.val = (b, g, 0) →
      t = slotBegin i.val ((u.set calStatusDescReason 0).onCal (fun c => { c with
        descs := Tab.set [] c.descs i.val b, segs := Tab.set [] c.segs i.val g })) → Served s t →
      exec (.collectiveSlotStart i) s = .next (settle t)) ∧
  (∀ (p : Fin 16) (pkt : List Byte) (at_ : Nat) (s u : State) (g : Seg), u = consume p.val pkt (s.reach at_) →
      vcStep pkt = u.get calStepStep % 4096 → vcTry pkt = u.get calTryTry → pktDst pkt = ownId u → vcSlot pkt < planSlots u →
      (slotOf u (vcSlot pkt)).cls = 0 → slotState u (vcSlot pkt) = .running →
      segOfWindow (slotDesc u (vcSlot pkt)) (slotSegs u (vcSlot pkt)) (vcWindow pkt) = some g →
      vcMode pkt = (slotDesc u (vcSlot pkt)).mode → vcPart pkt < (slotDesc u (vcSlot pkt)).parts →
      (slotDesc u (vcSlot pkt)).rmode = 0 → partWritten u (vcSlot pkt) (vcWindow pkt) (vcPart pkt) = false →
      bitOf g.inPorts p.val = true →
      exec (.vc0Packet p pkt at_) s = .next (settle (takeInput p.val (vcSlot pkt) g (vcWindow pkt) (vcPart pkt) pkt u))) ∧
  (∀ (v : BitVec 64) (s u : State), u = (s.set calResolveStep (bits v.toNat 0 32)).set calResolveVerdict (bits v.toNat 32 4) →
      bitOf v.toNat 63 = true → u.get calStatusState = 3 → bits v.toNat 0 32 = u.get calStepStep % 2 ^ 32 →
      (bits v.toNat 32 4 = 0 → exec (.calResolve v) s = .next (settle
        ((acceptCommit false (kindData (u.get calStepStep) (u.get calTryTry) 0 0) u).set calVerdictLast (u.get calVerdictLast)))) ∧
      (bits v.toNat 32 4 = 1 → exec (.calResolve v) s = .next (settle
        ((acceptAbort (kindData (u.get calStepStep) (u.get calTryTry) 1 0) u).set calVerdictLast (u.get calVerdictLast))))) ∧
  (∀ s : State, exec .calResume s = .next (settle (s.set calStatusOut 0)))

/-- Accesses, grants, partitions and translations of memory complete (R175, R177, R179, R185, R188, R189, R193, R198, R366).
An access of a served line and an atomic with a well-formed operand reach their slice, a refused read answers 0xFF; the
miss scheduler grants under both modes; a granted transfer issues once the bucket and its channel allow; a fill and an
adder end their operation on the line; a partition is enabled, refused, drained and flushed; a RATE write refills the
bucket; MMU_INVAL drops translations. -/
def Obligations.MemoryCompletes : Prop :=
  (∀ (q : Fin 585) (wr : Bool) (a : BitVec 48) (d : List Byte) (n : Nat) (h : Fin 3) (u : BitVec 8) (dl : Option (BitVec 32)) (s : State)
      (m : Nat), m = min (if wr then d.length else n) (128 - a.toNat % 128) → m ≠ 0 → refusal s a.toNat = 0 →
      exec (.memoryAccess q wr a d n h u dl) s = .next (settle (pumpLine (a.toNat / 128) (arrive ⟨q.val, b2n wr, a.toNat, m, d.take m,
        h.val, (if 583 ≤ q.val then 1 else u.toNat), (if 64 ≤ q.val ∧ q.val < 576 then dl.map BitVec.toNat else none), cycleNow s,
        0, false, 0⟩ s)))) ∧
  (∀ (q : Fin 584) (a : BitVec 48) (n : Nat) (h : Fin 3) (u : BitVec 8) (dl : Option (BitVec 32)) (s : State), n ≠ 0 →
      n ≤ 128 - a.toNat % 128 → refusal s a.toNat ≠ 0 →
      exec (.memoryAccess ⟨q.val, by omega⟩ false a [] n h u dl) s = .next (settle (pumpLine (a.toNat / 128)
        ((mapErr q.val a.toNat s).emit (.memData q.val (List.replicate n 0xFF) false 1))))) ∧
  (∀ (q : Fin 585) (a : BitVec 48) (f : Fin 8) (g : Bool) (x : BitVec 128) (s : State), f.val < 6 → atomicOk f.val x.toNat = true →
      refusal s a.toNat = 0 → a.toNat % atomicSize f.val = 0 →
      exec (.atomicRequest q a f g x) s = .next (settle (pumpLine (a.toNat / 128) (arrive ⟨q.val, 2, a.toNat, atomicSize f.val,
        leBytes 16 x.toNat, 0, 0, none, cycleNow s, f.val, g, 0⟩ (guardCount a.toNat (atomicSize f.val) s))))) ∧
  (∀ (p : Fin 16) (r : MReq) (s u : State), s.flag (memPartCfgArb p.val) = true →
      earliest s p.val (eligible (Tab.get [] s.mem.queue p.val) []) = some r →
      u = setGranted p.val (Tab.get [] s.mem.granted p.val ++ [r]) (setQueue p.val ((Tab.get [] s.mem.queue p.val).erase r) s) →
      exec (.missGrant p) s = .next (settle (if Tab.get [] s.mem.granted p.val = []
        then { u with mem := { u.mem with stallAt := Tab.set 0 u.mem.stallAt p.val (cycleNow s) } } else u))) ∧
  (∀ (p : Fin 16) (k : Nat) (c : Nat × Nat × Nat) (r : MReq) (s u : State) (el : List MReq), s.flag (memPartCfgArb p.val) = false →
      el = eligible (Tab.get [] s.mem.queue p.val) [] →
      pickClass ([0, 1, 2].filter (fun k => el.any (fun r => classOfReq r == k))) (Tab.get (0, 0, 0) s.mem.credit p.val)
        (pctOf s p.val) = some (k, c) → el.find? (fun r => classOfReq r == k) = some r →
      u = setGranted p.val (Tab.get [] s.mem.granted p.val ++ [r])
        (setQueue p.val ((Tab.get [] s.mem.queue p.val).erase r) (setCredit p.val c s)) →
      exec (.missGrant p) s = .next (settle (if Tab.get [] s.mem.granted p.val = []
        then { u with mem := { u.mem with stallAt := Tab.set 0 u.mem.stallAt p.val (cycleNow s) } } else u))) ∧
  (∀ (p : Fin 16) (r : MReq) (s u : State), (Tab.get [] s.mem.granted p.val).find? (fun r => channelServes s r.addr) = some r →
      levelOk (stallCount p.val s) p.val r = true → endsAtIssue r = false → u = issue p.val r (stallCount p.val s) →
      exec (.regulatorIssue p) s = .next (settle { u with mem := { u.mem with flying := u.mem.flying ++ [r.addr / 128] } })) ∧
  (∀ (l : BitVec 41) (ecc : List (Nat × Ecc)) (r : MReq) (rest : List MReq) (s : State), Tab.get [] s.mem.busy l.toNat = r :: rest →
      s.mem.flying.contains l.toNat = true → r.kind ≤ 1 → onTurn s (l.toNat * 128) [] = true →
      exec (.lineFillDone l ecc) s = .next (settle (
        let u := failedAnswer r.addr (eccLine l.toNat ecc (takeTurn (l.toNat * 128) s))
        let x := lineAccess r.req (r.kind == 1) r.addr r.len r.data r.hint r.uses u
        release l.toNat (answer r x.1 x.2.1 x.2.2)))) ∧
  (∀ (l : BitVec 41) (ecc : List (Nat × Ecc)) (r : MReq) (rest : List MReq) (s : State), Tab.get [] s.mem.busy l.toNat = r :: rest →
      s.mem.flying.contains l.toNat = true → 3 ≤ r.kind → onTurn s (l.toNat * 128) [] = true →
      exec (.lineFillDone l ecc) s = .next (settle (
        let u := failedAnswer r.addr (eccLine l.toNat ecc (takeTurn (l.toNat * 128) s))
        let v := allocLine l.toNat ⟨tierLine u l.toNat, tierPoisonMask u l.toNat, false, true, 0, 0, 0, false⟩ u
        release l.toNat (grant r (v.bump memCacheMissesCount 1))))) ∧
  (∀ (l : BitVec 41) (ecc : List (Nat × Ecc)) (r : MReq) (rest : List MReq) (s : State), Tab.get [] s.mem.busy l.toNat = r :: rest →
      s.mem.flying.contains l.toNat = true → r.kind = 2 → onTurn s (l.toNat * 128) [] = true →
      exec (.adderComplete l ecc) s = .next (settle (
        let u := failedAnswer r.addr (eccLine l.toNat ecc (takeTurn (l.toNat * 128) s))
        let x := adderDo r.fmt r.addr (leNat (r.data.take r.len)) u
        release l.toNat (answer r (if r.fetch then leBytes r.len x.1 else []) x.2.1 x.2.2)))) ∧
  (∀ (p : Fin 16) (c : BitVec 32) (s u : State), u = clearRefused p.val c.toNat s → u.flag (memPartCfgEnable p.val) = false →
      u.flag (memPartCfgDraining p.val) = false →
      (enableCause (writeTierMode p.val c.toNat u) p.val (bits c.toNat 3 1) = 0 →
        exec (.partitionEnable p c) s = .next (settle (enablePart p.val (writeArb p.val c.toNat (writeTierMode p.val c.toNat u))))) ∧
      ∀ k, enableCause (writeTierMode p.val c.toNat u) p.val (bits c.toNat 3 1) = k + 1 →
        exec (.partitionEnable p c) s =
          .next (settle (partRefuse p.val (k + 1) (writeArb p.val c.toNat (writeTierMode p.val c.toNat u))))) ∧
  (∀ (p : Fin 16) (c : BitVec 32) (s u : State), u = writeArb p.val c.toNat (writeTierMode p.val c.toNat (clearRefused p.val c.toNat s)) →
      u.flag (memPartCfgEnable p.val) = true →
      exec (.partitionDisable p c) s = .next (settle (
        let v := (u.set (memPartCfgEnable p.val) 0).set (memPartCfgDraining p.val) 1
        (v.set memStatusEnabled (clearBits (v.get memStatusEnabled) (2 ^ p.val))).set memStatusFlushing 1))) ∧
  (∀ (p : Fin 16) (s u : State), s.flag (memPartCfgDraining p.val) = true → partBusy s p.val = false →
      rlgUses s p.val = false →
      u = (State.each ((Tab.keys s.mem.lines).filter (fun l => inPart s p.val (l * 128))) evictLine s).set (memPartCfgDraining p.val) 0 →
      exec (.flushDone p) s = .next (settle (raise memEvtFlushDone
        (if (List.range 16).any (fun q => u.flag (memPartCfgDraining q)) then u else u.set memStatusFlushing 0)))) ∧
  (∀ (p : Fin 16) (v : BitVec 32) (s : State),
      exec (.regulatorWrite p false v) s = .next (settle (refill p.val ((settleBucket p.val s).set (memPartRateRate p.val) v.toNat))) ∧
      exec (.regulatorWrite p true v) s =
        .next (settle (refill p.val ((settleBucket p.val s).set (memPartBurstKib p.val) (max (bits v.toNat 0 16) 1))))) ∧
  (∀ (v : BitVec 64) (s u : State), u = ((s.set mmuInvalAsid (bits v.toNat 0 16)).set mmuInvalScope (bits v.toNat 16 2)).set
        mmuInvalVa (bits v.toNat 32 32) → bitOf v.toNat 18 = true → bits v.toNat 16 2 = 2 →
      exec (.mmuInval v) s = .next (settle ((tlbDrop (fun _ => true) u).set mmuInvalDone 1)))

/-- Scrubbing, remapping, its log and the channel tests complete (R220, R223, R224, R225, R227, R235). A scrub read, the end
of a soft remap, a remap request with GO, the append and the compaction of the remap log, and the stop and end of a
channel test each answer the next state their rules give. -/
def Obligations.MemoryCareCompletes : Prop :=
  (∀ (c : Fin 288) (e : Ecc) (s v : State) (g a u : Nat), s.flag (tierFld c.val hbmCtlScrubEn dtcCtlScrubEn) = true →
      scrubStopped s c.val = false → chanWaits s c.val = false → g = Tab.get 0 s.care.scrub c.val → a = granuleAddr s c.val g →
      u = (if c.val < 256 then g / 16 % 16 * 65536 + g / 256 else g / 1024) →
      v = startDue (setLatent a .clean (eccOutcome c.val u a (foundAt s [(a, e)] a) s)) →
      exec (.scrubRead c e) s = .next (settle (
        let g' := (g + 1) % chanGranules c.val
        let w := { v with care := { v.care with scrub := Tab.set 0 v.care.scrub c.val g' } }
        if g' = 0 then scrubPass c.val w else w))) ∧
  (∀ (c : Fin 288) (r : Remap) (s : State), s.care.active.find? (fun r => r.chan == c.val) = some r →
      exec (.softRemapDone c) s = .next (settle (softRemapEnd r s))) ∧
  (∀ (v : BitVec 32) (s u : State), u = (s.set dtcRemapReqBlock (bits v.toNat 0 19)).set dtcRemapReqChannel (bits v.toNat 19 5) →
      bitOf v.toNat 24 = true →
      exec (.remapReq none v) s = .next (settle (softRemapStart (256 + bits v.toNat 19 5) (bits v.toNat 0 19)
        (trackCount u (256 + bits v.toNat 19 5) (bits v.toNat 0 19)) 3 u))) ∧
  (∀ (st : Fin 8) (v : BitVec 32) (s u : State) (c w : Nat), u = ((s.set (hbmRemapReqRow st) (bits v.toNat 0 16)).set
        (hbmRemapReqPc st) (bits v.toNat 16 5)).set (hbmRemapReqBank st) (bits v.toNat 21 4) → bitOf v.toNat 25 = true →
      c = st.val * 32 + bits v.toNat 16 5 → w = bits v.toNat 21 4 * 65536 + bits v.toNat 0 16 →
      exec (.remapReq (some st) v) s = .next (settle (softRemapStart c w (trackCount u c w) 3 u))) ∧
  (∀ (r : Remap) (rest : List Remap) (i : Nat) (s u : State), s.care.unlogged = r :: rest →
      logFreeFrom s (logActive s) 16384 0 = some i → u = { s with care := { s.care with unlogged := rest } } →
      exec .remapLogAppend s = .next (settle (
        let v := flashProgram (logBase + logActive s * logHalf + 32 * i) (logBytes r s.care.logSeq) u
        { v with care := { v.care with logSeq := s.care.logSeq + 1 } }))) ∧
  (∀ s : State, isReady s = true → logFreeFrom s (logActive s) 16384 0 = none →
      exec .logCompaction s = .next (settle (flashErase (logBase + logActive s * logHalf) logHalf
        ((logLive s (logActive s)).zipIdx.foldl
          (fun t p => flashProgram (logBase + (1 - logActive s) * logHalf + 32 * p.2) p.1 t) s)))) ∧
  (∀ (c : Fin 288) (s : State), s.flag (tgCtl c.val).1 = true →
      exec (.tgStop c) s = .next (settle (
        let n := Config.freeValue s.free % ((tgAll s c.val).length + 1)
        raise (tgCtl c.val).2.2.2 ((tgRun c.val ((tgAll s c.val).take n) [] [] { s with free := s.free + 1 }).set (tgCtl c.val).1 0)))) ∧
  (∀ (c : Fin 288) (flips : List (Nat × Nat)) (ecc : List (Nat × Ecc)) (s : State), s.flag (tgCtl c.val).1 = true →
      exec (.tgDone c flips ecc) s = .next (settle (raise (tgCtl c.val).2.1
        ((tgRun c.val (tgAll s c.val) flips ecc s).set (tgCtl c.val).1 0))))

/-- Row-logic commands act in order in the selected banks (R250, R251, R252, R253, R254, R262). The next command of a running
batch acts in every bank its mask selects, as its opcode's row says: bitwise rows written with their poison, the
accumulator cleared, loaded, added to or stored, a chain command with every sender read first. The batch advances, and
ends after its last command. NOP changes no row and no accumulator. -/
def Obligations.RowCommandsComplete : Prop :=
  (∀ (k : Fin 8) (s : State) (b : RlgBatch) (c : List Byte), RowNext k.val s b c → rlOp c = 0x0 →
      exec (.rlgNop k) s = .next (settle (rowAfter k.val b (rowBegin k.val b c [] [] s)))) ∧
  (∀ (k : Fin 8) (ecc : List (Nat × Ecc)) (s : State) (b : RlgBatch) (c : List Byte), RowNext k.val s b c → rlOp c = 0x1 →
      exec (.copy k ecc) s = .next (settle (rowAfter k.val b (State.each (rowBanks k.val b c) (fun x t =>
        rowWrite x.1 x.2 (rlDst c) (rowMap (fun a _ _ => a) (rowBytes t x.1 x.2 (rlA c)) (rowBytes t x.1 x.2 (rlA c)) (rowBytes t x.1 x.2 (rlA c)))
          (Nat.lor (rowPoison t x.1 x.2 (rlA c)) (Nat.lor (rowPoison t x.1 x.2 (rlA c)) (rowPoison t x.1 x.2 (rlA c)))) t)
        (rowBegin k.val b c [rlA c] ecc s))))) ∧
  (∀ (k : Fin 8) (ecc : List (Nat × Ecc)) (s : State) (b : RlgBatch) (c : List Byte), RowNext k.val s b c → rlOp c = 0x2 →
      exec (.not k ecc) s = .next (settle (rowAfter k.val b (State.each (rowBanks k.val b c) (fun x t =>
        rowWrite x.1 x.2 (rlDst c) (rowMap (fun a _ _ => ~~~a) (rowBytes t x.1 x.2 (rlA c)) (rowBytes t x.1 x.2 (rlA c)) (rowBytes t x.1 x.2 (rlA c)))
          (Nat.lor (rowPoison t x.1 x.2 (rlA c)) (Nat.lor (rowPoison t x.1 x.2 (rlA c)) (rowPoison t x.1 x.2 (rlA c)))) t)
        (rowBegin k.val b c [rlA c] ecc s))))) ∧
  (∀ (k : Fin 8) (ecc : List (Nat × Ecc)) (s : State) (b : RlgBatch) (c : List Byte), RowNext k.val s b c → rlOp c = 0x3 →
      exec (.and k ecc) s = .next (settle (rowAfter k.val b (State.each (rowBanks k.val b c) (fun x t =>
        rowWrite x.1 x.2 (rlDst c) (rowMap (fun a b _ => a &&& b) (rowBytes t x.1 x.2 (rlA c)) (rowBytes t x.1 x.2 (rlB c)) (rowBytes t x.1 x.2 (rlB c)))
          (Nat.lor (rowPoison t x.1 x.2 (rlA c)) (Nat.lor (rowPoison t x.1 x.2 (rlB c)) (rowPoison t x.1 x.2 (rlB c)))) t)
        (rowBegin k.val b c [rlA c, rlB c] ecc s))))) ∧
  (∀ (k : Fin 8) (ecc : List (Nat × Ecc)) (s : State) (b : RlgBatch) (c : List Byte), RowNext k.val s b c → rlOp c = 0x4 →
      exec (.or k ecc) s = .next (settle (rowAfter k.val b (State.each (rowBanks k.val b c) (fun x t =>
        rowWrite x.1 x.2 (rlDst c) (rowMap (fun a b _ => a ||| b) (rowBytes t x.1 x.2 (rlA c)) (rowBytes t x.1 x.2 (rlB c)) (rowBytes t x.1 x.2 (rlB c)))
          (Nat.lor (rowPoison t x.1 x.2 (rlA c)) (Nat.lor (rowPoison t x.1 x.2 (rlB c)) (rowPoison t x.1 x.2 (rlB c)))) t)
        (rowBegin k.val b c [rlA c, rlB c] ecc s))))) ∧
  (∀ (k : Fin 8) (ecc : List (Nat × Ecc)) (s : State) (b : RlgBatch) (c : List Byte), RowNext k.val s b c → rlOp c = 0x5 →
      exec (.xor k ecc) s = .next (settle (rowAfter k.val b (State.each (rowBanks k.val b c) (fun x t =>
        rowWrite x.1 x.2 (rlDst c) (rowMap (fun a b _ => a ^^^ b) (rowBytes t x.1 x.2 (rlA c)) (rowBytes t x.1 x.2 (rlB c)) (rowBytes t x.1 x.2 (rlB c)))
          (Nat.lor (rowPoison t x.1 x.2 (rlA c)) (Nat.lor (rowPoison t x.1 x.2 (rlB c)) (rowPoison t x.1 x.2 (rlB c)))) t)
        (rowBegin k.val b c [rlA c, rlB c] ecc s))))) ∧
  (∀ (k : Fin 8) (ecc : List (Nat × Ecc)) (s : State) (b : RlgBatch) (c : List Byte), RowNext k.val s b c → rlOp c = 0x6 →
      exec (.maj k ecc) s = .next (settle (rowAfter k.val b (State.each (rowBanks k.val b c) (fun x t =>
        rowWrite x.1 x.2 (rlDst c) (rowMap (fun a b c => (a &&& b) ||| (a &&& c) ||| (b &&& c)) (rowBytes t x.1 x.2 (rlA c)) (rowBytes t x.1 x.2 (rlB c)) (rowBytes t x.1 x.2 (rlC c)))
          (Nat.lor (rowPoison t x.1 x.2 (rlA c)) (Nat.lor (rowPoison t x.1 x.2 (rlB c)) (rowPoison t x.1 x.2 (rlC c)))) t)
        (rowBegin k.val b c [rlA c, rlB c, rlC c] ecc s))))) ∧
  (∀ (k : Fin 8) (s : State) (b : RlgBatch) (c : List Byte), RowNext k.val s b c → rlOp c = 0x10 →
      exec (.accClear k) s = .next (settle (rowAfter k.val b (State.each (rowBanks k.val b c) (fun x t =>
        accPut x.1 x.2 [] 0 t)
        (rowBegin k.val b c [] [] s))))) ∧
  (∀ (k : Fin 8) (ecc : List (Nat × Ecc)) (s : State) (b : RlgBatch) (c : List Byte), RowNext k.val s b c → rlOp c = 0x11 →
      exec (.accLoad k ecc) s = .next (settle (rowAfter k.val b (State.each (rowBanks k.val b c) (fun x t =>
        accPut x.1 x.2 (rowBytes t x.1 x.2 (rlA c)) (rowPoison t x.1 x.2 (rlA c)) t)
        (rowBegin k.val b c [rlA c] ecc s))))) ∧
  (∀ (k : Fin 8) (ecc : List (Nat × Ecc)) (s : State) (b : RlgBatch) (c : List Byte), RowNext k.val s b c → rlOp c = 0x12 →
      exec (.accAdd k ecc) s = .next (settle (rowAfter k.val b (State.each (rowBanks k.val b c) (fun x t =>
        (accPut x.1 x.2 (rowAdd (rlFmt c) (accBytes t x.1 x.2) (rowBytes t x.1 x.2 (rlA c))).1
          (Nat.lor (accPoison t x.1 x.2) (rowPoison t x.1 x.2 (rlA c))) t).bump rlgPoisonNan
          (rowAdd (rlFmt c) (accBytes t x.1 x.2) (rowBytes t x.1 x.2 (rlA c))).2)
        (rowBegin k.val b c [rlA c] ecc s))))) ∧
  (∀ (k : Fin 8) (s : State) (b : RlgBatch) (c : List Byte), RowNext k.val s b c → rlOp c = 0x13 →
      exec (.accStore k) s = .next (settle (rowAfter k.val b (State.each (rowBanks k.val b c) (fun x t =>
        rowWrite x.1 x.2 (rlDst c) (accBytes t x.1 x.2) (accPoison t x.1 x.2) t)
        (rowBegin k.val b c [] [] s))))) ∧
  (∀ (k : Fin 8) (s : State) (b : RlgBatch) (c : List Byte), RowNext k.val s b c → rlOp c = 0x20 →
      exec (.chainMove k) s = .next (settle (rowAfter k.val b (chain false c (rowBanks k.val b c) (rowBegin k.val b c [] [] s))))) ∧
  (∀ (k : Fin 8) (s : State) (b : RlgBatch) (c : List Byte), RowNext k.val s b c → rlOp c = 0x21 →
      exec (.chainAdd k) s = .next (settle (rowAfter k.val b (chain true c (rowBanks k.val b c) (rowBegin k.val b c [] [] s)))))

/-- Row-logic batches, fences and channel tests start and complete (R261, R264, R265, R231, R232, R233). A batch of a
row-logic slot is checked when its slot starts; a submission is taken or refused; a fence of the register completes at
once when it covers no batch, and the oldest ready fence discards the DEST lines and completes; a refused channel test
sets its refusal and a free one runs. A command that accesses memory is said to complete where the channels its accesses
need serve (Served). -/
def Obligations.RowBatchesComplete : Prop :=
  (∀ (i : Fin 1024) (s t : State) (j : Nat), j = pickSlot s 3 i.val → startable s 3 j = true →
      rlBatch s ((slotOf s j).unit % 8) = none → t = rlAdmit (slotOf s j).unit (slotOf s j).desc (some j) (startSlot j s) → Served s t →
      exec (.rowlogicBatchStart i) s = .next (settle t)) ∧
  (∀ (k : Fin 8) (v : BitVec 64) (s u : State), u = s.set (rlgStackSubmitAddr k.val) (bits v.toNat 0 48) → bitOf v.toNat 63 = true →
      (u.flag tickStatusBankEmpty = true → rlBatch u k.val = none →
        exec (.rlgSubmit k v) s = .next (settle (rlAdmit k.val (bits v.toNat 0 48) none u))) ∧
      (u.flag tickStatusBankEmpty = false → exec (.rlgSubmit k v) s = .next (settle (raise (rlgStackStatSubmitRefused k.val) u)))) ∧
  (∀ s : State, (s.rlg.cover = [] → exec .rlFenceGo s = .next (settle (raise rlgEvtFenceDone (s.set rlgFenceDone 1)))) ∧
      (s.rlg.cover ≠ [] → exec .rlFenceGo s = .next (settle (fencePending
        (s.onRlg (fun r => { r with fences := r.fences ++ [⟨s.rlg.cover.map (fun c => c.id), 0, 0⟩] })))))) ∧
  (∀ (f : RlgFence) (rest : List RlgFence) (s : State), s.rlg.fences = f :: rest → fenceReady s f = true →
      exec .rlFenceComplete s = .next (settle (fenceReport f (fencePending
        ((State.each (rangeLines s (((s.rlg.cover.filter (fun c => f.covers.contains c.id)).flatMap (fun c => c.ranges)).filter
          (fun r => r.2.2))) discardLine s).onRlg
        (fun r => { r with fences := rest, cover := r.cover.filter (fun c => !f.covers.contains c.id) })))))) ∧
  (∀ (c : Fin 288) (v : BitVec 32) (s u : State), u = (((s.set (chanFld c.val hbmTgCtlMode dtcTgCtlMode) (bits v.toNat 6 2)).set
        (chanFld c.val hbmTgCtlOrder dtcTgCtlOrder) (bits v.toNat 8 2)).set (chanFld c.val hbmTgCtlPattern dtcTgCtlPattern)
        (bits v.toNat 10 2)).set (chanFld c.val hbmTgCtlGap dtcTgCtlGap) (bits v.toNat 12 16) →
      u.flag (tgCtl c.val).1 = false → bits v.toNat 6 2 = 0 →
      exec (.tgStart c v) s = .next (settle ({ u with care := { u.care with tgDone := Tab.set 0 u.care.tgDone c.val 0 } }.set (tgCtl c.val).1 1)))

/-- Every instruction of a stream program completes (R279, R280, R281, R283, R287, R290, R292). The next instruction of
a context that runs its batch acts as its opcode's row says: it writes its address register or loop counter, loads,
emits an input or an output tile in the slots it finds, reaches the layer boundary, passes RL_FENCE, or ends the
program, and the PC moves on. A command that accesses memory is said to complete where the channels its accesses need
serve (Served). -/
def Obligations.StreamProgramCompletes : Prop :=
  (∀ (c : Fin 512) (s : State) (w : Nat), InsnReady c.val s w → insnOp w = 0x00 →
      exec (.streamNop c) s = .next (settle (strSync (strNext c.val s)))) ∧
  (∀ (c : Fin 512) (s : State) (w : Nat), InsnReady c.val s w → insnOp w = 0x01 →
      exec (.movi c) s = .next (settle (strSync (strNext c.val (setA c.val (insnD w) (insnSimm w) s))))) ∧
  (∀ (c : Fin 512) (s : State) (w : Nat), InsnReady c.val s w → insnOp w = 0x03 →
      exec (.streamAdd c) s = .next (settle (strSync (strNext c.val (setA c.val (insnD w) (aReg s c.val (insnS w) + aReg s c.val (insnT w)) s))))) ∧
  (∀ (c : Fin 512) (s : State) (w : Nat), InsnReady c.val s w → insnOp w = 0x04 →
      exec (.addi c) s = .next (settle (strSync (strNext c.val (setA c.val (insnD w) (aReg s c.val (insnS w) + insnSimm w) s))))) ∧
  (∀ (c : Fin 512) (s : State) (w : Nat), InsnReady c.val s w → insnOp w = 0x05 →
      exec (.muli c) s = .next (settle (strSync (strNext c.val (setA c.val (insnD w) (aReg s c.val (insnS w) * (insnImm w % 2 ^ 32)) s))))) ∧
  (∀ (c : Fin 512) (s : State) (w : Nat), InsnReady c.val s w → insnOp w = 0x08 →
      exec (.setl c) s = .next (settle (strSync (strNext c.val (setL c.val (insnD w) (insnImm w) s))))) ∧
  (∀ (c : Fin 512) (s : State) (w : Nat), InsnReady c.val s w → insnOp w = 0x09 →
      exec (.setlr c) s = .next (settle (strSync (strNext c.val (setL c.val (insnD w) (aReg s c.val (insnS w)) s))))) ∧
  (∀ (c : Fin 512) (s : State) (w : Nat), InsnReady c.val s w → insnOp w = 0x0a →
      (1 < lReg s c.val (insnD w) → exec (.endl c) s = .next (settle (strSync (strRun c.val (strPc c.val (insnImm w % 64)
        (setL c.val (insnD w) (lReg s c.val (insnD w) - 1) s)))))) ∧
      (lReg s c.val (insnD w) ≤ 1 → exec (.endl c) s = .next (settle (strSync (strNext c.val (setL c.val (insnD w) 0 s)))))) ∧
  (∀ (c : Fin 512) (s t : State) (w va : Nat), InsnReady c.val s w → insnOp w = 0x06 → va = insnAddr s c.val w → va % 8 = 0 →
      (s.ctx c.val).xlate = false → (useRead (64 + c.val) va 8 0 0 s).2.1 = false →
      t = strSync (strNext c.val (setA c.val (insnD w) (leNat (useRead (64 + c.val) va 8 0 0 s).1)
        (useRead (64 + c.val) va 8 0 0 s).2.2.2)) → Served s t →
      exec (.ld64 c) s = .next (settle t)) ∧
  (∀ (c : Fin 512) (s : State) (w : Nat) (p : Nat × Nat), InsnReady c.val s w → insnOp w = 0x10 →
      (s.ctx c.val).inq.length ≤ (s.ctx c.val).depth → insnAddr s c.val w % 256 = 0 → (s.ctx c.val).xlate = false →
      slotsFor s c.val (reservedOnly (s.ctx c.val)) true = some p →
      exec (.emit c) s = .next (settle (strSync (strNext c.val (pushTile c.val (insnAddr s c.val w) p.1 p.2 s))))) ∧
  (∀ (c : Fin 512) (s : State) (w : Nat) (p : Nat × Nat), InsnReady c.val s w → insnOp w = 0x11 → insnAddr s c.val w % 256 = 0 →
      (s.ctx c.val).xlate = false → (s.ctx c.val).outq.length < (s.ctx c.val).wdepth → slotsFor s c.val true false = some p →
      exec (.emitw c) s = .next (settle (strSync (strNext c.val (s.onCtx c.val (fun y =>
        { y with outq := y.outq ++ [⟨insnAddr s c.val w, p.1, [], [], false, cycleNow s⟩] })))))) ∧
  (∀ (c : Fin 512) (s : State) (w : Nat), InsnReady c.val s w → insnOp w = 0x18 →
      ((s.ctx c.val).look = false → exec (.layer c) s = .next (settle (strSync (setStr c.val 3
        (s.onCtx c.val (fun y => { y with wait := 0, since := s.now, traces := 0 })))))) ∧
      ((s.ctx c.val).look = true → exec (.layer c) s = .next (settle (strSync (strNext c.val
        (s.onCtx c.val (fun y => { y with tag := (y.tag + 1) % 65536 }))))))) ∧
  (∀ (c : Fin 512) (s : State) (w : Nat), InsnReady c.val s w → insnOp w = 0x19 → (s.ctx c.val).wait ≠ 4 → s.rlg.cover = [] →
      fenceWaits s 3 c.val = false →
      exec (.rlf c) s = .next (settle (strSync (strNext c.val s)))) ∧
  (∀ (c : Fin 512) (s : State) (w : Nat), InsnReady c.val s w → insnOp w = 0x1f →
      exec (.streamEnd c) s = .next (settle (strSync (strRun c.val (s.onCtx c.val (fun y => { y with ended := true }))))))

/-- Stream batches, tiles, drains, faults and saves complete (R278, R279, R287, R289, R291, R296, R297, R298, R300). A
batch is admitted, a tile is allocated, becomes ready, an output tile is committed, a batch completes, a group drains, a
parked page without a frame becomes NO_FRAME, a context halts, resumes, is saved and restored, a floor is written, and a
wait is traced. A command that accesses memory is said to complete where the channels its accesses need serve (Served).
-/
def Obligations.StreamContextsComplete : Prop :=
  (∀ (i : Fin 1024) (j : Nat) (x : Slot) (u : State × List Byte × List Nat) (s t : State), j = pickSlot s 2 i.val →
      startable s 2 j = true → x = slotOf s j → x.unit < 512 → strFetch x.unit x.desc (startSlot j s) = (u.2.1, false, some u.2.2, u.1) →
      strReason u.1 x.unit x.desc u.2.1 false (some u.2.2) = 0 → t = strAdmit x.unit j x.desc u.2.1 u.2.2 u.1 → Served s t →
      exec (.streamBatchStart i) s = .next (settle t)) ∧
  (∀ (s t : State), (allocOrder s).findSome? (fun c => allocWanted ((sharedWaiters s).head? != some c) c s) = some t →
      exec .tileAllocate s = .next (settle (strSync t))) ∧
  (∀ (c : Fin 512) (i : Nat) (s v : State) (t : InTile), (s.ctx c.val).inq.findIdx? (fun t => t.held && !t.ready) = some i →
      (s.ctx c.val).inq[i]? = some t → t.drop = false → (s.ctx c.val).xlate = false →
      v = (let x := s.ctx c.val
        let r := readLines c.val x.inHint x.uses (tileDeadline s c.val i) (lineAddrs [(x.tileBytes, t.base)]) s
        strSync (r.2.2.2.onCtx c.val (fun y => { y with
          refused := match r.2.2.1 with | some a => some a | none => y.refused
          inq := y.inq.modify i (fun t => { t with ready := true, data := r.1 ++ List.replicate (x.tileBytes - r.1.length) 0xFF, poison := r.2.1 }) }))) →
      Served s v → exec (.tileReady c []) s = .next (settle v)) ∧
  (∀ (c : Fin 512) (s v : State) (t : OutTile), (s.ctx c.val).outq.find? (fun t => t.full) = some t → (s.ctx c.val).xlate = false →
      v = (let r := (lineAddrs [((s.ctx c.val).tileBytes, t.base)]).zipIdx.foldl (fun acc a =>
          let w := usePut (64 + c.val) a.1 ((t.data.drop (128 * a.2)).take 128) (s.ctx c.val).outHint 0 (some (outDeadline (s.ctx c.val) t)) acc.2
          (if w.1 ∧ acc.1.isNone then some a.1 else acc.1, (List.range 4).foldl (fun s k =>
            if t.poison.contains (4 * a.2 + k) then nodePoisonWrite (a.1 + 32 * k) 32 s else s) w.2.2)) ((none : Option Nat), s)
        strSync (r.2.onCtx c.val (fun y => { y with
          outq := y.outq.erase t, refused := match r.1 with | some a => some a | none => y.refused }))) →
      Served s v → exec (.outputTileCommit c) s = .next (settle v)) ∧
  (∀ (c : Fin 512) (s : State), (s.ctx c.val).active = true → (s.ctx c.val).ended = true → (s.ctx c.val).inq = [] → (s.ctx c.val).outq = [] →
      strState s c.val = 1 →
      exec (.streamBatchComplete c) s = .next (settle (strSync (completeSlot (s.ctx c.val).slot
        (raise (strEvtDone c.val) (setStr c.val 0 (s.onCtx c.val (fun y => { y with active := false })))))))) ∧
  (∀ (g : Fin 16) (s : State), membersOf s g.val ≠ [] → (membersOf s g.val).all (arrived s) = true →
      exec (.groupDrain g) s = .next (settle (
        let u := State.each (membersOf s g.val) strNext (s.set (gldGroupStatLayer g.val) (layerOf s g.val + 1))
        strSync (State.each (Tab.keys u.str.ctx) (fun c t =>
          if (t.ctx c).group ≠ g.val ∨ (t.ctx c).active = false then t
          else if (t.ctx c).held = true then t.onCtx c (fun y => { y with held := false })
          else if strState t c = 6 then strRun c t else t) u)))) ∧
  (∀ (c : Fin 512) (s t : State) (level pte va asid ring size e ent : Nat), strState s c.val = 4 → s.get (strFaultKind c.val) = 3 →
      va = s.get (strFaultVaAddr c.val) → asid = (s.ctx c.val).asid →
      pteAddr s va 4 1 (bits (nodeNat s (s.get mmuRootAddr + 8 * asid) 8) 8 40 * 256) = some (level, pte) →
      size = 2 ^ leafBits level → ring = s.get strMigBaseAddr + 8 * (s.get strMigTailIndex % s.get strMigCtlEntries) →
      ent = nodeNat s ring 8 → e = nodeNat s pte 8 → s.get strMigCtlEntries ≠ 0 → s.get strMigTailIndex ≠ s.get strMigHeadIndex →
      bits ent 0 2 = (if level = 3 then 1 else 0) → s.get strMigCtlSize = (if level = 3 then 1 else 0) →
      t = (
        let u := store nodeReq pte (leBytes 8 (e - bits e 8 40 * 256 + bits ent 16 32 * 65536))
          (copyRange nodeReq (bits e 8 40 * 256) (bits ent 16 32 * 65536) size s)
        let u := store nodeReq ring (leBytes 8 (bits ent 0 2 + 4 + bits e 8 40 * 256 / 65536 * 65536))
          (tlbDrop (fun x => x.asid == asid && x.va == va / size * size) u)
        let u := u.set strMigTailIndex (s.get strMigTailIndex + 1)
        strSync (State.each (Tab.keys u.str.ctx) (fun d v =>
          if strState v d = 4 ∧ v.get (strFaultKind d) = 3 ∧ (v.ctx d).asid = asid ∧ v.get (strFaultVaAddr d) / size = va / size then
            strRun d v else v) u)) →
      ∃ x, exec (.pageMigration c) s = .next x ∧ (Served s t → x = settle t)) ∧
  (∀ (c : Fin 512) (s t : State) (p : Nat × Nat), strState s c.val = 4 → s.get (strFaultKind c.val) = 3 →
      pteAddr s (s.get (strFaultVaAddr c.val)) 4 1
        (bits (nodeNat s (s.get mmuRootAddr + 8 * (s.ctx c.val).asid) 8) 8 40 * 256) = some p → s.get strMigCtlEntries = 0 →
      t = fault .stream 5 c.val (s.get (strFaultVaAddr c.val)) 7 none
        (raise (strEvtFault c.val) ((s.set (strFaultKind c.val) 5).set (strEvtFault c.val) 0)) → Served s t →
      exec (.pageMigration c) s = .next (settle t)) ∧
  (∀ (c : Fin 512) (s : State), strState s c.val = 1 →
      exec (.contextHalt c) s = .next (settle (s.onCtx c.val (fun x => { x with halting := true })))) ∧
  (∀ (c : Fin 512) (s : State), (s.ctx c.val).halting = true → (s.ctx c.val).outq = [] →
      exec (.contextHalted c) s = .next (settle (strSync (strHalted c.val s)))) ∧
  (∀ (c : Fin 512) (s : State), (strState s c.val = 4 ∨ strState s c.val = 5) → (s.ctx c.val).desc ≠ [] →
      exec (.streamResume c) s = .next (settle (strSync (strRun c.val (s.onCtx c.val (fun x => { x with active := true })))))) ∧
  (∀ (c : Fin 512) (s : State) (r : List Byte × Bool × Bool × State), strState s c.val = 5 → (s.ctx c.val).desc = [] →
      r = useRead (64 + c.val) (s.ctx c.val).at_ 96 0 0 s → r.2.1 = false → r.2.2.1 = false → leAt r.1 0 4 = 0x53545242 →
      exec (.streamResume c) s = .next (settle (strSync (strRun c.val ((r.2.2.2.onCtx c.val (fun x => { x with
        desc := r.1, past := decide (leAt r.1 24 1 ≤ r.2.2.2.get (strStatPc c.val)), began := cycleNow r.2.2.2 })).onCtx c.val
          (fun x => { x with active := true })))))) ∧
  (∀ (c : Fin 512) (s u : State), strState s c.val = 5 → u = strSync (dropTiles c.val s) →
      exec (.contextSave c) s = .next (settle (raise (strEvtSaveDone c.val)
        (useWrite (64 + c.val) (u.get (strSaveAddrAddr c.val)) (saveRecord u c.val) 0 0 u).2))) ∧
  (∀ (c : Fin 512) (s : State) (r : List Byte × Bool × Bool × State), strState s c.val = 0 →
      r = useRead (64 + c.val) (s.get (strSaveAddrAddr c.val)) 192 0 0 s → r.2.1 = false → r.2.2.1 = false →
      leAt r.1 0 4 = 0x53544358 →
      exec (.contextRestore c) s = .next (settle (
        let u := r.2.2.2.onCtx c.val (fun _ => { ctxEmpty with
          at_ := leAt r.1 112 8, tileNow := leAt r.1 12 4
          l := (List.range 4).foldl (fun m i => Tab.set 0 m i (leAt r.1 (16 + 4 * i) 4)) []
          a := (List.range 8).foldl (fun m i => Tab.set 0 m i (leAt r.1 (32 + 8 * i) 8)) []
          inq := (List.range (min (leAt r.1 6 1) 9)).map (fun i => ⟨leAt r.1 (120 + 8 * i) 8, 0, 0, 0, 0, false, [], [], false⟩) })
        strSync (setStr c.val 5 ((((u.set (strStatPc c.val) (leAt r.1 4 1)).set (strConsumedCount c.val) (leAt r.1 12 4)).set
          (strFaultVaAddr c.val) (leAt r.1 96 8)).set (strFaultKind c.val) (leAt r.1 104 1)))))) ∧
  (∀ (c : Fin 512) (v : BitVec 32) (s u : State), u = (if bitOf v.toNat 31 then s.set (strFloorRefused c.val) 0 else s) →
      (strState u c.val = 0 → u.get gldStatusFloorSum + bits v.toNat 0 13 - u.get (strFloorFloor c.val) ≤ 4096 →
        bits v.toNat 16 13 ≤ 4096 →
        exec (.floorWrite c v) s = .next (settle (strSync (((u.set (strFloorFloor c.val) (bits v.toNat 0 13)).set
          (strFloorShareMax c.val) (bits v.toNat 16 13)).set gldStatusFloorSum
          (u.get gldStatusFloorSum + bits v.toNat 0 13 - u.get (strFloorFloor c.val)))))) ∧
      (strState u c.val ≠ 0 → exec (.floorWrite c v) s = .next (settle (raise (strFloorRefused c.val) u)))) ∧
  (∀ (c : Fin 512) (s u : State) (cyc : List Nat), strWaits s c.val = true →
      u = (s.reach ((s.ctx c.val).since + ((s.ctx c.val).traces + 1) *
        (if s.get gldCtlWatch = 0 then s.get tickPeriodCycles * 2 / 100 else s.get gldCtlWatch) * 625)).onCtx c.val
          (fun y => { y with traces := y.traces + 1 }) → cyc = cycleOf [] (chainFrom u 513 c.val) →
      (cyc = [] → exec (.waitforTrace c) s = .next (settle u)) ∧
      (∀ (v : Nat) (ms : List Nat) (w x : State), v ∈ cyc → surplus u v ≠ 0 → (∀ m ∈ cyc, surplus u m ≠ 0 → m ≤ v) →
        ms = sortBy (fun a b => decide (a ≤ b))
          (cyc.filter (fun m => m != v && u.flag (strWaitforValid m) && u.get (strWaitforCtx m) == v)) →
        w = raise gldEvtDeadlock (raise (strEvtVictim v) (((((discardSurplus v u).onCtx v (fun y => { y with heirs := ms })).bump
          gldDeadlocksCount 1).set gldLastVictim v).set gldLastLength cyc.length)) →
        x = State.each ms (fun m t => (allocWanted false m t).getD t) w →
        exec (.waitforTrace c) s = .next (settle (strSync (x.onCtx v (fun y =>
          { y with heirs := if y.inq.any (fun t => t.drop) then y.heirs else [] }))))) ∧
      (cyc ≠ [] → (∀ v ∈ cyc, surplus u v = 0) →
        exec (.waitforTrace c) s = .next (settle (fault .plan 4 ((s.ctx c.val).slot % 1024) cyc.length 0 none
          (State.each cyc (fun m t => raise (strEvtStall m) t) (raise gldEvtStall u))))))

/-- Lane arithmetic of rule programs completes (R319, R323, R324, R325, R326). The next instruction of an engine in COMPUTE,
when it is a lane operation on registers or constants, is issued for the four beats in turn, writes D in the lanes as its
opcode's row says, and the program goes on. -/
def Obligations.RuleArithmeticCompletes : Prop :=
  (∀ (e : Fin 64) (s : State) (w : Nat), RuleReady e.val s w → ruleOp w = 0x00 →
      exec (.ruleNop e) s = .next (settle (ruleIssue e.val w (fun b t =>
        t) s))) ∧
  (∀ (e : Fin 64) (s : State) (w : Nat), RuleReady e.val s w → ruleOp w = 0x01 →
      exec (.vadd e) s = .next (settle (ruleIssue e.val w (fun b t =>
        setV e.val b (ruleD w) (lanes2 f32Add (operand t e.val b w 1) (operand t e.val b w 2)) t) s))) ∧
  (∀ (e : Fin 64) (s : State) (w : Nat), RuleReady e.val s w → ruleOp w = 0x02 →
      exec (.vsub e) s = .next (settle (ruleIssue e.val w (fun b t =>
        setV e.val b (ruleD w) (lanes2 (fun a b => f32 ((ofF32 a).sub (ofF32 b))) (operand t e.val b w 1) (operand t e.val b w 2)) t) s))) ∧
  (∀ (e : Fin 64) (s : State) (w : Nat), RuleReady e.val s w → ruleOp w = 0x03 →
      exec (.vmul e) s = .next (settle (ruleIssue e.val w (fun b t =>
        setV e.val b (ruleD w) (lanes2 f32Mul (operand t e.val b w 1) (operand t e.val b w 2)) t) s))) ∧
  (∀ (e : Fin 64) (s : State) (w : Nat), RuleReady e.val s w → ruleOp w = 0x04 →
      exec (.vfma e) s = .next (settle (ruleIssue e.val w (fun b t =>
        setV e.val b (ruleD w) (lanes3 f32Fma (operand t e.val b w 1) (operand t e.val b w 2) (operand t e.val b w 3)) t) s))) ∧
  (∀ (e : Fin 64) (s : State) (w : Nat), RuleReady e.val s w → ruleOp w = 0x05 →
      exec (.vfnma e) s = .next (settle (ruleIssue e.val w (fun b t =>
        setV e.val b (ruleD w) (lanes3 (fun a b c => f32 ((ofF32 c).sub ((ofF32 a).mul (ofF32 b)))) (operand t e.val b w 1) (operand t e.val b w 2) (operand t e.val b w 3)) t) s))) ∧
  (∀ (e : Fin 64) (s : State) (w : Nat), RuleReady e.val s w → ruleOp w = 0x06 →
      exec (.vmax e) s = .next (settle (ruleIssue e.val w (fun b t =>
        setV e.val b (ruleD w) (lanes2 f32Max (operand t e.val b w 1) (operand t e.val b w 2)) t) s))) ∧
  (∀ (e : Fin 64) (s : State) (w : Nat), RuleReady e.val s w → ruleOp w = 0x07 →
      exec (.vmin e) s = .next (settle (ruleIssue e.val w (fun b t =>
        setV e.val b (ruleD w) (lanes2 f32Min (operand t e.val b w 1) (operand t e.val b w 2)) t) s))) ∧
  (∀ (e : Fin 64) (s : State) (w : Nat), RuleReady e.val s w → ruleOp w = 0x08 →
      exec (.vabs e) s = .next (settle (ruleIssue e.val w (fun b t =>
        setV e.val b (ruleD w) (lanes1 (fun a => f32 (ofF32 a).abs) (operand t e.val b w 1)) t) s))) ∧
  (∀ (e : Fin 64) (s : State) (w : Nat), RuleReady e.val s w → ruleOp w = 0x09 →
      exec (.vneg e) s = .next (settle (ruleIssue e.val w (fun b t =>
        setV e.val b (ruleD w) (lanes1 (fun a => f32 (ofF32 a).neg) (operand t e.val b w 1)) t) s))) ∧
  (∀ (e : Fin 64) (s : State) (w : Nat), RuleReady e.val s w → ruleOp w = 0x0a →
      exec (.vsign e) s = .next (settle (ruleIssue e.val w (fun b t =>
        setV e.val b (ruleD w) (lanes1 f32Sign (operand t e.val b w 1)) t) s))) ∧
  (∀ (e : Fin 64) (s : State) (w : Nat), RuleReady e.val s w → ruleOp w = 0x0b →
      exec (.vsel e) s = .next (settle (ruleIssue e.val w (fun b t =>
        setV e.val b (ruleD w) (((operand t e.val b w 1).zip ((operand t e.val b w 2).zip (operand t e.val b w 3))).map (fun p =>
          lane (laneBits (if laneBits p.2.2 ≠ 0 then p.1 else p.2.1))
            (lanePoison (if laneBits p.2.2 ≠ 0 then p.1 else p.2.1) || lanePoison p.2.2))) t) s))) ∧
  (∀ (e : Fin 64) (s : State) (w : Nat), RuleReady e.val s w → ruleOp w = 0x0c →
      exec (.vcmplt e) s = .next (settle (ruleIssue e.val w (fun b t =>
        setV e.val b (ruleD w) (lanes2 (fun a b => if (ofF32 a).lt (ofF32 b) then 0xFFFFFFFF else 0) (operand t e.val b w 1) (operand t e.val b w 2)) t) s))) ∧
  (∀ (e : Fin 64) (s : State) (w : Nat), RuleReady e.val s w → ruleOp w = 0x10 →
      exec (.vrcp e) s = .next (settle (ruleIssue e.val w (fun b t =>
        setV e.val b (ruleD w) (lanes1 (fun a => f32 (fpOne.div (ofF32 a))) (operand t e.val b w 1)) t) s))) ∧
  (∀ (e : Fin 64) (s : State) (w : Nat), RuleReady e.val s w → ruleOp w = 0x11 →
      exec (.vsqrt e) s = .next (settle (ruleIssue e.val w (fun b t =>
        setV e.val b (ruleD w) (lanes1 (fun a => f32 (ofF32 a).sqrt) (operand t e.val b w 1)) t) s))) ∧
  (∀ (e : Fin 64) (s : State) (w : Nat), RuleReady e.val s w → ruleOp w = 0x12 →
      exec (.vrsqrt e) s = .next (settle (ruleIssue e.val w (fun b t =>
        setV e.val b (ruleD w) (lanes1 (fun a => f32 (fpOne.div (ofF32 a).sqrt)) (operand t e.val b w 1)) t) s))) ∧
  (∀ (e : Fin 64) (s : State) (w : Nat), RuleReady e.val s w → ruleOp w = 0x13 →
      exec (.vdiv e) s = .next (settle (ruleIssue e.val w (fun b t =>
        setV e.val b (ruleD w) (lanes2 (fun a b => f32 ((ofF32 a).div (ofF32 b))) (operand t e.val b w 1) (operand t e.val b w 2)) t) s)))

/-- Masters, rounding, arrays, status and END of rule programs complete (R319, R325, R327, R328, R330, R331, R332,
R440). The next instruction of an engine in COMPUTE, when it draws a value, works on an EM48 pair, rounds to BF16,
accesses an L1 array or reads the window status, is issued for the four beats in turn; END sends the engine to FETCH
with outputs to write, and the last quad of a batch with FENCE issues the engine's fence. A command that accesses memory
is said to complete where the channels its accesses need serve (Served). -/
def Obligations.RuleMastersComplete : Prop :=
  (∀ (e : Fin 64) (s : State) (w : Nat), RuleReady e.val s w → ruleOp w = 0x18 →
      exec (.vrnd e) s = .next (settle (ruleIssue e.val w (fun b t =>
        vrndBeat e.val w b t) s))) ∧
  (∀ (e : Fin 64) (s : State) (w : Nat), RuleReady e.val s w → ruleOp w = 0x20 →
      exec (.emset e) s = .next (settle (ruleIssue e.val w (fun b t =>
        setV e.val b (ruleD w + 1) ((operand t e.val b w 1).map (fun x => lane 0 (lanePoison x)))
          (setV e.val b (ruleD w) (operand t e.val b w 1) t)) s))) ∧
  (∀ (e : Fin 64) (s : State) (w : Nat), RuleReady e.val s w → ruleOp w = 0x21 →
      exec (.emadd e) s = .next (settle (ruleIssue e.val w (fun b t =>
        emPut e.val b (ruleD w) (fun p l => p.add ((ofF32 (laneBits ((operand t e.val b w 2).getD l 0))).mul
          (ofF32 (laneBits ((operand t e.val b w 3).getD l 0)))))
          (fun l => lanePoison ((operand t e.val b w 2).getD l 0) || lanePoison ((operand t e.val b w 3).getD l 0)) t) s))) ∧
  (∀ (e : Fin 64) (s : State) (w : Nat), RuleReady e.val s w → ruleOp w = 0x22 →
      exec (.emupd e) s = .next (settle (ruleIssue e.val w (fun b t =>
        emPut e.val b (ruleD w) (fun p l => (p.mul (ofF32 (laneBits ((operand t e.val b w 1).getD l 0)))).add
          ((ofF32 (laneBits ((operand t e.val b w 2).getD l 0))).mul (ofF32 (laneBits ((operand t e.val b w 3).getD l 0)))))
          (fun l => lanePoison ((operand t e.val b w 1).getD l 0) || lanePoison ((operand t e.val b w 2).getD l 0) ||
            lanePoison ((operand t e.val b w 3).getD l 0)) t) s))) ∧
  (∀ (e : Fin 64) (s : State) (w : Nat), RuleReady e.val s w → ruleOp w = 0x23 →
      exec (.emrnd e) s = .next (settle (ruleIssue e.val w (fun b t =>
        setV e.val b (ruleD w) (lanes2 emRound (vreg t e.val b (ruleA w)) (vreg t e.val b (ruleA w + 1))) t) s))) ∧
  (∀ (e : Fin 64) (s : State) (w : Nat), RuleReady e.val s w → ruleOp w = 0x24 →
      exec (.srbf e) s = .next (settle (ruleIssue e.val w (fun b t =>
        setV e.val b (ruleD w) ((List.range 64).map (fun l =>
          lane (srbf (laneBits ((vreg t e.val b (ruleA w)).getD l 0)) (laneBits ((vreg t e.val b (ruleA w + 1)).getD l 0))
            (gWord (t.eng e.val).key (leAt (t.eng e.val).desc 152 4) ((t.eng e.val).counter (elemOf t e.val b l))))
          (lanePoison ((vreg t e.val b (ruleA w)).getD l 0) || lanePoison ((vreg t e.val b (ruleA w + 1)).getD l 0)))) t) s))) ∧
  (∀ (e : Fin 64) (s : State) (w : Nat), RuleReady e.val s w → ruleOp w = 0x25 →
      exec (.rnbf e) s = .next (settle (ruleIssue e.val w (fun b t =>
        setV e.val b (ruleD w) (lanes1 (fun a => fmtBf16.encode (ofF32 a) * 2 ^ 16) (operand t e.val b w 1)) t) s))) ∧
  (∀ (e : Fin 64) (s t : State) (w : Nat), RuleReady e.val s w → ruleOp w = 0x28 →
      t = ruleIssue e.val w (fun b t => vldBeat e.val w b t) s → Served s t → exec (.vld e) s = .next (settle t)) ∧
  (∀ (e : Fin 64) (s t : State) (w : Nat), RuleReady e.val s w → ruleOp w = 0x29 →
      t = ruleIssue e.val w (fun b t => vstBeat e.val w b t) s → Served s t → exec (.vst e) s = .next (settle t)) ∧
  (∀ (e : Fin 64) (s t : State) (w : Nat), RuleReady e.val s w → ruleOp w = 0x2a →
      t = ruleIssue e.val w (fun b t => vaccBeat e.val w b t) s → Served s t → exec (.vacc e) s = .next (settle t)) ∧
  (∀ (e : Fin 64) (s t : State) (w : Nat), RuleReady e.val s w → ruleOp w = 0x2b →
      t = ruleIssue e.val w (fun b t => vrsumBeat e.val w b t) s → Served s t → exec (.vrsum e) s = .next (settle t)) ∧
  (∀ (e : Fin 64) (s : State) (w : Nat), RuleReady e.val s w → ruleOp w = 0x30 →
      exec (.qstat e) s = .next (settle (ruleIssue e.val w (fun b t =>
        setV e.val b (ruleD w) ((List.range 64).map (fun l =>
          if Nat.land (ruleK w) ((t.eng e.val).wstat % 16) ≠ 0 ∨ (bitOf (ruleK w) 4 ∧ bitOf (t.eng e.val).mark (64 * b + l))
          then 0xFFFFFFFF else 0)) t) s))) ∧
  (∀ (e : Fin 64) (s u : State) (w : Nat), RuleReady e.val s w → ruleOp w = 0x3f →
      u = (setEng e.val 2 s).onEng e.val (fun x => { x with pend := true }) →
      exec (.ruleEnd e) s = .next (settle (if (s.eng e.val).flag 2 ∧ u.get (upeQuadsCount e.val) + 1 = (s.eng e.val).quads then
        { u with coh := { u.coh with batchFence := Nat.lor u.coh.batchFence (2 ^ e.val) } } else u)))

/-- Engine batches, FETCH, halts, saves and derive passes complete (R314, R316, R318, R329, R334, R335, R336, R337). An
engine batch is checked when its slot starts; a submission is taken or refused; a FETCH with every port ready writes and
reads a quad; a batch without FENCE completes; an engine halts, is saved and restored; a rule-store write is taken or
dropped; a due derive pass runs. A command that accesses memory is said to complete where the channels its accesses need
serve (Served). -/
def Obligations.EnginesComplete : Prop :=
  (∀ (i : Fin 1024) (s u t : State) (j : Nat) (x : Slot), j = pickSlot s 1 i.val → startable s 1 j = true → x = slotOf s j →
      x.unit < 64 → (s.eng x.unit).active = false → borrowed s x.unit = false → u = startSlot j s →
      t = engAdmit x.unit x.desc (some j) (if clusterShares s j then u.reach (u.tick.edge + (x.start + x.unit % 8 * 8) * 625) else u) →
      Served s t → exec (.engineBatchStart i) s = .next (settle t)) ∧
  (∀ (e : Fin 64) (v : BitVec 64) (s u : State), u = s.set (upeSubmitAddr e.val) (bits v.toNat 0 48) → bitOf v.toNat 63 = true →
      borrowed u e.val = false →
      (engState u e.val = 0 → exec (.engineSubmit e v) s = .next (settle (engAdmit e.val (bits v.toNat 0 48) none u))) ∧
      (engState u e.val ≠ 0 → exec (.engineSubmit e v) s = .next (settle (raise (upeEvtSubmitRefused e.val) u)))) ∧
  (∀ (e : Fin 64) (s u t : State), (s.eng e.val).active = true → engState s e.val = 2 → bitOf s.coh.fenceEngines e.val = false →
      (s.eng e.val).pend = true → (s.eng e.val).halting = false → s.get (upeQuadsCount e.val) + 1 < (s.eng e.val).quads →
      unready s e.val true = none →
      u = setEng e.val 2 (s.bump (upeFetchCycCount e.val) (fetchCycles (fetchBytes s e.val true true))) →
      t = strSync (noStall e.val (readQuad e.val (writeQuad e.val u))) → Served s t →
      exec (.engineFetch e) s = .next (settle t)) ∧
  (∀ (e : Fin 64) (s u : State), (s.eng e.val).active = true → engState s e.val = 2 → (s.eng e.val).pend = false →
      s.get (upeQuadsCount e.val) = (s.eng e.val).quads → (s.eng e.val).flag 2 = false → (s.eng e.val).flag 1 = false →
      ((s.eng e.val).halting = false ∨ s.rst.kind ≠ 5) →
      u = raise (upeEvtDone e.val) (setEng e.val 0 (s.onEng e.val (fun y => { y with active := false, halting := false }))) →
      exec (.engineBatchComplete e) s = .next (settle (kvBorrow (strSync (noStall e.val
        (if (s.eng e.val).submitted then u else completeSlot (s.eng e.val).slot u)))))) ∧
  (∀ (e : Fin 64) (s : State), (s.eng e.val).active = true → engState s e.val = 3 →
      exec (.engineHalt e) s = .next (settle (s.onEng e.val (fun x => { x with halting := true })))) ∧
  (∀ (e : Fin 64) (s : State), engState s e.val = 5 →
      exec (.engineSave e) s = .next (settle (raise (upeEvtSaveDone e.val)
        (useWrite e.val (s.get (upeSaveAddrAddr e.val)) (engRecord s e.val) 0 0 s).2))) ∧
  (∀ (e : Fin 64) (s : State) (r : List Byte × Bool × Bool × State), engState s e.val = 0 →
      r = useRead e.val (s.get (upeSaveAddrAddr e.val)) 17472 0 0 s → r.2.1 = false → r.2.2.1 = false →
      leAt r.1 0 4 = 0x55504358 →
      exec (.engineRestore e) s = .next (settle (
        let u := r.2.2.2.onEng e.val (fun x => { x with
          entry := bits (leAt r.1 4 2) 0 10, len := bits (leAt r.1 6 2) 0 11, at_ := leAt r.1 8 8, step := leAt r.1 24 4
          seeded := true
          gen := (List.range 64).foldl (fun t l => Tab.set (0, 0) t l (leAt r.1 (64 + 16 * l) 8, leAt r.1 (72 + 16 * l) 8)) [] })
        setEng e.val 5 (((List.range 64).foldl (fun t i =>
          setV e.val (i / 16) (i % 16) ((List.range 64).map (fun l => leAt r.1 (1088 + 256 * i + 4 * l) 4)) t) u).set
            (upeQuadsCount e.val) (leAt r.1 16 8))))) ∧
  (∀ (e : Fin 64) (i : Fin 1024) (v : BitVec 32) (s : State),
      (ruleHeld s e.val i.val = false → exec (.ruleStoreWrite e i v) s = .next (settle (s.set (upeRuleInsn e.val i.val) v.toNat))) ∧
      (ruleHeld s e.val i.val = true → exec (.ruleStoreWrite e i v) s = .next (settle (raise (upeEvtRuleDrop e.val) s)))) ∧
  (∀ (e : Fin 64) (s u t : State) (r : DeriveRec), deriveDue s e.val = some r → (s.eng e.val).active = false →
      waitingRepeats s ≠ [] → u = raise (upeEvtDerive e.val) (deriveRun e.val r s) →
      t = (if (List.range 64).any (fun k => (deriveDue u k).isSome) then u else resumeRepeats (waitingRepeats s) u) →
      Served s t → exec (.derivePass e) s = .next (settle t))

/-- Matrix jobs, the noise source and lane seeding complete (R350, R351, R355, R356, R403, R404, R405, R413). A matrix
slot and a submission take their job when the array is idle; a pass and the end of a job advance it; a seed word is
read; a retest, the end of the start-up test, a block of samples, a seeding command and its end act as their rules say.
A command that accesses memory is said to complete where the channels its accesses need serve (Served). -/
def Obligations.MatrixAndRandomComplete : Prop :=
  (∀ (i : Fin 1024) (s t : State) (j : Nat), j = pickSlot s 4 i.val → startable s 4 j = true → s.mxa = none →
      (slotOf s j).unit = 0 → t = mxaAdmit 0 (slotOf s j).desc (some j) (startSlot j s) → Served s t →
      exec (.matrixJobStart i) s = .next (settle t)) ∧
  (∀ (v : BitVec 64) (s u : State), u = s.set mxaSubmitAddr (bits v.toNat 0 48) → bitOf v.toNat 63 = true →
      (u.flag tickStatusBankEmpty = true → u.mxa = none →
        exec (.mxaSubmit v) s = .next (settle (mxaAdmit 2 (bits v.toNat 0 48) none u))) ∧
      (u.flag tickStatusBankEmpty = false → exec (.mxaSubmit v) s = .next (settle (raise mxaEvtSubmitRefused u)))) ∧
  (∀ (s a w x t : State) (j : MxaJob) (k : PassAt) (acc : List (List Nat)) (ws as_ : List (List (Nat × Bool))), s.mxa = some j →
      j.pass < mxaTotal j.desc → k = passAt j.desc j.pass → (acc, a) = (if k.first then mxaStart j.desc k s else (j.acc, s)) →
      (ws, w) = mxaWeights j.desc k a →
      (as_, x) = mxaLoads ((List.range k.rows).map (fun m => addrA j.desc k.item (k.m0 + m) k.k0)) k.ks (mxaSize (mxaA j.desc))
        (mxaHint j.desc 0) (mxaUses j.desc) w →
      t = (
        let acc := mxaSum j.desc k as_ ws acc
        let u := if k.last then mxaWrite j.desc k acc x else x
        (({ u with mxa := some { j with pass := j.pass + 1, acc := if k.last then [] else acc } } : State).set mxaProgressPasses
          (j.pass + 1)).bump mxaMacsCount (k.rows * k.cols * k.ks)) →
      Served s t → exec .matrixPass s = .next (settle t)) ∧
  (∀ (s : State) (j : MxaJob), s.mxa = some j → mxaTotal j.desc ≤ j.pass →
      exec .matrixJobComplete s = .next (settle (
        let u := raise mxaEvtDone (((({ s with mxa := none } : State).set mxaStatusBusy 0).bump mxaJobsCount 1).bump mxaBusyCycCount
          ((s.now - j.since) / 1000))
        if j.source = 0 then completeSlot j.slot u else u))) ∧
  (∀ (s : State), (∀ w ws, s.flag rngStatusReady = true → s.rng.words = w :: ws →
        exec .rngSeedRead s = .next (settle (((s.onRng (fun g => { g with words := ws })).set rngStatusSeedValid 1).emit (.value w)))) ∧
      (s.rng.words = [] → exec .rngSeedRead s = .next (settle ((s.set rngStatusSeedValid 0).emit (.value 0))))) ∧
  (∀ s : State, s.flag rngCtlSourceEn = true → exec .retest s = .next (settle (sourceTest s))) ∧
  (∀ (l : List (Fin 16)) (s u : State), s.rng.testing = true → l.length = 1024 → healthAll (l.map (fun x => x.val)) s = (false, u) →
      exec (.startupTestDone l) s = .next (settle ((((u.onRng (fun g => { g with testing := false })).set rngStatusReady 1).set
        rngStatusFailed 0).onRng (fun g => { g with fails := 0 })))) ∧
  (∀ (l : List (Fin 16)) (s u : State), s.flag rngCtlSourceEn = true → s.flag rngStatusReady = true → s.rng.testing = false →
      l.length = 256 → healthAll (l.map (fun x => x.val)) s = (false, u) →
      exec (.noiseBlock l) s = .next (settle (seedFeed 8 (u.onRng (fun g => { g with
        fails := 0, words := (g.words ++ blockWords (l.map (fun x => x.val))).take 8 }))))) ∧
  (∀ (v : BitVec 32) (s u : State), s.flag rngStatusSeeding = false → bitOf v.toNat 0 = true → bitOf v.toNat 1 = false →
      u = (s.set rngLfsrCmdMode 0).set rngStatusSeeding 1 →
      exec (.lfsrSeed v) s = .next (settle (State.each
        ((enginesOf (s.get rngLfsrMaskEngines)).filter (fun e => engState s e == 0 || engState s e == 5)) seedKeyed
        (u.set rngSkippedEngines (((enginesOf (s.get rngLfsrMaskEngines)).filter (fun e =>
          !(engState s e == 0 || engState s e == 5))).map (fun e => 2 ^ e)).sum)))) ∧
  (∀ s : State, s.flag rngStatusSeeding = true → s.rng.lanes = [] →
      exec .seedDone s = .next (settle (raise rngEvtSeedDone (s.set rngStatusSeeding 0))))

/-- Pools, windows and requests of the KV service complete (R368, R372, R379, R381, R382, R383, R384, R390, R392). A
pool is loaded, unloaded and flushed from the look-aside buffer; a window opens, accepts a request and ends; each of the
seven requests, once its checks pass, has its effect, and its completion is written. A command that accesses memory is
said to complete where the channels its accesses need serve (Served). -/
def Obligations.KvServiceCompletes : Prop :=
  (∀ (p : Fin 8) (s : State) (x : List Byte × Bool × Bool × State), x = useRead 577 (s.get (kvsPoolDescAddr p.val)) 256 0 0 s →
      x.2.1 = false → x.2.2.1 = false → poolReason x.2.2.2 p.val x.1 false = 0 →
      exec (.poolLoad p) s = .next (settle (
        let u := x.2.2.2.set (kvsPoolStatLoadReason p.val) 0
        let v : State := { u with kvs := { u.kvs with pools := Tab.set [] u.kvs.pools p.val x.1 } }
        (v.set kvsStatusLoaded (Nat.lor (v.get kvsStatusLoaded) (2 ^ p.val))).set (kvsPoolFreePages p.val) (freeCount v x.1)))) ∧
  (∀ (p : Fin 8) (s u : State), winOf s p.val = none → u = { s with kvs := { s.kvs with pools := Tab.set [] s.kvs.pools p.val [] } } →
      exec (.poolUnload p) s = .next (settle (labDrop (fun x => x.1 == p.val)
        (u.set kvsStatusLoaded (clearBits (u.get kvsStatusLoaded) (2 ^ p.val)))))) ∧
  (∀ (p : Fin 8) (s : State), exec (.labFlush p) s = .next (settle (labDrop (fun x => x.1 == p.val) s))) ∧
  (∀ (i : Fin 1024) (s t : State) (x : Slot) (y : List Byte × Bool × Bool × State), startable s 5 i.val = true → x = slotOf s i.val →
      winOf s x.unit = none → y = useRead 577 x.desc 32 0 0 (startSlot i.val s) → y.2.1 = false → y.2.2.1 = false →
      winReason y.2.2.2 x.unit y.1 false = 0 →
      t = kvBorrow (
        let v := setWin x.unit (some ⟨i.val, leAt y.1 4 8, 0, bitOf (leAt y.1 12 1) 0, leAt y.1 13 1, false, []⟩)
          (y.2.2.2.set (kvsPoolStatWinReason x.unit) 0)
        v.set kvsStatusWindow (Nat.lor (v.get kvsStatusWindow) (2 ^ x.unit))) →
      Served s t → exec (.kvWindowStart i) s = .next (settle t)) ∧
  (∀ (p : Fin 8) (s t : State) (w : KvWin) (x : List Byte × Bool × Bool × State), winOf s p.val = some w → w.ended = false →
      s.now < winTime s w → w.queue.length < w.accept → s.get (kvsPoolTailIndex p.val) ≠ s.get (kvsPoolHeadIndex p.val) →
      x = useRead 577 (leAt (poolDesc s p.val) 112 8 + 64 * (s.get (kvsPoolTailIndex p.val) % kvRing (poolDesc s p.val))) 64 0 0 s →
      t = (setWin p.val (some { w with queue := w.queue ++ [x.1] }) x.2.2.2).set
        (kvsPoolTailIndex p.val) (s.get (kvsPoolTailIndex p.val) + 1) →
      Served s t → exec (.kvRequestAccept p) s = .next (settle t)) ∧
  (∀ (p : Fin 8) (s : State) (w : KvWin), winOf s p.val = some w →
      exec (.kvWindowEnd p) s = .next (settle (winDrained p.val (setWin p.val (some { w with ended := true }) (s.reach (winTime s w)))))) ∧
  (∀ (p : Fin 8) (s t : State) (w : KvWin) (r : List Byte), KvReady 1 p.val s w r →
      t = kvEnd p.val r (kvOpenDo (poolDesc (kvBorrow s) p.val) r (kvBegun p.val s w r)) → Served s t →
      exec (.kvOpen p) s = .next (settle t)) ∧
  (∀ (p : Fin 8) (s t : State) (w : KvWin) (r : List Byte), KvReady 5 p.val s w r →
      t = kvEnd p.val r (kvForkDo (poolDesc (kvBorrow s) p.val) r (kvBegun p.val s w r)) → Served s t →
      exec (.fork p) s = .next (settle t)) ∧
  (∀ (p : Fin 8) (s t : State) (w : KvWin) (r : List Byte), KvReady 6 p.val s w r →
      t = kvEnd p.val r (kvReleaseDo p.val (poolDesc (kvBorrow s) p.val) r (kvBegun p.val s w r)) → Served s t →
      exec (.release p) s = .next (settle t)) ∧
  (∀ (p : Fin 8) (s u t : State) (w : KvWin) (r d : List Byte), KvReady 2 p.val s w r → d = poolDesc (kvBorrow s) p.val →
      kvPrepare p.val d r (kvBegun p.val s w r) = (none, u) →
      t = kvEnd p.val r (if rqLayer r = 0xFFFF then (kvOk false false 0, appendMeta d r (prefills (kvBegun p.val s w r) d r) u)
        else (kvOk (appendLayer p.val d w r u).1 false 0, (appendLayer p.val d w r u).2)) → Served s t →
      exec (.append p) s = .next (settle t)) ∧
  (∀ (p : Fin 8) (s u t : State) (w : KvWin) (r d : List Byte), KvReady 3 p.val s w r → d = poolDesc (kvBorrow s) p.val →
      firstFault d (rqSeq r) (rqPages (kvBegun p.val s w r) d r) false (kvBegun p.val s w r) = (none, u) →
      t = kvEnd p.val r (kvAttendDo p.val d w r u) → Served s t → exec (.attend p) s = .next (settle t)) ∧
  (∀ (p : Fin 8) (s u t : State) (w : KvWin) (r d : List Byte), KvReady 4 p.val s w r → d = poolDesc (kvBorrow s) p.val →
      firstFault d (rqSeq r) (rqPages (kvBegun p.val s w r) d r) false (kvBegun p.val s w r) = (none, u) →
      t = kvEnd p.val r (kvBackDo p.val d w r u) → Served s t → exec (.attendBwd p) s = .next (settle t)) ∧
  (∀ (p : Fin 8) (s u t : State) (w : KvWin) (r d : List Byte), KvReady 7 p.val s w r → d = poolDesc (kvBorrow s) p.val →
      firstFault d (rqSeq r) (rqPages (kvBegun p.val s w r) d r) false (kvBegun p.val s w r) = (none, u) →
      t = kvEnd p.val r (kvReadDo p.val d w r u) → Served s t → exec (.kvRead p) s = .next (settle t))

/-- Every request message of an engine L1 is sent and received (R427, R428, R429, R432, R433). RD_S and RD_X of a line the L1
does not hold, and UPG of a line it holds in S, open the request and reach the slice; EVICT of a clean line clears the
holder and is answered EVICT_ACK, an open snoop kept as STALE; WB of a dirty line moves its data to the write-back buffer
and is answered WB_ACK, or is held while a snoop is open. -/
def Obligations.CacheRequestsComplete : Prop :=
  (∀ (e : Fin 64) (t : Fin 32) (l : BitVec 41) (s : State), l1Line s e.val l.toNat = none → l1Room (s.l1 e.val) l.toNat = true →
      engineFree s e.val = true → (s.l1 e.val).reqs = [] → refusal s (l.toNat * 128) = 0 →
      exec (.rdS e t l) s = .next (settle (pumpLine l.toNat (arrive (l1Request 3 e.val t.val l.toNat s)
        (guardCount (l.toNat * 128) 128 (l1Open e.val ⟨t.val, l.toNat, 0, 0, []⟩ s)))))) ∧
  (∀ (e : Fin 64) (t : Fin 32) (l : BitVec 41) (o : Fin 128) (d : List Byte) (s : State), l1Line s e.val l.toNat = none → l1Room (s.l1 e.val) l.toNat = true →
      engineFree s e.val = true → (s.l1 e.val).reqs = [] → refusal s (l.toNat * 128) = 0 →
      exec (.rdX e t l o d) s = .next (settle (pumpLine l.toNat (arrive (l1Request 4 e.val t.val l.toNat s)
        (guardCount (l.toNat * 128) 128 (l1Open e.val ⟨t.val, l.toNat, 1, o.val, d.take (128 - o.val)⟩ s)))))) ∧
  (∀ (e : Fin 64) (t : Fin 32) (l : BitVec 41) (o : Fin 128) (d : List Byte) (s : State) (x : L1Line),
      l1Line s e.val l.toNat = some x → x.st = .s → engineFree s e.val = true → (s.l1 e.val).reqs = [] →
      refusal s (l.toNat * 128) = 0 →
      exec (.upg e t l o d) s = .next (settle (pumpLine l.toNat (arrive (l1Request 5 e.val t.val l.toNat s)
        (guardCount (l.toNat * 128) 128 (l1Open e.val ⟨t.val, l.toNat, 2, o.val, d.take (128 - o.val)⟩ s)))))) ∧
  (∀ (e : Fin 64) (t : Fin 32) (l : BitVec 41) (s u : State) (x : L1Line), l1Line s e.val l.toNat = some x → x.st ≠ .m →
      (s.l1 e.val).reqs = [] → u = sendMsg ⟨.evictAck, e.val, sliceOf l.toNat, t.val, l.toNat, [], 0⟩
        (clearHolder e.val l.toNat (l1Open e.val ⟨t.val, l.toNat, 3, 0, []⟩ (l1Remove e.val l.toNat s))) →
      (openSnoop u e.val l.toNat = none → exec (.evict e t l) s = .next (settle (pumpLine l.toNat u))) ∧
      ∀ y, openSnoop u e.val l.toNat = some y → exec (.evict e t l) s = .next (settle (pumpLine l.toNat (advance l.toNat
        { u with coh := { u.coh with snoops := u.coh.snoops.map (fun z => if z = y then { z with stale := true } else z) } })))) ∧
  (∀ (e : Fin 64) (t : Fin 32) (l : BitVec 41) (s r u v : State) (x : L1Line), r = l1Check e.val l.toNat s →
      l1Line r e.val l.toNat = some x → x.st = .m → (r.l1 e.val).reqs = [] → (r.l1 e.val).wb.length < 8 →
      u = l1Open e.val ⟨t.val, l.toNat, 4, 0, []⟩ (l1Remove e.val l.toNat r) →
      v = u.setL1 e.val { u.l1 e.val with wb := (u.l1 e.val).wb ++ [(l.toNat, x.data, x.poison)] } →
      (openSnoop v e.val l.toNat = none → exec (.wb e t l) s = .next (settle (pumpLine l.toNat
        (sendMsg ⟨.wbAck, e.val, sliceOf l.toNat, t.val, l.toNat, [], 0⟩ (clearHolder e.val l.toNat (takeDirty l.toNat x.data x.poison v)))))) ∧
      ∀ y, openSnoop v e.val l.toNat = some y →
        exec (.wb e t l) s = .next (settle { v with coh := { v.coh with heldWb := v.coh.heldWb ++ [(e.val, l.toNat)] } }))

/-- Every grant and acknowledgement of a slice takes effect at the L1 (R427, R428, R429, R434). DATA_S, DATA_E and DATA_X
install the line in S, E and M with the message data, DATA_X with the write patched in; UPG_ACK takes the held copy to M
with the write; each closes the request and the transaction. EVICT_ACK closes its request and frees no buffer entry;
WB_ACK and WB_SUPERSEDED close theirs and free the write-back entry. -/
def Obligations.CacheGrantsComplete : Prop :=
  (∀ (e : Fin 64) (t : Fin 32) (l : BitVec 41) (s u : State) (m : CMsg) (q : L1Req),
      nextMsg s .dataS e.val (sliceOf l.toNat) t.val l.toNat = some m →
      (s.l1 e.val).reqs.find? (fun q => q.tag == t.val && q.line == l.toNat) = some q →
      u = l1Put e.val l.toNat ⟨.s, m.data, m.poison, 0⟩ (l1Close e.val t.val (takeMsg m s)) →
      (txnOf u l.toNat = none → exec (.dataS e t l) s = .next (settle u)) ∧
      ∀ x, txnOf u l.toNat = some x → exec (.dataS e t l) s = .next (settle (closeTxn l.toNat (setTxn { x with phase := 2 } u)))) ∧
  (∀ (e : Fin 64) (t : Fin 32) (l : BitVec 41) (s u : State) (m : CMsg) (q : L1Req),
      nextMsg s .dataE e.val (sliceOf l.toNat) t.val l.toNat = some m →
      (s.l1 e.val).reqs.find? (fun q => q.tag == t.val && q.line == l.toNat) = some q →
      u = l1Put e.val l.toNat ⟨.e, m.data, m.poison, 0⟩ (l1Close e.val t.val (takeMsg m s)) →
      (txnOf u l.toNat = none → exec (.dataE e t l) s = .next (settle u)) ∧
      ∀ x, txnOf u l.toNat = some x → exec (.dataE e t l) s = .next (settle (closeTxn l.toNat (setTxn { x with phase := 2 } u)))) ∧
  (∀ (e : Fin 64) (t : Fin 32) (l : BitVec 41) (s u : State) (m : CMsg) (q : L1Req),
      nextMsg s .dataX e.val (sliceOf l.toNat) t.val l.toNat = some m →
      (s.l1 e.val).reqs.find? (fun q => q.tag == t.val && q.line == l.toNat) = some q →
      u = l1Put e.val l.toNat ⟨.m, patch m.data q.data q.off, clearBits m.poison (wholeMask (granule (l.toNat * 128)) q.off q.data.length), 0⟩ (l1Close e.val t.val (takeMsg m s)) →
      (txnOf u l.toNat = none → exec (.dataX e t l) s = .next (settle u)) ∧
      ∀ x, txnOf u l.toNat = some x → exec (.dataX e t l) s = .next (settle (closeTxn l.toNat (setTxn { x with phase := 2 } u)))) ∧
  (∀ (e : Fin 64) (t : Fin 32) (l : BitVec 41) (s u : State) (m : CMsg) (q : L1Req) (x : L1Line),
      nextMsg s .upgAck e.val (sliceOf l.toNat) t.val l.toNat = some m →
      (s.l1 e.val).reqs.find? (fun q => q.tag == t.val && q.line == l.toNat) = some q → l1Line s e.val l.toNat = some x →
      u = l1Put e.val l.toNat ⟨.m, patch x.data q.data q.off, clearBits x.poison (wholeMask (granule (l.toNat * 128)) q.off q.data.length), 0⟩ (l1Close e.val t.val (takeMsg m s)) →
      (txnOf u l.toNat = none → exec (.upgAck e t l) s = .next (settle u)) ∧
      ∀ x, txnOf u l.toNat = some x → exec (.upgAck e t l) s = .next (settle (closeTxn l.toNat (setTxn { x with phase := 2 } u)))) ∧
  (∀ (e : Fin 64) (t : Fin 32) (l : BitVec 41) (s : State) (m : CMsg), nextMsg s .evictAck e.val (sliceOf l.toNat) t.val l.toNat = some m →
      exec (.evictAck e t l) s = .next (settle (l1Close e.val t.val (takeMsg m s)))) ∧
  (∀ (e : Fin 64) (t : Fin 32) (l : BitVec 41) (s : State) (m : CMsg), nextMsg s .wbAck e.val (sliceOf l.toNat) t.val l.toNat = some m →
      exec (.wbAck e t l) s = .next (settle (freeWb e.val l.toNat (l1Close e.val t.val (takeMsg m s))))) ∧
  (∀ (e : Fin 64) (t : Fin 32) (l : BitVec 41) (s : State) (m : CMsg), nextMsg s .wbSuperseded e.val (sliceOf l.toNat) t.val l.toNat = some m →
      exec (.wbSuperseded e t l) s = .next (settle (freeWb e.val l.toNat (l1Close e.val t.val (takeMsg m s)))))

/-- Every snoop is answered by the L1 and every answer taken by the slice (R427, R432, R433, R436, R449). A snoop taken from
the network changes the L1 line and sends the answer the L1 table gives for M, S or E and I, a write-back entry answering
with its data. Each answer that matches an open snoop closes it: RSP_GONE of a STALE snoop counts COH_CROSS.CLEAN, clean
answers update the directory, data answers write the data dirty; a timed-out snoop raises PROTOCOL with CAUSE 2. -/
def Obligations.SnoopsComplete : Prop :=
  (∀ (e : Fin 64) (sl : Fin 32) (t : Fin 64) (l : BitVec 41) (s : State) (u : State) (m : CMsg), nextMsg s .snpShare e.val sl.val t.val l.toNat = some m →
      u = l1Check e.val l.toNat (takeMsg m s) →
      (∀ x, l1Line u e.val l.toNat = some x → x.st = .m → exec (.snpShare e sl t l) s = .next (settle (sendMsg ⟨.rspDataS, e.val, sl.val, t.val, l.toNat, x.data, x.poison⟩ (l1Put e.val l.toNat { x with st := .s } u)))) ∧
      (∀ x, l1Line u e.val l.toNat = some x → x.st ≠ .m → exec (.snpShare e sl t l) s = .next (settle (sendMsg ⟨.rspInvS, e.val, sl.val, t.val, l.toNat, [], x.poison⟩ (l1Put e.val l.toNat { x with st := .s } u)))) ∧
      (∀ w, l1Line u e.val l.toNat = none → (u.l1 e.val).wb.find? (fun w => w.1 == l.toNat) = some w → exec (.snpShare e sl t l) s = .next (settle (sendMsg ⟨.rspData, e.val, sl.val, t.val, l.toNat, w.2.1, w.2.2⟩ u))) ∧
      (l1Line u e.val l.toNat = none → (u.l1 e.val).wb.find? (fun w => w.1 == l.toNat) = none →
        exec (.snpShare e sl t l) s = .next (settle (sendMsg ⟨.rspGone, e.val, sl.val, t.val, l.toNat, [], 0⟩ u)))) ∧
  (∀ (e : Fin 64) (sl : Fin 32) (t : Fin 64) (l : BitVec 41) (s : State) (u : State) (m : CMsg), nextMsg s .snpInv e.val sl.val t.val l.toNat = some m →
      u = l1Check e.val l.toNat (takeMsg m s) →
      (∀ x, l1Line u e.val l.toNat = some x → x.st = .m → exec (.snpInv e sl t l) s = .next (settle (sendMsg ⟨.rspData, e.val, sl.val, t.val, l.toNat, x.data, x.poison⟩ (l1Remove e.val l.toNat u)))) ∧
      (∀ x, l1Line u e.val l.toNat = some x → x.st ≠ .m → exec (.snpInv e sl t l) s = .next (settle (sendMsg ⟨.rspInv, e.val, sl.val, t.val, l.toNat, [], 0⟩ (l1Remove e.val l.toNat u)))) ∧
      (∀ w, l1Line u e.val l.toNat = none → (u.l1 e.val).wb.find? (fun w => w.1 == l.toNat) = some w → exec (.snpInv e sl t l) s = .next (settle (sendMsg ⟨.rspData, e.val, sl.val, t.val, l.toNat, w.2.1, w.2.2⟩ u))) ∧
      (l1Line u e.val l.toNat = none → (u.l1 e.val).wb.find? (fun w => w.1 == l.toNat) = none →
        exec (.snpInv e sl t l) s = .next (settle (sendMsg ⟨.rspGone, e.val, sl.val, t.val, l.toNat, [], 0⟩ u)))) ∧
  (∀ (e : Fin 64) (sl : Fin 32) (t : Fin 64) (l : BitVec 41) (s : State) (u : State) (m : CMsg), nextMsg s .snpDiscard e.val sl.val t.val l.toNat = some m →
      u = l1Check e.val l.toNat (takeMsg m s) →
      (∀ x, l1Line u e.val l.toNat = some x → x.st = .m → exec (.snpDiscard e sl t l) s = .next (settle (sendMsg ⟨.rspInv, e.val, sl.val, t.val, l.toNat, [], 0⟩ (l1Remove e.val l.toNat u)))) ∧
      (∀ x, l1Line u e.val l.toNat = some x → x.st ≠ .m → exec (.snpDiscard e sl t l) s = .next (settle (sendMsg ⟨.rspInv, e.val, sl.val, t.val, l.toNat, [], 0⟩ (l1Remove e.val l.toNat u)))) ∧
      (∀ w, l1Line u e.val l.toNat = none → (u.l1 e.val).wb.find? (fun w => w.1 == l.toNat) = some w → exec (.snpDiscard e sl t l) s = .next (settle (sendMsg ⟨.rspInv, e.val, sl.val, t.val, l.toNat, [], 0⟩ u))) ∧
      (l1Line u e.val l.toNat = none → (u.l1 e.val).wb.find? (fun w => w.1 == l.toNat) = none →
        exec (.snpDiscard e sl t l) s = .next (settle (sendMsg ⟨.rspGone, e.val, sl.val, t.val, l.toNat, [], 0⟩ u)))) ∧
  (∀ (e : Fin 64) (sl : Fin 32) (t : Fin 64) (l : BitVec 41) (s : State) (u : State) (x : Snoop) (m : CMsg), snoopOf s sl.val t.val = some x → nextMsg s .rspGone e.val sl.val t.val l.toNat = some m →
      u = dropSnoop x (takeMsg m s) → exec (.rspGone e sl t l) s = .next (settle (pumpLine l.toNat (advance x.line (if x.stale then u.bump cohCrossClean 1 else clearHolder x.eng x.line u))))) ∧
  (∀ (e : Fin 64) (sl : Fin 32) (t : Fin 64) (l : BitVec 41) (s : State) (u : State) (x : Snoop) (m : CMsg), snoopOf s sl.val t.val = some x → nextMsg s .rspInv e.val sl.val t.val l.toNat = some m →
      u = dropSnoop x (takeMsg m s) → exec (.rspInv e sl t l) s = .next (settle (pumpLine l.toNat (advance x.line (clearHolder x.eng x.line u))))) ∧
  (∀ (e : Fin 64) (sl : Fin 32) (t : Fin 64) (l : BitVec 41) (s : State) (u : State) (x : Snoop) (m : CMsg), snoopOf s sl.val t.val = some x → nextMsg s .rspInvS e.val sl.val t.val l.toNat = some m →
      u = dropSnoop x (takeMsg m s) → exec (.rspInvS e sl t l) s = .next (settle (pumpLine l.toNat (advance x.line (shareHolder x.line u))))) ∧
  (∀ (e : Fin 64) (sl : Fin 32) (t : Fin 64) (l : BitVec 41) (s : State) (u : State) (x : Snoop) (m : CMsg), snoopOf s sl.val t.val = some x → nextMsg s .rspData e.val sl.val t.val l.toNat = some m →
      u = dropSnoop x (takeMsg m s) → exec (.rspData e sl t l) s = .next (settle (pumpLine l.toNat (advance x.line (supersede x.eng x.line (clearHolder x.eng x.line (takeDirty x.line m.data m.poison u))))))) ∧
  (∀ (e : Fin 64) (sl : Fin 32) (t : Fin 64) (l : BitVec 41) (s : State) (u : State) (x : Snoop) (m : CMsg), snoopOf s sl.val t.val = some x → nextMsg s .rspDataS e.val sl.val t.val l.toNat = some m →
      u = dropSnoop x (takeMsg m s) → exec (.rspDataS e sl t l) s = .next (settle (pumpLine l.toNat (advance x.line (shareHolder x.line (takeDirty x.line m.data m.poison u)))))) ∧
  (∀ (sl : Fin 32) (t : Fin 64) (s : State) (x : Snoop), snoopOf s sl.val t.val = some x →
      exec (.snoopTimeout sl t) s = .next (settle (fault .coherence 2 x.eng (x.line * 128) 0 none (raise cohEvtProtocol
        (((s.set cohFaultAddr (x.line * 128)).set cohFaultEngine x.eng).set cohFaultCause 2)))))

/-- Every fence of COH_FENCE starts and completes (R439, R440, R441, R442). GO with KIND 0 and 1 starts the fence of the
engines of COH_FENCE_MASK, with KIND 2 marks every open remote request; while BUSY a GO only sets REFUSED. An engine fence
completes by writing back the L1s of its set, a fabric fence when no marked request is open: BUSY clears, DONE and
COH_EVT.FENCE_DONE are set. -/
def Obligations.FencesComplete : Prop :=
  (∀ s u : State, u = ((s.set cohFenceKind 0).set cohFenceBusy 1).set cohStatusFenceBusy 1 →
      (s.flag cohFenceBusy = false → exec .engineFenceWb s = .next (settle { u with coh := { u.coh with fenceSeq := u.coh.fenceSeq + 1, fenceTimeout := false, fenceEngines := u.get cohFenceMaskEngines, fenceInv := false } })) ∧
      (s.flag cohFenceBusy = true → exec .engineFenceWb s = .next (settle (raise cohFenceRefused s)))) ∧
  (∀ s u : State, u = ((s.set cohFenceKind 1).set cohFenceBusy 1).set cohStatusFenceBusy 1 →
      (s.flag cohFenceBusy = false → exec .engineFenceWbinv s = .next (settle { u with coh := { u.coh with fenceSeq := u.coh.fenceSeq + 1, fenceTimeout := false, fenceEngines := u.get cohFenceMaskEngines, fenceInv := true } })) ∧
      (s.flag cohFenceBusy = true → exec .engineFenceWbinv s = .next (settle (raise cohFenceRefused s)))) ∧
  (∀ s u : State, u = ((s.set cohFenceKind 2).set cohFenceBusy 1).set cohStatusFenceBusy 1 →
      (s.flag cohFenceBusy = false → exec .fabricFence s = .next (settle { u with coh := { u.coh with fenceSeq := u.coh.fenceSeq + 1, fenceTimeout := false }, fab := { u.fab with reqs := u.fab.reqs.map (fun r => { r with fenced := true }) } })) ∧
      (s.flag cohFenceBusy = true → exec .fabricFence s = .next (settle (raise cohFenceRefused s)))) ∧
  (∀ s u : State, s.flag cohFenceBusy = true → s.get cohFenceKind < 2 →
      (∀ e ∈ enginesOf s.coh.fenceEngines, (s.l1 e).wb = [] ∧ s.get (upeStatState e) ≠ 3) →
      u = State.each (enginesOf s.coh.fenceEngines) (l1Walk s.coh.fenceInv) s →
      exec .engineFenceComplete s = .next (settle (fenceEnd u)) ∧
        (fenceEnd u).get cohFenceBusy = 0 ∧ (fenceEnd u).get cohFenceDone = 1 ∧ (fenceEnd u).get cohEvtFenceDone = 1) ∧
  (∀ s : State, s.flag cohFenceBusy = true → s.get cohFenceKind = 2 → (∀ r ∈ s.fab.reqs, r.fenced = false) →
      exec .fabricFenceComplete s = .next (settle (fenceEnd s)) ∧
        (fenceEnd s).get cohFenceBusy = 0 ∧ (fenceEnd s).get cohFenceDone = 1 ∧ (fenceEnd s).get cohEvtFenceDone = 1)

/-- The power sequencer, the trips and the input voltage of the module complete (R454, R457, R458, R460, R461, R462). A
debounced insertion starts the ramp, the ramp the rails, each rail the next, the first one sampling the straps; PRES_N
high turns the switch off whatever the state, with memory lost and flash, straps and LAST_TRIP kept; a trip latches its
cause and turns it off; VIN below 42 V sets its event and a power fault. -/
def Obligations.ModulePowerCompletes : Prop :=
  (∀ s u : State, s.mod.seq = 0 →
      u = ((s.set idModuleStatLastTrip 0).set idModuleStatMgtAddr 0).onMod (fun m => { m with tripped := false }) →
      exec (.presenceDebounce true) s = .next (settle (u.onMod (fun m => { m with present := true, vin := true, seq := 1 }))) ∧
      (s.mod.tripped = false → exec (.presenceDebounce false) s =
        .next (settle (s.onMod (fun m => { m with present := true, vin := true, seq := 1 })))) ∧
      (s.mod.tripped = true → exec (.presenceDebounce false) s =
        .next (settle (s.onMod (fun m => { m with present := true, vin := true }))))) ∧
  (∀ s : State, exec .presenceLost s = .next (settle ((powerOff s).onMod (fun m => { m with present := false }))) ∧
      (powerOff s).mem.cells = [] ∧ (powerOff s).mod.seq = 0 ∧ (powerOff s).flash = s.flash ∧
      (powerOff s).get idModuleStatLastTrip = s.get idModuleStatLastTrip % 16 ∧
      (powerOff s).get idModuleStatMgtAddr = s.get idModuleStatMgtAddr % 8) ∧
  (∀ s : State, s.mod.seq = 1 → exec .rampComplete s = .next (settle (s.onMod (fun m => { m with seq := 2 })))) ∧
  (∀ (a : Fin 8) (s : State), (s.mod.seq = 2 → exec (.railPowerGood a) s =
        .next (settle ((s.set idModuleStatMgtAddr a.val).onMod (fun m => { m with seq := 3 })))) ∧
      (3 ≤ s.mod.seq → s.mod.seq < 8 → exec (.railPowerGood a) s = .next (settle (s.onMod (fun m => { m with seq := m.seq + 1 }))))) ∧
  (∀ (c : Fin 6) (s : State), s.mod.seq ≠ 0 → exec (.trip c) s = .next (settle
        ((powerOff (s.set idModuleStatLastTrip (c.val + 1))).onMod (fun m => { m with tripped := true, tripAt := s.now }))) ∧
      (powerOff (s.set idModuleStatLastTrip (c.val + 1))).get idModuleStatLastTrip = c.val + 1) ∧
  (∀ (v i : BitVec 16) (s : State), v.toNat < 4200 → exec (.vinLow v i) s = .next (settle
        (fault .power 1 0 (v.toNat * i.toNat / 10000) 0 none
          (raise idModuleEvtVinLow ((s.set idVinVolts v.toNat).set idVinAmps i.toNat)))))

/-- Cooling, the ejector, the reference and the loss of a signal complete (R465, R467, R472, R79, R524). Flow loss and a leak
sample their pins, set event, alert and a cooling fault, flow loss also the coolant limit, which 10 s of flow lift; the
lever sets EJECT_OPENED or EJECT_CLOSED and EJECT_OPEN only; a relock sets LOCKED; loss of signal on a port that is up
claims and retrains, or takes it DOWN with the claim DOWN. -/
def Obligations.ModuleEventsComplete : Prop :=
  (∀ s : State, exec .coolLoss s = .next (settle (fault .cooling 1 0 0 8 none (raiseAlert idModuleEvtCoolLoss 1
        ((sample (s.onMod (fun m => { m with coolOk := false }))).set fumStatusCoolLimit 1))))) ∧
  (∀ s : State, exec .coolLimitLift s =
        .next (settle ((sample (s.onMod (fun m => { m with coolOk := true }))).set fumStatusCoolLimit 0))) ∧
  (∀ s : State, exec .leak s = .next (settle (fault .cooling 2 0 0 0 none (raiseAlert idModuleEvtLeak 0
        (sample (s.onMod (fun m => { m with leak := true, leakLow := true }))))))) ∧
  (∀ s : State, ∃ t, exec .ejectOpened s = .next t ∧ t.get idModuleEvtEjectOpened = 1 ∧ t.get idModuleStatEjectOpen = 1 ∧
        t.mem = s.mem ∧ t.fab = s.fab ∧ t.tick = s.tick ∧ t.flt = s.flt ∧ t.fum = s.fum) ∧
  (∀ s : State, ∃ t, exec .ejectClosed s = .next t ∧ t.get idModuleEvtEjectClosed = 1 ∧ t.get idModuleStatEjectOpen = 0 ∧
        t.mem = s.mem ∧ t.fab = s.fab ∧ t.tick = s.tick ∧ t.flt = s.flt ∧ t.fum = s.fum) ∧
  (∀ s : State, exec .referenceRelock s = .next (settle (s.set idClkStatLocked 1))) ∧
  (∀ (p : Fin 16) (s : State), s.get (elvStatState p.val) = 7 →
      exec (.lossOfSignal p true) s = .next (settle (claimAndRetrain p.val 2 2 s)) ∧
      exec (.lossOfSignal p false) s = .next (settle (portDown p.val 1 ((claimRetraining p.val 2 s).set (telClaimState p.val) 3))))

/-- Every step of a start-up completes (R480, R487, R488, R490, R491, R492, R493, R495, R497, R549). Die reset release with
the rails good counts the start and opens IMAGE; the verification takes the next slot or records its reason; the last core
ready applies the image; a silent core fails the slot with reason FIRMWARE; MEMORY_READY enables the partitions; the last
zeroed channel sets ZEROED; a ranked node starts a domain; ready-for-plan closes the window and announces; a late start is
reported. -/
def Obligations.StartCompletes : Prop :=
  (∀ s u : State, s.rst.held = true → s.mod.seq = 8 →
      u = ({ s with rst := { s.rst with held := false, kind := 0 }, host := { s.host with answers := true } } : State).onBoot
        (fun b => { b with release := s.now, tried := [], slot := none, parts := 0, ready := 0, narup := [] }) →
      exec .dieResetRelease s = .next (settle (bootTime 1 (bootTime 0
        ((sample (showFuses (u.bump idBootStatStarts 1))).set idBootStatPhase 2))))) ∧
  (∀ (s : State) (k : Nat), s.get idBootStatPhase = 2 → s.boot.slot = none → nextSlot s = some k →
      exec (.imageSlotVerify false) s = .next (settle (slotFails k 1 0 s)) ∧
      exec (.imageSlotVerify true) s = .next (settle (if (slotReason s k).1 = 0
        then s.onBoot (fun b => { b with slot := some k, ready := 0, narup := loadCores s k })
        else slotFails k (slotReason s k).1 (slotReason s k).2 s))) ∧
  (∀ (c : Fin 4) (s u : State) (k : Nat), s.boot.slot = some k → s.get idBootStatPhase = 2 →
      u = s.onBoot (fun b => { b with ready := Nat.lor b.ready (2 ^ c.val) }) →
      exec (.coreReady c) s = .next (settle (if u.boot.ready = 15 then endImage k u else u))) ∧
  (∀ (c : Fin 4) (s : State) (k : Nat) (l : List Section), s.boot.slot = some k → s.get idBootStatPhase = 2 →
      bitOf s.boot.ready c.val = false → l = sections s k (leAt (slotHead s k) 6 2) →
      exec (.coreReadyTimeout c) s = .next (settle (slotFails k 12
        (((l.zipIdx.find? (fun x => x.1.typ == 3 && bitOf (leAt (slotBytes s k x.1.off 32) 0 1) c.val)).map Prod.snd).getD 0) s))) ∧
  (∀ (pc : List (Fin 8 × BitVec 32)) (ch : BitVec 32) (ln : List (Nat × Nat)) (rf : List Nat) (s u v : State),
      s.get idBootStatPhase = 3 → s.flag memStatusReady = false →
      u = trainingFails pc ch.toNat ln
        (State.each (ln.map Prod.fst).eraseDups (fun c => laneRepair c (lanesOf ln c)) (rebuildRemaps rf s)) →
      v = (if u.flag rstStatusZeroed = true ∨ u.mem.zeroing ≠ [] then u
        else { u with mem := { u.mem with zeroing := (List.range 288).map (fun c => (c, true)) } }) →
      exec (.memoryReady pc ch ln rf) s =
        .next (settle (bootTime 4 (((enableParts v.boot.parts v).2.set memStatusReady 1).set idBootStatPhase 4)))) ∧
  (∀ (c : Fin 288) (s u : State), Tab.get false s.mem.zeroing c.val = true →
      u = { s with mem := { s.mem with zeroing := Tab.set false s.mem.zeroing c.val false } } →
      exec (.channelZeroed c) s = .next (settle (if u.mem.zeroing = [] then u.set rstStatusZeroed 1 else u))) ∧
  (∀ s u : State, s.get tickRankRank ≤ 7 → s.tick.heard = false → s.get tickStatusLock = 0 → s.flag fabNodeIdValid = true →
      (s.get idBootStatPhase = 3 ∨ s.get idBootStatPhase = 4) →
      u = bootTime 5 (clockTo 0 0 ((becomeTk 0 ((s.set tickCountCount 0).onTick
        (fun t => { t with running := true, edge := s.now, ext := 0 }))).set idBootStatStartedDomain 1)) →
      exec .domainStart s = .next (settle (sendCtrlMask (eligiblePorts u) 1 (beaconBytes u 0 0) u))) ∧
  (∀ s u : State, s.get idBootStatPhase = 4 → s.flag memStatusReady = true → s.get tickStatusLock = 2 → s.boot.ready = 15 →
      u = raise idBootEvtWindowClosed (copyRing (bootTime 6 (((s.set idBootStatPhase 5).set idBootStatWindow 0).set fabStatusJoin 1))) →
      exec .readyForPlan s = .next (settle (announceAll
        (if u.rst.report = true then forcedFault { u with rst := { u.rst with report := false } } else u)))) ∧
  (∀ s : State, s.get idBootStatPhase ≠ 5 → s.get idBootStatPhase ≠ 0 → s.flag idBootStatLate = false →
      exec .bootLate s = .next (settle (fault .startup 1 0 (s.get idBootErrAReason + 256 * s.get idBootErrBReason +
        65536 * s.get idBootErrSection) 0 none (alert 3 (s.set idBootStatLate 1)))))

/-- Every command of Fumarole completes (R236, R237, R510, R513, R520, R522, R526, R527). A reading sets temperature and
class; the third silent read makes the stack critical; a critical stack enters self-refresh and, once warm, leaves it; the
throttle follows the budget; overcurrent and a 110 °C sensor set level 15; an unlocked node writes a record; P1 is
entered, refused, left; clusters gate and ungate. -/
def Obligations.PowerCompletes : Prop :=
  (∀ (k : Fin 8) (r : Fin 256) (s : State), exec (.tempRead k (some r)) s = .next (settle (
        setClass k.val (nextClass (s.get (hbmTempClass k.val)) r.val)
          (((({ s with care := { s.care with silent := Tab.set 0 s.care.silent k.val 0 } } : State).set (hbmTempDegC k.val) r.val).set
            (hbmTempMax k.val) (max (s.get (hbmTempMax k.val)) r.val)).set (hbmTempSensorFail k.val) 0)))) ∧
  (∀ (k : Fin 8) (s u : State) (n : Nat), n = Tab.get 0 s.care.silent k.val + 1 →
      u = { s with care := { s.care with silent := Tab.set 0 s.care.silent k.val n } } →
      (n ≠ 3 → exec (.tempRead k none) s = .next (settle u)) ∧
      (n = 3 → exec (.tempRead k none) s = .next (settle (setClass k.val 3 (fault .thermal 2 k.val (s.get (hbmTempDegC k.val)) 9 none
        (u.set (hbmTempSensorFail k.val) 1)))))) ∧
  (∀ (k : Fin 8) (s u : State), s.get (hbmTempClass k.val) = 3 → s.get fumStatusState < 2 → u = quiesceChans (stackChan k.val) s →
      exec (.stackSelfRefresh k) s = .next (settle (u.set fumStatusSelfRefresh (Nat.lor (u.get fumStatusSelfRefresh) (2 ^ k.val))))) ∧
  (∀ (k : Fin 8) (s : State), s.get (hbmTempClass k.val) < 2 → s.flag fumStatusOut = true → s.get fumStatusState < 2 →
      exec (.selfRefreshExit k) s = .next (settle (rejoinReady (rlResume k.val
        (s.set fumStatusSelfRefresh (clearBits (s.get fumStatusSelfRefresh) (2 ^ k.val))))))) ∧
  (∀ (a b d i x : Nat) (s u : State), x = appliedBudget s →
      u = s.onFum (fun f => { f with ocHold := f.ocHold && decide (3300 ≤ i), dieHold := f.dieHold && decide (210 ≤ d) }) →
      b ≤ 10 * x →
      exec (.throttleUpdate a b d i) s = .next (settle ((setLevel
        (if u.fum.ocHold = true ∨ u.fum.dieHold = true then 15
         else if 10 * x < a ∧ 310 * x < 32 * b then min (s.get fumStatusLevel + 1) 15
         else if 8 * a < 70 * x ∧ 0 < s.get fumStatusLevel ∧ d < 200 then s.get fumStatusLevel - 1
         else s.get fumStatusLevel) u).onFum (fun f => { f with overMs := 0 })))) ∧
  (∀ s : State, ∃ t, exec .overcurrentThrottle s = .next t ∧ t.get fumStatusLevel = 15 ∧ t.fum.ocHold = true ∧
        (s.get fumStatusLevel ≠ 15 → t.get fumEvtLevel15 = 1)) ∧
  (∀ s : State, ∃ t, exec .dieHotThrottle s = .next t ∧ t.get fumStatusLevel = 15 ∧ t.fum.dieHold = true ∧
        (s.get fumStatusLevel ≠ 15 → t.get fumEvtLevel15 = 1)) ∧
  (∀ s : State, ∃ t, exec .dieHot s = .next t ∧ t.get fumEvtDieHot = 1) ∧
  (∀ (l : List Byte) (s : State), s.get tickStatusLock < 2 →
      exec (.telemetryInterval l) s = .next (settle (telemetryRecord (s.get tickCountCount) true l s))) ∧
  (∀ s u : State, u = s.set fumPstateReq 2 → u.flag tickStatusBankEmpty = true → workRuns u = false → u.get fumStatusState < 2 →
      u.fum.transition = 0 → exec .p1Entry s = .next (settle
        (((State.each (List.range 16) lpAsk u).set fumPstateBusy 1).onFum
          (fun f => { f with transition := 1 })))) ∧
  (∀ s : State, s.get fumStatusState = 2 → s.fum.transition = 0 → exec .p1Exit s = .next (settle
        (((s.set fumPstateReq 0).set fumPstateBusy 1).onFum (fun f => { f with transition := 2 })))) ∧
  (∀ s : State, (s.fum.transition = 1 → exec .pstateDone s = .next (settle (raise fumEvtPstateDone
        (((p1Enter s).set fumPstateBusy 0).onFum (fun f => { f with transition := 0 }))))) ∧
      (s.fum.transition = 2 → exec .pstateDone s = .next (settle (raise fumEvtPstateDone
        (((p1Leave s).set fumPstateBusy 0).onFum (fun f => { f with transition := 0 })))))) ∧
  (∀ (u : Option (Fin 8)) (s : State), s.get fumStatusState = 1 → unitIdle s (gateUnit u) = true →
      exec (.clusterGate u) s = .next (settle (s.onFum (fun f => { f with gated := Nat.lor f.gated (2 ^ gateUnit u) })))) ∧
  (∀ (u : Option (Fin 8)) (s : State), exec (.clusterUngate u) s = .next (settle (ungate (gateUnit u) s)))

/-- Every reset starts, and every wait of a reset ends (R536, R538, R539, R543, R559, R560, R462). With the key and exactly
one action a write of RST_CTL starts the module, compute or plan reset, from the host or from the fabric within ALL_REGS;
without the key it only sets REFUSED. PE_PERST_N starts a module reset, or powers the module again after a trip; the last
halt ends a plan reset; a bound that has passed forces the reset to its end. -/
def Obligations.ResetsComplete : Prop :=
  (∀ (k : BitVec 16) (f : Bool) (l : BitVec 64) (c : Bool) (s : State), rstAllowed f s = true → s.flag idBootStatWindow = false → s.get fumStatusState ≠ 3 →
      exec (.moduleReset 0x5253 f l c) s = .next (settle (moduleReset (writeSource f) l.toNat c s)) ∧
      (k ≠ 0x5253 → exec (.moduleReset k f l c) s = .next (settle (raise rstEvtRefused s)))) ∧
  (∀ (k : BitVec 16) (f : Bool) (l : BitVec 64) (ns : Nat) (s : State), rstAllowed f s = true → s.flag idBootStatWindow = false → s.get fumStatusState ≠ 3 →
      exec (.computeReset 0x5253 f l ns) s = .next (settle (lowReset 4 (writeSource f) l.toNat ns s)) ∧
      (k ≠ 0x5253 → exec (.computeReset k f l ns) s = .next (settle (raise rstEvtRefused s)))) ∧
  (∀ (k : BitVec 16) (f : Bool) (s : State), rstAllowed f s = true → s.flag idBootStatWindow = false → s.get fumStatusState ≠ 3 →
      exec (.planReset 0x5253 f) s = .next (settle (lowReset 5 (writeSource f) 0 0 s)) ∧
      (k ≠ 0x5253 → exec (.planReset k f) s = .next (settle (raise rstEvtRefused s)))) ∧
  (∀ (n : Nat) (s : State), s.rst.kind = 5 → halting s = false →
      exec (.planResetHalted n) s = .next (settle (endReset (s.reach n))) ∧ (endReset (s.reach n)).get rstEvtDone = 1 ∧
        (endReset (s.reach n)).get rstStatusHalting = 0) ∧
  (∀ (n : Nat) (s u : State), u = s.reach n → u.rst.held = false →
      (u.rst.kind = 2 → exec (.resetForced n) s = .next (settle (internalReset (((l1Lost u).set rstStatusForced 1).onRst
        (fun r => { r with report := true }))))) ∧
      (u.rst.kind = 3 ∨ u.rst.kind = 4 → u.rst.late ≠ 0 →
        exec (.resetForced n) s = .next (settle (endReset (forcedFault ((l1Lost u).set rstStatusForced 1)))))) ∧
  (∀ (v : Bool) (n : Nat) (l : BitVec 64) (c : Bool) (s : State),
      (s.mod.tripped = false → s.mod.seq = 8 → exec (.perst v n l c) s = .next (settle (moduleReset 1 l.toNat c s))) ∧
      (s.mod.tripped = true → (s.reach n).mod.tripAt + 10000000000000 ≤ (s.reach n).now →
        exec (.perst true n l c) s = .next (settle ((s.reach n).onMod (fun m => { m with seq := 1, tripped := false })))))

/-- Every operation of the flash and fuse mailbox starts or is refused, and ends (R600, R601, R602, R610). With every check
passed READ fills ID_FLASH_BUF, PROGRAM writes the buffer and compares it, ERASE clears the 64 KiB sector, FUSE programs a
key hash, revokes a slot or raises the SVN; BUSY is set. A failed check sets REFUSED and the REASON of the first cause. At
the end BUSY clears and DONE and REASON are set. -/
def Obligations.MailboxCompletes : Prop :=
  (∀ s u : State, idAnswers s = true → u = s.set idFlashCtlOp 1 →
      (mboxReason u 1 0 = 0 → exec .flashRead s = .next (settle (((flashBufWrite 0 (flashBytes u (u.get idFlashAddrOffset) (u.get idFlashLenBytes)) u).set idFlashStatBusy 1).onHost
        (fun h => { h with mbox := some (1, u.get idFlashAddrOffset, u.get idFlashLenBytes, 0) })))) ∧
      (∀ r, mboxReason u 1 0 = r + 1 → exec .flashRead s = .next (settle (raise idFlashStatRefused (u.set idFlashStatReason (r + 1)))))) ∧
  (∀ (k : BitVec 16) (s u : State), idAnswers s = true → u = s.set idFlashCtlOp 2 →
      (mboxReason u 2 k.toNat = 0 → exec (.flashProgram k) s = .next (settle (((flashProgram (u.get idFlashAddrOffset) (flashBufBytes u 0 (u.get idFlashLenBytes)) u).set idFlashStatBusy 1).onHost
        (fun h => { h with mbox := some (2, u.get idFlashAddrOffset, u.get idFlashLenBytes, if flashBytes (flashProgram (u.get idFlashAddrOffset) (flashBufBytes u 0 (u.get idFlashLenBytes)) u) (u.get idFlashAddrOffset) (u.get idFlashLenBytes) = flashBufBytes u 0 (u.get idFlashLenBytes) then 0 else 7) })))) ∧
      (∀ r, mboxReason u 2 k.toNat = r + 1 → exec (.flashProgram k) s = .next (settle (raise idFlashStatRefused (u.set idFlashStatReason (r + 1)))))) ∧
  (∀ (k : BitVec 16) (s u : State), idAnswers s = true → u = s.set idFlashCtlOp 3 →
      (mboxReason u 3 k.toNat = 0 → exec (.flashErase k) s = .next (settle (((flashErase (u.get idFlashAddrOffset) 0x10000 u).set idFlashStatBusy 1).onHost
        (fun h => { h with mbox := some (3, u.get idFlashAddrOffset, 0x10000, 0) })))) ∧
      (∀ r, mboxReason u 3 k.toNat = r + 1 → exec (.flashErase k) s = .next (settle (raise idFlashStatRefused (u.set idFlashStatReason (r + 1)))))) ∧
  (∀ (k : BitVec 16) (s u : State), idAnswers s = true → s.get idFuseArgFuseOp = 0 → u = s.set idFlashCtlOp 4 →
      (mboxReason u 4 k.toNat = 0 → exec (.fuseKeyHash k) s = .next (settle (((u.onBoot (fun b => { b with keyHash := Tab.set 0 b.keyHash (u.get idFuseArgSlot) (beNat (flashBufBytes u 0 48)) })).set idFlashStatBusy 1).onHost
        (fun h => { h with mbox := some (4, u.get idFuseArgFuseOp + 4 * u.get idFuseArgSlot + 16 * u.get idFuseArgSvn, u.boot.svn, 0) })))) ∧
      (∀ r, mboxReason u 4 k.toNat = r + 1 → exec (.fuseKeyHash k) s = .next (settle (raise idFlashStatRefused (u.set idFlashStatReason (r + 1)))))) ∧
  (∀ (k : BitVec 16) (s u : State), idAnswers s = true → s.get idFuseArgFuseOp = 1 → u = s.set idFlashCtlOp 4 →
      (mboxReason u 4 k.toNat = 0 → exec (.fuseRevoke k) s = .next (settle (((u.onBoot (fun b => { b with revoked := Nat.lor b.revoked (2 ^ u.get idFuseArgSlot) })).set idFlashStatBusy 1).onHost
        (fun h => { h with mbox := some (4, u.get idFuseArgFuseOp + 4 * u.get idFuseArgSlot + 16 * u.get idFuseArgSvn, u.boot.svn, 0) })))) ∧
      (∀ r, mboxReason u 4 k.toNat = r + 1 → exec (.fuseRevoke k) s = .next (settle (raise idFlashStatRefused (u.set idFlashStatReason (r + 1)))))) ∧
  (∀ (k : BitVec 16) (s u : State), idAnswers s = true → s.get idFuseArgFuseOp = 2 → u = s.set idFlashCtlOp 4 →
      (mboxReason u 4 k.toNat = 0 → exec (.fuseSvn k) s = .next (settle (((u.onBoot (fun b => { b with svn := u.get idFuseArgSvn })).set idFlashStatBusy 1).onHost
        (fun h => { h with mbox := some (4, u.get idFuseArgFuseOp + 4 * u.get idFuseArgSlot + 16 * u.get idFuseArgSvn, u.boot.svn, 0) })))) ∧
      (∀ r, mboxReason u 4 k.toNat = r + 1 → exec (.fuseSvn k) s = .next (settle (raise idFlashStatRefused (u.set idFlashStatReason (r + 1)))))) ∧
  (∀ (op a n r : Nat) (s w u : State), s.host.mbox = some (op, a, n, r) →
      w = ((s.onHost (fun h => { h with mbox := none })).set idFlashStatBusy 0).set idFlashStatReason r →
      u = (if r = 7 then raise idFlashStatRefused w else w) →
      (op ≠ 4 → exec .flashOpDone s = .next (settle (raiseAlert idFlashStatDone 5 u))) ∧
      (op = 4 → exec .flashOpDone s = .next (settle (raiseAlert idFlashStatDone 5 (showFuses u)))))

/-- Every command of the management port is served (R608, R609, R610, R454). While the ID block answers and the PEC matches,
IDENTITY, STATUS, REG_READ, TELEMETRY, FAULT, FLASH_BUF, FLASH_CMD and ALERT answer OK with their bytes, REG_WRITE and
LOCATE write and answer OK, RESET with its key starts a module reset, and the Alert Response Address answers the node
address and releases SMB_ALERT_N. -/
def Obligations.ManagementPortCompletes : Prop :=
  (∀ s : State, idAnswers s = true → s.host.pecErr = false → exec .identity s = .next (settle (s.emit (.mgmt 0 (leBytes 16 (s.get idUidUid) ++ leBytes 8 (s.get idPartCode) ++
        leBytes 1 (s.get idSteppingStep) ++ leBytes 1 (s.get idBootStatPhase) ++ leBytes 4 (s.get idImageVerVersion)))))) ∧
  (∀ (s : State) (x : List Byte × State), idAnswers s = true → x = mgmtWords [0x1C, 0x20, 0x100, 0x104, 0x108, 0x10C, 0x110] s →
      exec .status s = .next (settle (mgmtAnswer 0 x.1 x.2))) ∧
  (∀ (off : BitVec 32) (w : Byte) (s : State) (x : Nat × State), idAnswers s = true → mgmtForm off.toNat w.toNat = true →
      regOpen s off.toNat = true → x = regRead off.toNat (mgmtWidth w.toNat) s →
      exec (.regRead off w true) s = .next (settle (mgmtAnswer 0 (leBytes 8 x.1) x.2))) ∧
  (∀ (off : BitVec 32) (w : Byte) (v : BitVec 64) (s u : State), idAnswers s = true → mgmtForm off.toNat w.toNat = true →
      regOpen s off.toNat = true → u = wordsWrite 2 2 off.toNat (leBytes (mgmtWidth w.toNat) v.toNat) s →
      exec (.regWrite off w v true false) s = .next (settle u) ∧
      exec (.regWrite off w v true true) s = .next (settle (mgmtAnswer 0 [] u))) ∧
  (∀ (k : Byte) (s : State), idAnswers s = true → s.host.pecErr = false → mgmtWindow s = false → k.toNat < 16 →
      exec (.mgtTelemetry k true) s = .next (settle (s.emit (.mgmt 0 ((List.range 16).map
        (fun i => Tab.get 0 s.fum.last (16 * k.toNat + i))))))) ∧
  (∀ (r h : Byte) (s : State), idAnswers s = true → s.host.pecErr = false → r.toNat < 16 → h.toNat < 2 →
      exec (.fault r h true) s = .next (settle (s.emit (.mgmt 0 ((List.range 16).map
        (fun i => Tab.get 0 s.flt.buf (32 * r.toNat + 16 * h.toNat + i))))))) ∧
  (∀ (off : BitVec 16) (d : List Byte) (s u : State), idAnswers s = true → s.host.pecErr = false → off.toNat % 16 = 0 → off.toNat < 4096 → d = [] ∨ d.length = 16 →
      u = flashBufWrite off.toNat d s →
      exec (.flashBuf off d true true) s = .next (settle (u.emit (.mgmt 0 (flashBufBytes u off.toNat 16)))) ∧
      exec (.flashBuf off d true false) s = .next (settle u)) ∧
  (∀ (c a n f : BitVec 32) (s u : State), idAnswers s = true → s.host.mbox = none →
      u = mboxGo (bits c.toNat 0 3) (bits c.toNat 16 16)
        (wordWrite 2 0x10010 f.toNat (wordWrite 2 0x10008 n.toNat (wordWrite 2 0x10004 a.toNat s))) →
      exec (.flashCmd c a n f true true) s = .next (settle (mgmtAnswer 0 (mgmtWord 0x1000C u).1 (mgmtWord 0x1000C u).2))) ∧
  (∀ (r : Bool) (l : BitVec 64) (c : Bool) (s : State), idAnswers s = true →
      exec (.reset 0x5253 true r l c) s = .next (settle (moduleReset 2 l.toNat c s))) ∧
  (∀ (v : Byte) (s : State), idAnswers s = true → s.host.pecErr = false → v.toNat < 2 →
      exec (.locate v true true) s = .next (settle ((s.set idLedCtlLocate v.toNat).emit (.mgmt 0 []))) ∧
      exec (.locate v true false) s = .next (settle (s.set idLedCtlLocate v.toNat))) ∧
  (∀ s : State, idAnswers s = true → s.host.pecErr = false → exec (.alert none true true) s = .next (settle
        ((s.onHost (fun h => { h with alerts := 0, alertLow := false })).emit (.mgmt 0 (leBytes 4 s.host.alerts))))) ∧
  (∀ (m : BitVec 32) (s : State), idAnswers s = true →
      exec (.alert (some m) true false) s = .next (settle (wordWrite 2 0x10018 m.toNat s))) ∧
  (∀ s : State, idAnswers s = true → s.host.alertLow = true → exec .alertResponse s = .next (settle
        ((s.onHost (fun h => { h with alertLow := false })).emit (.value (0x30 + s.get idModuleStatMgtAddr)))))

/-- Every command of a host queue completes (R593, R594, R595, R596). The running command of a queue, well formed and
with its host data arrived, has the effect of its opcode and ends with a completion: NOP, plan, route and rule loads,
copies, arming, disarming, a detach that writes FAB_DETACH_AT and waits, a fence that is issued and one that is over,
register writes and reads. A command that accesses memory is said to complete where the channels its accesses need serve
(Served). -/
def Obligations.HostQueuesComplete : Prop :=
  (∀ (q : Fin 16) (c : List Byte) (s : State), runs q.val 0 s = some c → cmdBad c = 0 → (s.queue q.val).err = 0 → (s.queue q.val).need = 0 →
      exec (.queueNop q) s = .next (settle (ends q.val 0 0 s))) ∧
  (∀ (q : Fin 16) (c : List Byte) (s : State), runs q.val 1 s = some c → cmdBad c = 0 → (s.queue q.val).err = 0 → (s.queue q.val).need = 0 → cmdLen c = 64 + 32 * leAt (gotBytes (s.queue q.val)) 6 2 →
      exec (.planLoad q) s = .next (settle (
        let u := planWrite (standbyBank s) 0 (gotBytes (s.queue q.val)) s
        let v := if s.flag tickSwitchCtlArmed = true then u else planCheck u
        ends q.val (if v.get tickPlanStatusReason = 0 then 0 else 1) (v.get tickPlanStatusReason) v))) ∧
  (∀ (q : Fin 16) (c : List Byte) (s : State), runs q.val 2 s = some c → cmdBad c = 0 → (s.queue q.val).err = 0 → (s.queue q.val).need = 0 →
      exec (.routeLoad q) s = .next (settle (
        let u := routeCheck (routeWrite (standbyRoute s) 0 (gotBytes (s.queue q.val)) s)
        ends q.val (if u.get fabRouteStatusReason = 0 then 0 else 1) (u.get fabRouteStatusReason) u))) ∧
  (∀ (q : Fin 16) (c : List Byte) (s : State), runs q.val 3 s = some c → cmdBad c = 0 → (s.queue q.val).err = 0 → (s.queue q.val).need = 0 → (∀ e ∈ maskEngines (cmdArg0 c), ∀ i < cmdLen c / 4, ruleHeld s e (bits (cmdArg1 c) 0 10 + i) = false) →
      exec (.ruleLoad q) s = .next (settle (complete q.val 0 0 (cmdLen c / 4)
        (State.each (maskEngines (cmdArg0 c)) (fun e t => State.each (List.range (cmdLen c / 4)) (fun i t =>
          ruleWrite e (bits (cmdArg1 c) 0 10 + i) (leAt (gotBytes (s.queue q.val)) (4 * i) 4) t) t) s)))) ∧
  (∀ (q : Fin 16) (c : List Byte) (s t : State) (x : Bool × State), runs q.val 4 s = some c → cmdBad c = 0 → (s.queue q.val).err = 0 → (s.queue q.val).need = 0 →
      x = (s.queue q.val).got.foldl (fun (a : Bool × State) p => if a.1 then a else
        copyWrite (bits (cmdArg0 c) 0 1) (cmdLocal c + p.1) p.2 a.2) (false, s.onQueue q.val (fun y => { y with got := [] })) →
      t = (if x.1 = true then ends q.val 5 0 x.2 else ends q.val 0 0 x.2) → Served s t →
      exec (.copyIn q) s = .next (settle t)) ∧
  (∀ (q : Fin 16) (c : List Byte) (s t : State) (x : Bool × Bool × State), runs q.val 5 s = some c → cmdBad c = 0 → (s.queue q.val).err = 0 → (s.queue q.val).need = 0 → hostReach s = true →
      x = copyRead (bits (cmdArg0 c) 0 1) (cmdLocal c) (cmdHost c) (cmdLen c) s →
      t = ends q.val (if x.1 = true then 5 else if x.2.1 = true then 4 else 0) 0 x.2.2 → Served s t →
      exec (.copyOut q) s = .next (settle t)) ∧
  (∀ (q : Fin 16) (c : List Byte) (s : State) (u v : State), runs q.val 6 s = some c → cmdBad c = 0 → (s.queue q.val).err = 0 → (s.queue q.val).need = 0 → u = (s.set tickSwitchAtAt (cmdArg0 c)).set tickSwitchPlanId (bits (cmdArg1 c) 0 32) →
      v = after u (execArm (bitOf (cmdArg1 c) 32) u) →
      exec (.queueArm q) s = .next (settle (ends q.val (if v.flag tickSwitchCtlArmed = true then 0 else 1) 0 v))) ∧
  (∀ (q : Fin 16) (c : List Byte) (s : State), runs q.val 7 s = some c → cmdBad c = 0 → (s.queue q.val).err = 0 → (s.queue q.val).need = 0 →
      exec (.queueDisarm q) s = .next (settle (ends q.val 0 0 (disarm s)))) ∧
  (∀ (q : Fin 16) (c : List Byte) (s : State), runs q.val 8 s = some c → cmdBad c = 0 → (s.queue q.val).err = 0 → (s.queue q.val).need = 0 → (s.queue q.val).step = 0 → s.get tickCountCount < cmdArg0 c →
      exec (.queueDetach q) s = .next (settle ((s.set fabDetachAtAt (cmdArg0 c)).onQueue q.val (fun x => { x with step := 1 })))) ∧
  (∀ (q : Fin 16) (c : List Byte) (s : State) (u : State), runs q.val 9 s = some c → cmdBad c = 0 → (s.queue q.val).err = 0 → (s.queue q.val).need = 0 → bits (cmdArg0 c) 0 2 < 2 →
      (s.queue q.val).step = 0 → s.flag cohFenceBusy = false → u = fenceGo (bits (cmdArg0 c) 0 2) (s.set cohFenceMaskEngines (cmdArg1 c)) →
      exec (.fence q) s = .next (settle (u.onQueue q.val (fun x => { x with step := u.coh.fenceSeq + 1 })))) ∧
  (∀ (q : Fin 16) (c : List Byte) (s : State), runs q.val 9 s = some c → cmdBad c = 0 → (s.queue q.val).err = 0 → (s.queue q.val).need = 0 → bits (cmdArg0 c) 0 2 ≠ 3 →
      (s.queue q.val).step ≠ 0 → s.flag cohFenceBusy = false →
      exec (.fence q) s = .next (settle (ends q.val 0 (if bits (cmdArg0 c) 0 2 = 2 ∧ s.coh.fenceTimeout = true then 1 else 0) s))) ∧
  (∀ (q : Fin 16) (c : List Byte) (s : State), runs q.val 10 s = some c → cmdBad c = 0 → (s.queue q.val).err = 0 → (s.queue q.val).need = 0 →
      exec (.writeReg q) s = .next (settle (ends q.val 0 0 (barWrite 3 (cmdLocal c % 2 ^ 28) (leBytes (cmdLen c) (cmdArg0 c)) s)))) ∧
  (∀ (q : Fin 16) (c : List Byte) (s : State) (v : Nat), runs q.val 11 s = some c → cmdBad c = 0 → (s.queue q.val).err = 0 → (s.queue q.val).need = 0 →
      (barRead (cmdLocal c % 2 ^ 28) (cmdLen c) s).1 = some v →
      exec (.readReg q) s = .next (settle (complete q.val 0 0 v (barRead (cmdLocal c % 2 ^ 28) (cmdLen c) s).2)))

/-- Every event of the host port completes (R585, R586, R587, R588, R589, R591, R596, R603, R604, R501). Writes of a
queue configuration, doorbell and CQ_HEAD reach BAR0; a completion of a host read, good or failed, and its timeout are
taken; host memory is read and written at the memory-side cache; configuration requests are answered; D3hot is entered;
the link comes up, goes down and is hot-reset. A command that accesses memory is said to complete where the channels its
accesses need serve (Served). -/
def Obligations.HostPortCompletes : Prop :=
  (∀ (q : Fin 16) (v : BitVec 32) (s : State), barReach s = true →
      exec (.queueEnable q v) s = .next (settle (barWrite 3 (0x1a00100 + 0x40 * q.val + 0x10) (leBytes 4 v.toNat) s))) ∧
  (∀ (q : Fin 16) (v : BitVec 32) (s : State), barReach s = true →
      exec (.sqDoorbell q v) s = .next (settle (barWrite 3 (0x1a00100 + 0x40 * q.val + 0x14) (leBytes 4 v.toNat) s))) ∧
  (∀ (q : Fin 16) (v : BitVec 32) (s : State), barReach s = true →
      exec (.cqHeadWrite q v) s = .next (settle (barWrite 3 (0x1a00100 + 0x40 * q.val + 0x1C) (leBytes 4 v.toNat) s))) ∧
  (∀ (t : Fin 1024) (d : List Byte) (s : State) (r : Nat × Nat × Nat × Nat × Nat), readOf s t.val = some r →
      exec (.hostReadCompletion t 0 d) s = .next (settle (readArrives r d (readEnds t.val s))) ∧
      ∀ k : Fin 4, k ≠ 0 → exec (.hostReadCompletion t k d) s = .next (settle (readFails r k.val (readEnds t.val s)))) ∧
  (∀ (t : Fin 1024) (s : State) (r : Nat × Nat × Nat × Nat × Nat), readOf s t.val = some r →
      exec (.hostReadTimeout t) s = .next (settle (readFails r 4 (aerLog aerTimeout ((readEnds t.val s).bump hstErrCplTimeout 1))))) ∧
  (∀ (off : BitVec 41) (n : Nat) (d : List Byte) (s t : State), barReach s = true → barTwoOpen s = true →
      (t = (useWrite 583 off.toNat d (s.get hstCtlHint) 1 s).2 → Served s t →
        exec (.hostMemoryRequest true off n d false) s = .next (settle t)) ∧
      exec (.hostMemoryRequest true off n d true) s = .next (settle (aerLog aerPoison (s.bump hstErrPoisonRx 1)))) ∧
  (∀ (off : BitVec 41) (n : Nat) (d : List Byte) (p : Bool) (s t : State) (x : List Byte × Bool × Bool × State), barReach s = true →
      barTwoOpen s = true → x = useRead 583 off.toNat n (s.get hstCtlHint) 1 s →
      t = (if x.2.2.1 = true then x.2.2.2.bump hstErrPoisonTx 1 else x.2.2.2).emit (.hostData x.1 x.2.2.1) → Served s t →
      exec (.hostMemoryRequest false off n d p) s = .next (settle t)) ∧
  (∀ (i : Nat) (v : BitVec 32) (s : State),
      (idAnswers s = false → ∀ w, exec (.configRequest i w v) s = .next (settle (s.emit (.hostStatus 2)))) ∧
      (idAnswers s = true → exec (.configRequest i true v) s = .next (settle (cfgWrite i v.toNat s)) ∧
        exec (.configRequest i false v) s = .next (settle ((cfgValue i s).2.emit (.value (cfgValue i s).1))))) ∧
  (∀ s : State, idAnswers s = true → ∃ t, exec .d3hot s = .next t ∧ t.host.d3 = true ∧ t.regs = s.regs ∧ t.mem = s.mem ∧ t.fab = s.fab ∧
        t.str = s.str ∧ t.upe = s.upe) ∧
  (∀ (k : Fin 16) (w : Fin 32) (s : State), s.mod.seq = 8 → exec (.hostLinkUp k w) s =
        .next (settle (hostBack (((s.set hstStatusUp 1).set hstStatusSpeed k.val).set hstStatusWidth w.val)))) ∧
  (∀ s : State, s.flag hstStatusUp = true → ∃ t, exec .linkDown s = .next t ∧ t.get hstEvtLinkDown = 1 ∧ t.get hstStatusUp = 0 ∧
        t.host.queues = [] ∧ t.host.reads = [] ∧ t.mem = s.mem ∧ t.fab = s.fab ∧ t.str = s.str ∧ t.upe = s.upe) ∧
  (∀ s : State, idAnswers s = true → exec .hotReset s = .next (settle (linkLost (hostFresh s))) ∧
      (hostFresh s).host.msix = [] ∧ (hostFresh s).host.msixPend = 0 ∧ ∀ f : Fld, 0x1a00000 ≤ f.reg → f.reg + 8 ≤ 0x1b00000 → f.lsb < 64 →
        (hostFresh s).get f = f.reset)

/-- Every register access of the host completes (R2, R4, R5, R11, R12, R585). While the ID block answers and the function is not in
D3hot, a write reaches BAR0, a read answers the value of the register, or Unsupported Request for a shape that is not
served; a W1C bit that hardware sets in the cycle of a write is set after it (R11); an RC register is cleared by the read and
then takes the updates of the same cycle. -/
def Obligations.RegisterAccessesComplete : Prop :=
  (∀ (a : Nat) (d : List Byte) (s : State), barReach s = true →
      exec (.registerWrite a ⟨d, []⟩) s = .next (settle (barWrite 3 (a % 2 ^ 28) d s))) ∧
  (∀ (a : Nat) (w : WriteData) (fs : List Fld) (s t : State), barReach s = true → fs = sameSets (a % 2 ^ 28) w.sets →
      t = State.each fs (fun f t => t.set f 1) (barWrite 3 (a % 2 ^ 28) w.bytes (State.each fs raise s)) →
      exec (.registerWrite a w) s = .next (settle t) ∧ ∀ f ∈ fs, t.get f = 1 % 2 ^ f.width) ∧
  (∀ (a n : Nat) (s u : State), barReach s = true → u = hostAnswer (barRead (a % 2 ^ 28) n s) →
      exec (.rcRead a n []) s = .next (settle u)) ∧
  (∀ (a n v : Nat) (s : State) (r : Reg) (f : Fld), barReach s = true → regAt (a % 2 ^ 28) = some r →
      r.flds.filter (fun f => f.acc == .rc && f != rngSeedWord) = [f] →
      exec (.rcRead a n [v]) s = .next (settle (rcUpdate f v (hostAnswer (barRead (a % 2 ^ 28) n s))))) ∧
  (∀ (a : Nat) (s : State), barReach s = true →
      exec (.latchedLowWordRead a) s = .next (settle (hostAnswer (barRead (a % 2 ^ 28) 4 s))))

/-- A coherent write reads back, and no other byte changes (R175, R427, R436). In every state whose cached lines and dirty
copies are whole, bytes written by a coherent agent at served addresses read back as written (in a DEST range of a running
row-logic batch as the bytes of a free value, R267), every byte outside them reads as before, and no register changes but
the counts of snoops, of guarded accesses and of the bytes of a partition. -/
def Obligations.CoherentWriteReadsBack : Prop :=
  ∀ (s : State) (a : Nat) (bs : List Byte), LinesWhole s → (∀ i < bs.length, refusal s (a + i) = 0) →
    (∀ i < bs.length, nodeByte (nodeWrite a bs s) (a + i) =
      (if guardKind s a bs.length = 2 then leBytes bs.length s.takeFree.1 else bs).getD i 0) ∧
    (∀ x, x < a ∨ a + bs.length ≤ x → nodeByte (nodeWrite a bs s) x = nodeByte s x) ∧
    (∀ f : Fld, f.key ∉ [cohSnoopsCount.key, rlgGuardCount.key, rlgEvtGuard.key] → (∀ p, f.key ≠ (memPartBytesCount p).key) →
      (nodeWrite a bs s).get f = s.get f)

/-- A write of refused addresses changes no byte (R175). In every state whose cached lines and dirty copies are whole, a
coherent write whose every byte lies outside the enabled partitions leaves every byte of memory reading as before. -/
def Obligations.RefusedWriteStoresNothing : Prop :=
  ∀ (s : State) (a : Nat) (bs : List Byte), LinesWhole s → (∀ i < bs.length, refusal s (a + i) ≠ 0) →
    ∀ x, nodeByte (nodeWrite a bs s) x = nodeByte s x

/-- A remote WRITE stores its bytes at the memory-side cache and nothing else (R107, R111, R437). A remote WRITE of the memory
region with hint STREAM that passes its checks, at lines where nothing is open and that are cached or whose channels serve,
with no error held and no row-logic range watched, answers a next state in which the addressed bytes, as the memory-side
cache holds them, are the packet's data, every other byte is as before, and no engine's L1, no engine and no stream context
has changed. -/
def Obligations.RemoteWriteStores : Prop :=
  ∀ (p : Fin 16) (pkt : List Byte) (s u : State), LinesWhole s → u = take p.val pkt s → forUs s pkt = true → pktOp pkt = 2 →
    requestStatus u pkt = 0 → pktRegion pkt = 0 → pktHint pkt = 0 → servedRange u (pktOff pkt) (16 * pktLen pkt) = true →
    u.rlg.cover = [] → u.care.latent = [] → u.care.due = [] →
    (∀ i < 16 * pktLen pkt, lineQuiet u ((pktOff pkt + i) / 128) = true ∧
      ((cached u ((pktOff pkt + i) / 128)).isSome = true ∨ channelServes u (pktOff pkt + i) = true)) →
    ∃ t, exec (.write p pkt) s = .next t ∧
      (∀ i < 16 * pktLen pkt, cacheByte t (pktOff pkt + i) = (pktData pkt).getD i 0) ∧
      (∀ x, x < pktOff pkt ∨ pktOff pkt + 16 * pktLen pkt ≤ x → cacheByte t x = cacheByte s x) ∧
      t.coh.l1 = s.coh.l1 ∧ t.upe = s.upe ∧ t.str = s.str

/-- Only one fence of COH_FENCE runs at a time (R442). A GO of any kind while BUSY is 1, by its command or by a register
write, is dropped and sets COH_FENCE.REFUSED: BUSY and KIND stay, and no fence, request or byte of memory changes. A fence
that completes clears BUSY and sets DONE and COH_EVT.FENCE_DONE. -/
def Obligations.OneFenceAtATime : Prop :=
  (∀ s : State, s.flag cohFenceBusy = true → ∀ c ∈ [Instr.engineFenceWb, .engineFenceWbinv, .fabricFence],
    ∃ t, exec c s = .next t ∧ t.get cohFenceRefused = 1 ∧ (∀ f : Fld, f.key ≠ cohFenceRefused.key → t.get f = s.get f) ∧
      t.coh = s.coh ∧ t.fab = s.fab ∧ t.mem = s.mem) ∧
  (∀ (s : State) (v : Nat), barReach s = true → regOpen s 0x1700004 = true → s.rst.held = false → s.flag cohFenceBusy = true → v < 2 ^ 32 →
    bitOf v 0 = true → ∃ t, exec (.registerWrite 0x1700004 ⟨leBytes 4 v, []⟩) s = .next t ∧ t.get cohFenceRefused = 1 ∧
      t.get cohFenceBusy = 1 ∧ t.get cohFenceKind = s.get cohFenceKind % 4 ∧ t.coh = s.coh ∧ t.fab = s.fab ∧ t.mem = s.mem) ∧
  (∀ s : State, s.flag cohFenceBusy = true → s.get cohFenceKind < 2 →
    (∀ e ∈ enginesOf s.coh.fenceEngines, (s.l1 e).wb = [] ∧ s.get (upeStatState e) ≠ 3) →
    ∃ t, exec .engineFenceComplete s = .next t ∧ t.get cohFenceBusy = 0 ∧ t.get cohFenceDone = 1 ∧ t.get cohEvtFenceDone = 1) ∧
  (∀ s : State, s.flag cohFenceBusy = true → s.get cohFenceKind = 2 → (∀ r ∈ s.fab.reqs, r.fenced = false) →
    ∃ t, exec .fabricFenceComplete s = .next t ∧ t.get cohFenceBusy = 0 ∧ t.get cohFenceDone = 1 ∧ t.get cohEvtFenceDone = 1)

/-- A snoop response without an open snoop is discarded and reported (R449). A response of any kind whose tag matches no open
snoop sets COH_EVT.PROTOCOL with CAUSE 1 and is taken off the network with no snoop and no transaction changed; a RSP_GONE
that matches a STALE snoop only retires it, counts COH_CROSS.CLEAN and lets the line go on. Requests of the line that wait in
the pending queue with nothing open on it then go on (R429). -/
def Obligations.UnmatchedResponses : Prop :=
  (∀ (e : Fin 64) (sl : Fin 32) (t : Fin 64) (l : BitVec 41) (s : State), snoopOf s sl.val t.val = none →
    ∀ k ∈ [(Instr.rspGone e sl t l, MsgKind.rspGone), (.rspInv e sl t l, .rspInv), (.rspInvS e sl t l, .rspInvS),
        (.rspData e sl t l, .rspData), (.rspDataS e sl t l, .rspDataS)],
    ∃ u, exec k.1 s = .next (settle (pumpLine l.toNat u)) ∧ (lineQueued s l.toNat = false → pumpLine l.toNat u = u) ∧
      u.get cohEvtProtocol = 1 ∧ u.get cohFaultCause = 1 ∧ u.coh.snoops = s.coh.snoops ∧ u.coh.txns = s.coh.txns ∧
      u.coh.net = (match nextMsg s k.2 e.val sl.val t.val l.toNat with | some m => s.coh.net.erase m | none => s.coh.net)) ∧
  (∀ (e : Fin 64) (sl : Fin 32) (t : Fin 64) (l : BitVec 41) (s : State) (x : Snoop) (m : CMsg), snoopOf s sl.val t.val = some x →
    x.stale = true → nextMsg s .rspGone e.val sl.val t.val l.toNat = some m →
    exec (.rspGone e sl t l) s =
      .next (settle (pumpLine l.toNat (advance x.line ((dropSnoop x (takeMsg m s)).bump cohCrossClean 1)))))

/-- An unassigned offset reads 0 and drops writes, but for the bring-up window and P2 (R617). At every aligned offset of BAR0
that the index assigns to no register and no window, a host read answers 0 and a host write of a word changes nothing and
counts nothing. Where the bring-up window or P2 shuts the offset out, those rules take precedence: a read answers all
ones, a write is dropped and counted in ID_BOOT_DROPS. -/
def Obligations.UnassignedOffsets : Prop :=
  ∀ (o : Nat) (s : State), o < 2 ^ 28 → o % 4 = 0 → barReach s = true → windowOf o = none → regAt o = none →
    (regOpen s o = true → exec (.latchedLowWordRead o) s = .next (settle (s.emit (.value 0))) ∧
      ∀ v, exec (.registerWrite o ⟨leBytes 4 v, []⟩) s = .next (settle s)) ∧
    (regOpen s o = false → exec (.latchedLowWordRead o) s = .next (settle (s.emit (.value 0xFFFFFFFF))) ∧
      ∀ v, exec (.registerWrite o ⟨leBytes 4 v, []⟩) s = .next (settle (s.bump idBootDropsWrites 1)))

/-- A read of the low word latches the high word (R5). For every 64-bit register whose fields are all RO or RC, a 32-bit read
of the low word answers it and latches the high word: the next 32-bit read of the high word, from any later state that has
kept the latch, answers the high word as it stood at the first read and changes no register. -/
def Obligations.HighWordLatched : Prop :=
  ∀ (o : Nat) (r : Reg) (s : State), o + 4 < 2 ^ 28 → o % 8 = 0 → regAt o = some r → r.off = o → regAt (o + 4) = some r →
    windowOf o = none → windowOf (o + 4) = none → latches r = true → barReach s = true → regOpen s o = true →
    ∃ t, exec (.latchedLowWordRead o) s = .next t ∧ t.sent = .value (regValue r s % 2 ^ 32) :: s.sent ∧
      ∀ u, u.host.latch = t.host.latch → barReach u = true → regOpen u (o + 4) = true →
        ∃ v, exec (.latchedLowWordRead (o + 4)) u = .next v ∧ v.sent = .value (regValue r s / 2 ^ 32 % 2 ^ 32) :: u.sent ∧
          v.regs = u.regs

/-- BAR0 requests of an unserved size or alignment have no effect (R585, R4). A host write that is not 4 to 128 bytes in
whole, aligned words changes nothing and is counted in HST_ERR.BAR0_DROP; a host read that is neither an aligned read of 4
or 8 bytes nor one of 1 to 3 bytes within a word is answered with Unsupported Request and changes nothing else. -/
def Obligations.MalformedRequests : Prop :=
  ∀ (o : Nat) (s : State), o < 2 ^ 28 → barReach s = true → regOpen s o = true →
    (∀ d : List Byte, ¬ (4 ≤ d.length ∧ d.length ≤ 128 ∧ d.length % 4 = 0 ∧ o % 4 = 0) →
      exec (.registerWrite o ⟨d, []⟩) s = .next (settle (s.bump hstErrBar0Drop 1))) ∧
    (∀ n : Nat, ¬ ((n = 4 ∨ n = 8) ∧ o % n = 0) → ¬ (1 ≤ n ∧ n ≤ 3 ∧ o % 4 + n ≤ 4) →
      exec (.rcRead o n []) s = .next (settle (s.emit (.hostStatus 1))))

/-- RW, W1C, RO, RC and WO act as their codes say (R2). A host write sets the RW field of ID_BOOT_CTL and nothing else; of
TICK_EVT it clears exactly the event bits written 1 and changes nothing else; of ID_PART it changes nothing. A host read
of ID_BOOT_DROPS answers the count and clears it, and nothing else; a read of RST_CTL, whose fields are WO, answers 0 and
changes no register. -/
def Obligations.AccessCodesAct : Prop :=
  ∀ (s : State) (v : Nat), barReach s = true → s.rst.held = false → v < 2 ^ 32 →
    (∃ t, exec (.registerWrite 0x38 ⟨leBytes 4 v, []⟩) s = .next t ∧ t.get idBootCtlSlotPref = v % 4 ∧
      (∀ f : Fld, f.key ≠ idBootCtlSlotPref.key → t.get f = s.get f) ∧ t.mem = s.mem ∧ t.host = s.host ∧ t.sent = s.sent) ∧
    (regOpen s 0x100058 = true → ∃ t, exec (.registerWrite 0x100058 ⟨leBytes 4 v, []⟩) s = .next t ∧
      (∀ f ∈ [tickEvtLockLost, tickEvtSwitchMismatch, tickEvtTakeover, tickEvtLate],
        t.get f = if bitOf v f.lsb then 0 else s.get f % 2) ∧
      (∀ f : Fld, (∀ g ∈ [tickEvtLockLost, tickEvtSwitchMismatch, tickEvtTakeover, tickEvtLate], f.key ≠ g.key) → t.get f = s.get f) ∧
      t.mem = s.mem ∧ t.host = s.host ∧ t.sent = s.sent) ∧
    exec (.registerWrite 0x10 ⟨leBytes 4 v, []⟩) s = .next (settle s) ∧
    (∃ t, exec (.rcRead 0x24 4 []) s = .next t ∧ t.sent = .value (s.get idBootDropsWrites % 2 ^ 32) :: s.sent ∧
      t.get idBootDropsWrites = 0 ∧ (∀ f : Fld, f.key ≠ idBootDropsWrites.key → t.get f = s.get f) ∧ t.mem = s.mem ∧ t.host = s.host) ∧
    (regOpen s 0x1900000 = true → ∃ t, exec (.rcRead 0x1900000 4 []) s = .next t ∧ t.sent = .value 0 :: s.sent ∧ t.regs = s.regs)

/-- A write of RST_CTL without the key or with other than one action is refused (R538). A host write of RST_CTL whose KEY is
not 0x5253, or that does not set exactly one of MODULE, COMPUTE and PLAN, sets RST_EVT.REFUSED and changes no other
register, no reset in progress, no memory, no tick state and no engine. -/
def Obligations.ResetNeedsKey : Prop :=
  ∀ (s : State) (v : Nat), barReach s = true → regOpen s 0x1900000 = true → s.rst.held = false → v < 2 ^ 32 →
    (bits v 16 16 ≠ 0x5253 ∨ bits v 0 3 ∉ [1, 2, 4]) →
    ∃ t, exec (.registerWrite 0x1900000 ⟨leBytes 4 v, []⟩) s = .next t ∧ t.get rstEvtRefused = 1 ∧
      (∀ f : Fld, f.key ≠ rstEvtRefused.key → t.get f = s.get f) ∧ t.rst = s.rst ∧ t.mem = s.mem ∧ t.tick = s.tick ∧ t.upe = s.upe

/-- A fault that is never coalesced is recorded at once in TEL_FAULT_BUF (R572, R573, R574). A LATE, STEP, THERMAL or LINK
fault advances SEQ by one, sets TEL_FAULT_EVT.RECORD, and writes the 32 bytes of its record into slot SEQ mod 16 of
TEL_FAULT_BUF and into no other slot. Nothing more is recorded, unless its write to the ring is refused: a memory-map fault
of R175 follows then. -/
def Obligations.FaultRecordBuffered : Prop :=
  ∀ (c : FltClass) (code unit info action : Nat) (claim : Option Nat) (s u : State),
    (c = .late ∨ c = .step ∨ c = .thermal ∨ c = .link) → u = s.set telFaultSeqSeq (s.get telFaultSeqSeq + 1) →
    (faultCore c code unit info action claim s).get telFaultSeqSeq = (s.get telFaultSeqSeq + 1) % 2 ^ 32 ∧
    (faultCore c code unit info action claim s).get telFaultEvtRecord = 1 ∧
    (∀ i < 32, Tab.get 0 (faultCore c code unit info action claim s).flt.buf (32 * (u.get telFaultSeqSeq % 16) + i) =
      (faultBytes u c.code code unit 0 info action (lockTick s) claim).getD i 0) ∧
    (∀ j, (j < 32 * (u.get telFaultSeqSeq % 16) ∨ 32 * (u.get telFaultSeqSeq % 16) + 32 ≤ j) →
      Tab.get 0 (faultCore c code unit info action claim s).flt.buf j = Tab.get 0 s.flt.buf j) ∧
    (s.get telFaultRingCtlEntries = 0 ∨ isReady s = false ∨
        refusal s (s.get telFaultRingBaseAddr + 32 * (s.get telFaultHeadIndex % s.get telFaultRingCtlEntries)) = 0 →
      fault c code unit info action claim s = faultCore c code unit info action claim s)

/-- What a lane instruction of a rule program leaves unchanged (R319, R323, R325). When an instruction of a rule program that
accesses no L1 array answers a next state, memory, the caches, the streams, the KV service, the matrix array, every other
engine, and every register but the engine's COMPUTE count are what they were. -/
def Obligations.RuleInstructionsFrame : Prop :=
  ∀ (e : Fin 64) (c : Instr) (s t : State), c ∈ [Instr.ruleNop e, .vadd e, .vsub e, .vmul e, .vfma e, .vfnma e, .vmax e, .vmin e, .vabs e,
      .vneg e, .vsign e, .vsel e, .vcmplt e, .vrcp e, .vsqrt e, .vrsqrt e, .vdiv e, .vrnd e, .emset e, .emadd e, .emupd e, .emrnd e,
      .srbf e, .rnbf e, .qstat e] → exec c s = .next t →
    t.mem = s.mem ∧ t.coh = s.coh ∧ t.str = s.str ∧ t.kvs = s.kvs ∧ t.mxa = s.mxa ∧ t.sent = s.sent ∧ t.now = s.now ∧
      (∀ k : Nat, k ≠ e.val → t.eng k = s.eng k) ∧ (∀ f : Fld, f.key ≠ (upeComputeCycCount e.val).key → t.get f = s.get f)

/-- What an address or loop instruction of a stream program leaves unchanged (R279, R280, R281). When NOP, MOVI, ADD, ADDI,
MULI, SETL, SETLR or ENDL of a stream program whose context holds no refused line answers a next state, memory, the
caches, the engines, row logic, the translations, every other context, the context's tile queues and every register
outside the stream blocks are what they were. -/
def Obligations.StreamInstructionsFrame : Prop :=
  ∀ (k : Fin 512) (c : Instr) (s t : State), c ∈ [Instr.streamNop k, .movi k, .streamAdd k, .addi k, .muli k, .setl k, .setlr k, .endl k] →
    (s.ctx k.val).refused = none → (∀ p ∈ s.str.ctx, p.1 < 512) → exec c s = .next t →
    t.mem = s.mem ∧ t.coh = s.coh ∧ t.upe = s.upe ∧ t.rlg = s.rlg ∧ t.tlb = s.tlb ∧ t.sent = s.sent ∧ t.now = s.now ∧
      (∀ j : Nat, j ≠ k.val → t.ctx j = s.ctx j) ∧ (t.ctx k.val).inq = (s.ctx k.val).inq ∧ (t.ctx k.val).outq = (s.ctx k.val).outq ∧
      (∀ f : Fld, f.key < 8 * 0xd00000 ∨ 8 * 0x1000000 ≤ f.key → t.get f = s.get f)

/-- A row-logic command writes its destination rows and no other byte (R247, R250, R252, R254). With no fault ring, no decode
outcome given, no error held and no remap due, a bitwise row command or a store of the accumulator leaves every byte of the tiers outside the
destination row of the selected banks as it was; NOP and the commands that write accumulators only leave every byte as it
was. The bytes of a row are those that the decode of the row's frame gives. -/
def Obligations.RowCommandsFrame : Prop :=
  ∀ (k : Fin 8) (s t : State) (b : RlgBatch) (w : List Byte), RowNext k.val s b w → s.get telFaultRingCtlEntries = 0 →
    s.care.latent = [] → s.care.due = [] →
    (∀ c ∈ [Instr.copy k [], .not k [], .and k [], .or k [], .xor k [], .maj k [], .accStore k], exec c s = .next t →
      ∀ a, (∀ x ∈ rowBanks k.val b w, ∀ i < 1024, a ≠ addrHbm s x.1 x.2 (rlDst w) i) → tierByte t a = tierByte s a) ∧
    (∀ c ∈ [Instr.rlgNop k, .accClear k, .accLoad k [], .accAdd k [], .chainMove k, .chainAdd k], exec c s = .next t →
      ∀ a, tierByte t a = tierByte s a)

/-- What a snoop leaves unchanged at and beyond its L1 (R427, R433). When a snoop is taken by an L1, every engine and every open
transaction and snoop are what they were. Where the L1 finds no error of its store in the line, memory and the memory-side
cache, every register, every other L1, and of this L1 the write-back buffer and every other line are what they were. -/
def Obligations.SnoopsFrame : Prop :=
  ∀ (e : Fin 64) (sl : Fin 32) (g : Fin 64) (l : BitVec 41) (c : Instr) (s t : State),
    c ∈ [Instr.snpShare e sl g l, .snpInv e sl g l, .snpDiscard e sl g l] → exec c s = .next t →
    t.upe = s.upe ∧ t.coh.txns = s.coh.txns ∧ t.coh.snoops = s.coh.snoops ∧
      (storeBad s (2 + e.val) l.toNat = 0 → t.mem = s.mem ∧ t.regs = s.regs ∧
        (∀ k : Nat, k ≠ e.val → t.l1 k = s.l1 k) ∧ (t.l1 e.val).wb = (s.l1 e.val).wb ∧
        (∀ x, x ≠ l.toNat → l1Line t e.val x = l1Line s e.val x))

/-- What D3hot and the loss of the host link leave unchanged (R586, R603). D3hot changes no register and no memory, fabric,
tick, engine, stream, reset or flash state. The loss of the host link changes none of these but registers of the host
block's status, event and queues. -/
def Obligations.HostLinkFrame : Prop :=
  ∀ (s t : State), (exec .d3hot s = .next t → t.mem = s.mem ∧ t.regs = s.regs ∧ t.fab = s.fab ∧ t.tick = s.tick ∧ t.upe = s.upe ∧
      t.str = s.str ∧ t.rst = s.rst ∧ t.flash = s.flash) ∧
    (exec .linkDown s = .next t → t.mem = s.mem ∧ t.fab = s.fab ∧ t.tick = s.tick ∧ t.upe = s.upe ∧ t.str = s.str ∧ t.rst = s.rst ∧
      t.flash = s.flash ∧ (∀ f : Fld, f.key < 8 * 0x1a00000 ∨ 8 * 0x1a00500 ≤ f.key → t.get f = s.get f))

/-- An RC read that meets a hardware update returns the value before it and keeps the update (R12). For every register with RC
fields, a read of the whole register that hardware updates of its fields meet in the same cycle answers the value before
the updates, and afterwards each field holds exactly its update, applied after the clear (a count past the largest value
is as log entry 5 says). -/
def Obligations.RcReadMeetsUpdate : Prop :=
  ∀ (o n : Nat) (same : List Nat) (r : Reg) (fs : List Fld) (s : State), o < 2 ^ 28 → (n = 4 ∨ n = 8) → o % n = 0 →
    barReach s = true → regOpen s o = true → windowOf o = none → regAt o = some r → r.off = o → r.size = n → o ≠ rngSeedWord.reg →
    fs = r.flds.filter (fun g => g.acc == .rc && g != rngSeedWord) → (fs.map Fld.key).Nodup → same.length = fs.length →
    (∀ f ∈ fs, f.lsb < 8 * n ∧ 0 < f.width) →
    ∃ t, exec (.rcRead o n same) s = .next t ∧ t.sent = .value (regValue r s % 2 ^ (8 * n)) :: s.sent ∧
      ∀ p ∈ fs.zip same, t.get p.1 = if (List.range 8).any (fun k => p.1 == hbmTempMax k) = true ∨ p.1 = cohQueueHigh
        then p.2 % 2 ^ p.1.width else counted p.1 p.2 % 2 ^ p.1.width

/-- A switch can be disarmed until the node is committed (R36). DISARM of a node that is not committed clears ARMED and
changes nothing else; of a committed node it changes nothing. -/
def Obligations.DisarmUntilCommitted : Prop :=
  ∀ s : State, (s.flag tickSwitchCtlCommitted = false → ∃ t, exec .disarm s = .next t ∧ t.get tickSwitchCtlArmed = 0 ∧
      (∀ f : Fld, f.key ≠ tickSwitchCtlArmed.key → t.get f = s.get f) ∧ t.tick = s.tick ∧ t.mem = s.mem) ∧
    (s.flag tickSwitchCtlCommitted = true → exec .disarm s = .next (settle s))

/-- Commands that neither store nor record a fault leave every byte of the tiers unchanged (R174, R180). For each of the
commands that storesNothing lists (register reads, the waits and messages of links and membership, partition and plan
control, lane instructions of rule programs, fences, the mailbox, the management port, the host link and others),
a next state reads every byte of both tiers as before. -/
def Obligations.TierUntouched : Prop :=
  ∀ (c : Instr) (s t : State), storesNothing c = true → exec c s = .next t → ∀ a, tierByte t a = tierByte s a
end

