-- ==== Sys2Proof/Laws/Tab.lean ====
section
/-! SUPPORT. The laws of sparse tables: read after write, and the canonical form. -/

namespace Sys2Proof.Machine

variable {α : Type}

@[simp] theorem Tab.get_nil (d : α) (k : Nat) : Tab.get d [] k = d := rfl

theorem Tab.get_erase_self (d : α) (t : Tab α) (k : Nat) : Tab.get d (Tab.erase t k) k = d := by
  induction t with
  | nil => rfl
  | cons p r ih => obtain ⟨j, v⟩ := p; by_cases h : j = k <;> simp [Tab.erase, Tab.get, h, ih]

theorem Tab.get_erase_ne (d : α) (t : Tab α) {k j : Nat} (h : j ≠ k) : Tab.get d (Tab.erase t k) j = Tab.get d t j := by
  induction t with
  | nil => rfl
  | cons p r ih =>
    obtain ⟨i, v⟩ := p
    by_cases hk : i = k
    · subst hk; simp [Tab.erase, Tab.get, ih, Ne.symm h]
    · by_cases hj : i = j <;> simp_all [Tab.erase, Tab.get]

theorem Tab.get_insert_self (d : α) (t : Tab α) (k : Nat) (v : α) : Tab.get d (Tab.insert t k v) k = v := by
  induction t with
  | nil => simp [Tab.insert, Tab.get]
  | cons p r ih =>
    obtain ⟨j, w⟩ := p
    by_cases h : k < j
    · simp [Tab.insert, Tab.get, h]
    · by_cases hk : j = k <;> simp [Tab.insert, Tab.get, h, hk, ih]

theorem Tab.get_insert_ne (d : α) (t : Tab α) {k j : Nat} (v : α) (h : j ≠ k) :
    Tab.get d (Tab.insert t k v) j = Tab.get d t j := by
  induction t with
  | nil => simp [Tab.insert, Tab.get, Ne.symm h]
  | cons p r ih =>
    obtain ⟨i, w⟩ := p
    simp only [Tab.insert]
    split
    · simp [Tab.get, Ne.symm h]
    · split
      · rename_i _ hk; subst hk; simp [Tab.get, Ne.symm h]
      · simp only [Tab.get, ih]

/-- A read of the key written gives the value written. -/
@[simp] theorem Tab.get_set_self [DecidableEq α] (d : α) (t : Tab α) (k : Nat) (v : α) : Tab.get d (Tab.set d t k v) k = v := by
  unfold Tab.set
  split
  · simp_all [Tab.get_erase_self]
  · exact Tab.get_insert_self d t k v

/-- A write leaves every other key alone. -/
theorem Tab.get_set_ne [DecidableEq α] (d : α) (t : Tab α) {k j : Nat} (v : α) (h : j ≠ k) :
    Tab.get d (Tab.set d t k v) j = Tab.get d t j := by
  unfold Tab.set
  split
  · exact Tab.get_erase_ne d t h
  · exact Tab.get_insert_ne d t v h

/-- A table whose default differs by key: the law that `State.get` and `State.set` use. -/
theorem Tab.get_set_ne_default [DecidableEq α] (d e : α) (t : Tab α) {k j : Nat} (v : α) (h : j ≠ k) :
    Tab.get d (Tab.set e t k v) j = Tab.get d t j := by
  unfold Tab.set
  split
  · exact Tab.get_erase_ne d t h
  · exact Tab.get_insert_ne d t v h

@[simp] theorem Tab.get_upd_self [DecidableEq α] (d : α) (t : Tab α) (k : Nat) (f : α → α) :
    Tab.get d (Tab.upd d t k f) k = f (Tab.get d t k) := by simp [Tab.upd]

theorem Tab.get_upd_ne [DecidableEq α] (d : α) (t : Tab α) {k j : Nat} (f : α → α) (h : j ≠ k) :
    Tab.get d (Tab.upd d t k f) j = Tab.get d t j := Tab.get_set_ne d t _ h

theorem Tab.wfFrom_mono [DecidableEq α] (d : α) {lo lo' : Option Nat} (t : Tab α)
    (h : ∀ k, Tab.above lo k = true → Tab.above lo' k = true) :
    Tab.wfFrom d lo t = true → Tab.wfFrom d lo' t = true := by
  cases t with
  | nil => simp [Tab.wfFrom]
  | cons p r =>
    obtain ⟨k, v⟩ := p
    simp only [Tab.wfFrom, Bool.and_eq_true]
    rintro ⟨⟨h1, h2⟩, h3⟩
    exact ⟨⟨h k h1, h2⟩, h3⟩

theorem Tab.wfFrom_erase [DecidableEq α] (d : α) (lo : Option Nat) (t : Tab α) (k : Nat) (h : Tab.wfFrom d lo t = true) :
    Tab.wfFrom d lo (Tab.erase t k) = true := by
  induction t generalizing lo with
  | nil => rfl
  | cons p r ih =>
    obtain ⟨j, v⟩ := p
    simp only [Tab.wfFrom, Bool.and_eq_true] at h
    obtain ⟨⟨h1, h2⟩, h3⟩ := h
    by_cases hk : j = k
    · simp only [Tab.erase, hk, if_true]
      refine ih lo (Tab.wfFrom_mono d r ?_ h3)
      intro x hx
      cases lo with
      | none => rfl
      | some l => simp only [Tab.above, decide_eq_true_eq] at *; omega
    · simp [Tab.erase, hk, Tab.wfFrom, h1, of_decide_eq_true h2, ih (some j) h3]

theorem Tab.wfFrom_insert [DecidableEq α] (d : α) (lo : Option Nat) (t : Tab α) (k : Nat) (v : α) (hv : v ≠ d)
    (hl : Tab.above lo k = true) (h : Tab.wfFrom d lo t = true) :
    Tab.wfFrom d lo (Tab.insert t k v) = true := by
  induction t generalizing lo with
  | nil => simp [Tab.insert, Tab.wfFrom, hl, hv]
  | cons p r ih =>
    obtain ⟨j, w⟩ := p
    simp only [Tab.wfFrom, Bool.and_eq_true] at h
    obtain ⟨⟨h1, h2⟩, h3⟩ := h
    by_cases hk : k < j
    · simp only [Tab.insert, hk, if_true, Tab.wfFrom, Bool.and_eq_true]
      exact ⟨⟨hl, by simpa using hv⟩, ⟨by simpa [Tab.above] using hk, h2⟩, h3⟩
    · by_cases he : j = k
      · subst he; simp [Tab.insert, Tab.wfFrom, h1, hv, h3]
      · simp only [Tab.insert, hk, he, if_false, Tab.wfFrom, Bool.and_eq_true]
        refine ⟨⟨h1, h2⟩, ih (some j) ?_ h3⟩
        simp only [Tab.above, decide_eq_true_eq]; omega

/-- A write keeps the canonical form. -/
theorem Tab.wf_set [DecidableEq α] (d : α) (t : Tab α) (k : Nat) (v : α) (h : Tab.wf d t = true) :
    Tab.wf d (Tab.set d t k v) = true := by
  unfold Tab.set
  split
  · exact Tab.wfFrom_erase d none t k h
  · exact Tab.wfFrom_insert d none t k v ‹_› rfl h

end Sys2Proof.Machine
end

