-- ==== Sys2Proof/Laws/State.lean ====
section
/-! SUPPORT. What each named update of the state leaves alone, one lemma a component, and what it does to its own; so that no
proof unfolds a record update. -/

namespace Sys2Proof.Machine

variable (s : State)

@[simp] theorem set_pending_frame (f : Fld) (v : Nat) : (s.set f v).pending = s.pending := rfl
@[simp] theorem set_now_frame (f : Fld) (v : Nat) : (s.set f v).now = s.now := rfl
@[simp] theorem set_free_frame (f : Fld) (v : Nat) : (s.set f v).free = s.free := rfl
@[simp] theorem set_sent_frame (f : Fld) (v : Nat) : (s.set f v).sent = s.sent := rfl
@[simp] theorem set_tick_frame (f : Fld) (v : Nat) : (s.set f v).tick = s.tick := rfl
@[simp] theorem set_ports_frame (f : Fld) (v : Nat) : (s.set f v).ports = s.ports := rfl
@[simp] theorem set_fab_frame (f : Fld) (v : Nat) : (s.set f v).fab = s.fab := rfl
@[simp] theorem set_cal_frame (f : Fld) (v : Nat) : (s.set f v).cal = s.cal := rfl
@[simp] theorem set_mem_frame (f : Fld) (v : Nat) : (s.set f v).mem = s.mem := rfl
@[simp] theorem set_care_frame (f : Fld) (v : Nat) : (s.set f v).care = s.care := rfl
@[simp] theorem set_coh_frame (f : Fld) (v : Nat) : (s.set f v).coh = s.coh := rfl
@[simp] theorem set_rlg_frame (f : Fld) (v : Nat) : (s.set f v).rlg = s.rlg := rfl
@[simp] theorem set_tlb_frame (f : Fld) (v : Nat) : (s.set f v).tlb = s.tlb := rfl
@[simp] theorem set_str_frame (f : Fld) (v : Nat) : (s.set f v).str = s.str := rfl
@[simp] theorem set_upe_frame (f : Fld) (v : Nat) : (s.set f v).upe = s.upe := rfl
@[simp] theorem set_mxa_frame (f : Fld) (v : Nat) : (s.set f v).mxa = s.mxa := rfl
@[simp] theorem set_kvs_frame (f : Fld) (v : Nat) : (s.set f v).kvs = s.kvs := rfl
@[simp] theorem set_rng_frame (f : Fld) (v : Nat) : (s.set f v).rng = s.rng := rfl
@[simp] theorem set_fum_frame (f : Fld) (v : Nat) : (s.set f v).fum = s.fum := rfl
@[simp] theorem set_flt_frame (f : Fld) (v : Nat) : (s.set f v).flt = s.flt := rfl
@[simp] theorem set_host_frame (f : Fld) (v : Nat) : (s.set f v).host = s.host := rfl
@[simp] theorem set_mod_frame (f : Fld) (v : Nat) : (s.set f v).mod = s.mod := rfl
@[simp] theorem set_lights_frame (f : Fld) (v : Nat) : (s.set f v).lights = s.lights := rfl
@[simp] theorem set_boot_frame (f : Fld) (v : Nat) : (s.set f v).boot = s.boot := rfl
@[simp] theorem set_rst_frame (f : Fld) (v : Nat) : (s.set f v).rst = s.rst := rfl
@[simp] theorem set_flash_frame (f : Fld) (v : Nat) : (s.set f v).flash = s.flash := rfl

@[simp] theorem bump_pending_frame (f : Fld) (n : Nat) : (s.bump f n).pending = s.pending := rfl
@[simp] theorem bump_now_frame (f : Fld) (n : Nat) : (s.bump f n).now = s.now := rfl
@[simp] theorem bump_free_frame (f : Fld) (n : Nat) : (s.bump f n).free = s.free := rfl
@[simp] theorem bump_sent_frame (f : Fld) (n : Nat) : (s.bump f n).sent = s.sent := rfl
@[simp] theorem bump_tick_frame (f : Fld) (n : Nat) : (s.bump f n).tick = s.tick := rfl
@[simp] theorem bump_ports_frame (f : Fld) (n : Nat) : (s.bump f n).ports = s.ports := rfl
@[simp] theorem bump_fab_frame (f : Fld) (n : Nat) : (s.bump f n).fab = s.fab := rfl
@[simp] theorem bump_cal_frame (f : Fld) (n : Nat) : (s.bump f n).cal = s.cal := rfl
@[simp] theorem bump_mem_frame (f : Fld) (n : Nat) : (s.bump f n).mem = s.mem := rfl
@[simp] theorem bump_care_frame (f : Fld) (n : Nat) : (s.bump f n).care = s.care := rfl
@[simp] theorem bump_coh_frame (f : Fld) (n : Nat) : (s.bump f n).coh = s.coh := rfl
@[simp] theorem bump_rlg_frame (f : Fld) (n : Nat) : (s.bump f n).rlg = s.rlg := rfl
@[simp] theorem bump_tlb_frame (f : Fld) (n : Nat) : (s.bump f n).tlb = s.tlb := rfl
@[simp] theorem bump_str_frame (f : Fld) (n : Nat) : (s.bump f n).str = s.str := rfl
@[simp] theorem bump_upe_frame (f : Fld) (n : Nat) : (s.bump f n).upe = s.upe := rfl
@[simp] theorem bump_mxa_frame (f : Fld) (n : Nat) : (s.bump f n).mxa = s.mxa := rfl
@[simp] theorem bump_kvs_frame (f : Fld) (n : Nat) : (s.bump f n).kvs = s.kvs := rfl
@[simp] theorem bump_rng_frame (f : Fld) (n : Nat) : (s.bump f n).rng = s.rng := rfl
@[simp] theorem bump_fum_frame (f : Fld) (n : Nat) : (s.bump f n).fum = s.fum := rfl
@[simp] theorem bump_flt_frame (f : Fld) (n : Nat) : (s.bump f n).flt = s.flt := rfl
@[simp] theorem bump_host_frame (f : Fld) (n : Nat) : (s.bump f n).host = s.host := rfl
@[simp] theorem bump_mod_frame (f : Fld) (n : Nat) : (s.bump f n).mod = s.mod := rfl
@[simp] theorem bump_lights_frame (f : Fld) (n : Nat) : (s.bump f n).lights = s.lights := rfl
@[simp] theorem bump_boot_frame (f : Fld) (n : Nat) : (s.bump f n).boot = s.boot := rfl
@[simp] theorem bump_rst_frame (f : Fld) (n : Nat) : (s.bump f n).rst = s.rst := rfl
@[simp] theorem bump_flash_frame (f : Fld) (n : Nat) : (s.bump f n).flash = s.flash := rfl

@[simp] theorem clear_pending_frame (f : Fld) : (s.clear f).pending = s.pending := rfl
@[simp] theorem clear_now_frame (f : Fld) : (s.clear f).now = s.now := rfl
@[simp] theorem clear_free_frame (f : Fld) : (s.clear f).free = s.free := rfl
@[simp] theorem clear_sent_frame (f : Fld) : (s.clear f).sent = s.sent := rfl
@[simp] theorem clear_tick_frame (f : Fld) : (s.clear f).tick = s.tick := rfl
@[simp] theorem clear_ports_frame (f : Fld) : (s.clear f).ports = s.ports := rfl
@[simp] theorem clear_fab_frame (f : Fld) : (s.clear f).fab = s.fab := rfl
@[simp] theorem clear_cal_frame (f : Fld) : (s.clear f).cal = s.cal := rfl
@[simp] theorem clear_mem_frame (f : Fld) : (s.clear f).mem = s.mem := rfl
@[simp] theorem clear_care_frame (f : Fld) : (s.clear f).care = s.care := rfl
@[simp] theorem clear_coh_frame (f : Fld) : (s.clear f).coh = s.coh := rfl
@[simp] theorem clear_rlg_frame (f : Fld) : (s.clear f).rlg = s.rlg := rfl
@[simp] theorem clear_tlb_frame (f : Fld) : (s.clear f).tlb = s.tlb := rfl
@[simp] theorem clear_str_frame (f : Fld) : (s.clear f).str = s.str := rfl
@[simp] theorem clear_upe_frame (f : Fld) : (s.clear f).upe = s.upe := rfl
@[simp] theorem clear_mxa_frame (f : Fld) : (s.clear f).mxa = s.mxa := rfl
@[simp] theorem clear_kvs_frame (f : Fld) : (s.clear f).kvs = s.kvs := rfl
@[simp] theorem clear_rng_frame (f : Fld) : (s.clear f).rng = s.rng := rfl
@[simp] theorem clear_fum_frame (f : Fld) : (s.clear f).fum = s.fum := rfl
@[simp] theorem clear_flt_frame (f : Fld) : (s.clear f).flt = s.flt := rfl
@[simp] theorem clear_host_frame (f : Fld) : (s.clear f).host = s.host := rfl
@[simp] theorem clear_mod_frame (f : Fld) : (s.clear f).mod = s.mod := rfl
@[simp] theorem clear_lights_frame (f : Fld) : (s.clear f).lights = s.lights := rfl
@[simp] theorem clear_boot_frame (f : Fld) : (s.clear f).boot = s.boot := rfl
@[simp] theorem clear_rst_frame (f : Fld) : (s.clear f).rst = s.rst := rfl
@[simp] theorem clear_flash_frame (f : Fld) : (s.clear f).flash = s.flash := rfl

@[simp] theorem emit_pending_frame (o : Out) : (s.emit o).pending = s.pending := rfl
@[simp] theorem emit_regs_frame (o : Out) : (s.emit o).regs = s.regs := rfl
@[simp] theorem emit_now_frame (o : Out) : (s.emit o).now = s.now := rfl
@[simp] theorem emit_free_frame (o : Out) : (s.emit o).free = s.free := rfl
@[simp] theorem emit_tick_frame (o : Out) : (s.emit o).tick = s.tick := rfl
@[simp] theorem emit_ports_frame (o : Out) : (s.emit o).ports = s.ports := rfl
@[simp] theorem emit_fab_frame (o : Out) : (s.emit o).fab = s.fab := rfl
@[simp] theorem emit_cal_frame (o : Out) : (s.emit o).cal = s.cal := rfl
@[simp] theorem emit_mem_frame (o : Out) : (s.emit o).mem = s.mem := rfl
@[simp] theorem emit_care_frame (o : Out) : (s.emit o).care = s.care := rfl
@[simp] theorem emit_coh_frame (o : Out) : (s.emit o).coh = s.coh := rfl
@[simp] theorem emit_rlg_frame (o : Out) : (s.emit o).rlg = s.rlg := rfl
@[simp] theorem emit_tlb_frame (o : Out) : (s.emit o).tlb = s.tlb := rfl
@[simp] theorem emit_str_frame (o : Out) : (s.emit o).str = s.str := rfl
@[simp] theorem emit_upe_frame (o : Out) : (s.emit o).upe = s.upe := rfl
@[simp] theorem emit_mxa_frame (o : Out) : (s.emit o).mxa = s.mxa := rfl
@[simp] theorem emit_kvs_frame (o : Out) : (s.emit o).kvs = s.kvs := rfl
@[simp] theorem emit_rng_frame (o : Out) : (s.emit o).rng = s.rng := rfl
@[simp] theorem emit_fum_frame (o : Out) : (s.emit o).fum = s.fum := rfl
@[simp] theorem emit_flt_frame (o : Out) : (s.emit o).flt = s.flt := rfl
@[simp] theorem emit_host_frame (o : Out) : (s.emit o).host = s.host := rfl
@[simp] theorem emit_mod_frame (o : Out) : (s.emit o).mod = s.mod := rfl
@[simp] theorem emit_lights_frame (o : Out) : (s.emit o).lights = s.lights := rfl
@[simp] theorem emit_boot_frame (o : Out) : (s.emit o).boot = s.boot := rfl
@[simp] theorem emit_rst_frame (o : Out) : (s.emit o).rst = s.rst := rfl
@[simp] theorem emit_flash_frame (o : Out) : (s.emit o).flash = s.flash := rfl
@[simp] theorem emit_get_frame (o : Out) (g : Fld) : (s.emit o).get g = s.get g := rfl
@[simp] theorem emit_flag_frame (o : Out) (g : Fld) : (s.emit o).flag g = s.flag g := rfl

@[simp] theorem setLine_pending_frame (n : Nat) (l : CLine) : (s.setLine n l).pending = s.pending := rfl
@[simp] theorem setLine_regs_frame (n : Nat) (l : CLine) : (s.setLine n l).regs = s.regs := rfl
@[simp] theorem setLine_now_frame (n : Nat) (l : CLine) : (s.setLine n l).now = s.now := rfl
@[simp] theorem setLine_free_frame (n : Nat) (l : CLine) : (s.setLine n l).free = s.free := rfl
@[simp] theorem setLine_sent_frame (n : Nat) (l : CLine) : (s.setLine n l).sent = s.sent := rfl
@[simp] theorem setLine_tick_frame (n : Nat) (l : CLine) : (s.setLine n l).tick = s.tick := rfl
@[simp] theorem setLine_ports_frame (n : Nat) (l : CLine) : (s.setLine n l).ports = s.ports := rfl
@[simp] theorem setLine_fab_frame (n : Nat) (l : CLine) : (s.setLine n l).fab = s.fab := rfl
@[simp] theorem setLine_cal_frame (n : Nat) (l : CLine) : (s.setLine n l).cal = s.cal := rfl
@[simp] theorem setLine_care_frame (n : Nat) (l : CLine) : (s.setLine n l).care = s.care := rfl
@[simp] theorem setLine_coh_frame (n : Nat) (l : CLine) : (s.setLine n l).coh = s.coh := rfl
@[simp] theorem setLine_rlg_frame (n : Nat) (l : CLine) : (s.setLine n l).rlg = s.rlg := rfl
@[simp] theorem setLine_tlb_frame (n : Nat) (l : CLine) : (s.setLine n l).tlb = s.tlb := rfl
@[simp] theorem setLine_str_frame (n : Nat) (l : CLine) : (s.setLine n l).str = s.str := rfl
@[simp] theorem setLine_upe_frame (n : Nat) (l : CLine) : (s.setLine n l).upe = s.upe := rfl
@[simp] theorem setLine_mxa_frame (n : Nat) (l : CLine) : (s.setLine n l).mxa = s.mxa := rfl
@[simp] theorem setLine_kvs_frame (n : Nat) (l : CLine) : (s.setLine n l).kvs = s.kvs := rfl
@[simp] theorem setLine_rng_frame (n : Nat) (l : CLine) : (s.setLine n l).rng = s.rng := rfl
@[simp] theorem setLine_fum_frame (n : Nat) (l : CLine) : (s.setLine n l).fum = s.fum := rfl
@[simp] theorem setLine_flt_frame (n : Nat) (l : CLine) : (s.setLine n l).flt = s.flt := rfl
@[simp] theorem setLine_host_frame (n : Nat) (l : CLine) : (s.setLine n l).host = s.host := rfl
@[simp] theorem setLine_mod_frame (n : Nat) (l : CLine) : (s.setLine n l).mod = s.mod := rfl
@[simp] theorem setLine_lights_frame (n : Nat) (l : CLine) : (s.setLine n l).lights = s.lights := rfl
@[simp] theorem setLine_boot_frame (n : Nat) (l : CLine) : (s.setLine n l).boot = s.boot := rfl
@[simp] theorem setLine_rst_frame (n : Nat) (l : CLine) : (s.setLine n l).rst = s.rst := rfl
@[simp] theorem setLine_flash_frame (n : Nat) (l : CLine) : (s.setLine n l).flash = s.flash := rfl
@[simp] theorem setLine_get_frame (n : Nat) (l : CLine) (g : Fld) : (s.setLine n l).get g = s.get g := rfl
@[simp] theorem setLine_flag_frame (n : Nat) (l : CLine) (g : Fld) : (s.setLine n l).flag g = s.flag g := rfl

@[simp] theorem setL1_pending_frame (e : Nat) (x : L1) : (s.setL1 e x).pending = s.pending := rfl
@[simp] theorem setL1_regs_frame (e : Nat) (x : L1) : (s.setL1 e x).regs = s.regs := rfl
@[simp] theorem setL1_now_frame (e : Nat) (x : L1) : (s.setL1 e x).now = s.now := rfl
@[simp] theorem setL1_free_frame (e : Nat) (x : L1) : (s.setL1 e x).free = s.free := rfl
@[simp] theorem setL1_sent_frame (e : Nat) (x : L1) : (s.setL1 e x).sent = s.sent := rfl
@[simp] theorem setL1_tick_frame (e : Nat) (x : L1) : (s.setL1 e x).tick = s.tick := rfl
@[simp] theorem setL1_ports_frame (e : Nat) (x : L1) : (s.setL1 e x).ports = s.ports := rfl
@[simp] theorem setL1_fab_frame (e : Nat) (x : L1) : (s.setL1 e x).fab = s.fab := rfl
@[simp] theorem setL1_cal_frame (e : Nat) (x : L1) : (s.setL1 e x).cal = s.cal := rfl
@[simp] theorem setL1_mem_frame (e : Nat) (x : L1) : (s.setL1 e x).mem = s.mem := rfl
@[simp] theorem setL1_care_frame (e : Nat) (x : L1) : (s.setL1 e x).care = s.care := rfl
@[simp] theorem setL1_rlg_frame (e : Nat) (x : L1) : (s.setL1 e x).rlg = s.rlg := rfl
@[simp] theorem setL1_tlb_frame (e : Nat) (x : L1) : (s.setL1 e x).tlb = s.tlb := rfl
@[simp] theorem setL1_str_frame (e : Nat) (x : L1) : (s.setL1 e x).str = s.str := rfl
@[simp] theorem setL1_upe_frame (e : Nat) (x : L1) : (s.setL1 e x).upe = s.upe := rfl
@[simp] theorem setL1_mxa_frame (e : Nat) (x : L1) : (s.setL1 e x).mxa = s.mxa := rfl
@[simp] theorem setL1_kvs_frame (e : Nat) (x : L1) : (s.setL1 e x).kvs = s.kvs := rfl
@[simp] theorem setL1_rng_frame (e : Nat) (x : L1) : (s.setL1 e x).rng = s.rng := rfl
@[simp] theorem setL1_fum_frame (e : Nat) (x : L1) : (s.setL1 e x).fum = s.fum := rfl
@[simp] theorem setL1_flt_frame (e : Nat) (x : L1) : (s.setL1 e x).flt = s.flt := rfl
@[simp] theorem setL1_host_frame (e : Nat) (x : L1) : (s.setL1 e x).host = s.host := rfl
@[simp] theorem setL1_mod_frame (e : Nat) (x : L1) : (s.setL1 e x).mod = s.mod := rfl
@[simp] theorem setL1_lights_frame (e : Nat) (x : L1) : (s.setL1 e x).lights = s.lights := rfl
@[simp] theorem setL1_boot_frame (e : Nat) (x : L1) : (s.setL1 e x).boot = s.boot := rfl
@[simp] theorem setL1_rst_frame (e : Nat) (x : L1) : (s.setL1 e x).rst = s.rst := rfl
@[simp] theorem setL1_flash_frame (e : Nat) (x : L1) : (s.setL1 e x).flash = s.flash := rfl
@[simp] theorem setL1_get_frame (e : Nat) (x : L1) (g : Fld) : (s.setL1 e x).get g = s.get g := rfl
@[simp] theorem setL1_flag_frame (e : Nat) (x : L1) (g : Fld) : (s.setL1 e x).flag g = s.flag g := rfl

@[simp] theorem setPoison_pending_frame (a : Nat) (v : Bool) : (s.setPoison a v).pending = s.pending := rfl
@[simp] theorem setPoison_regs_frame (a : Nat) (v : Bool) : (s.setPoison a v).regs = s.regs := rfl
@[simp] theorem setPoison_now_frame (a : Nat) (v : Bool) : (s.setPoison a v).now = s.now := rfl
@[simp] theorem setPoison_free_frame (a : Nat) (v : Bool) : (s.setPoison a v).free = s.free := rfl
@[simp] theorem setPoison_sent_frame (a : Nat) (v : Bool) : (s.setPoison a v).sent = s.sent := rfl
@[simp] theorem setPoison_tick_frame (a : Nat) (v : Bool) : (s.setPoison a v).tick = s.tick := rfl
@[simp] theorem setPoison_ports_frame (a : Nat) (v : Bool) : (s.setPoison a v).ports = s.ports := rfl
@[simp] theorem setPoison_fab_frame (a : Nat) (v : Bool) : (s.setPoison a v).fab = s.fab := rfl
@[simp] theorem setPoison_cal_frame (a : Nat) (v : Bool) : (s.setPoison a v).cal = s.cal := rfl
@[simp] theorem setPoison_care_frame (a : Nat) (v : Bool) : (s.setPoison a v).care = s.care := rfl
@[simp] theorem setPoison_coh_frame (a : Nat) (v : Bool) : (s.setPoison a v).coh = s.coh := rfl
@[simp] theorem setPoison_rlg_frame (a : Nat) (v : Bool) : (s.setPoison a v).rlg = s.rlg := rfl
@[simp] theorem setPoison_tlb_frame (a : Nat) (v : Bool) : (s.setPoison a v).tlb = s.tlb := rfl
@[simp] theorem setPoison_str_frame (a : Nat) (v : Bool) : (s.setPoison a v).str = s.str := rfl
@[simp] theorem setPoison_upe_frame (a : Nat) (v : Bool) : (s.setPoison a v).upe = s.upe := rfl
@[simp] theorem setPoison_mxa_frame (a : Nat) (v : Bool) : (s.setPoison a v).mxa = s.mxa := rfl
@[simp] theorem setPoison_kvs_frame (a : Nat) (v : Bool) : (s.setPoison a v).kvs = s.kvs := rfl
@[simp] theorem setPoison_rng_frame (a : Nat) (v : Bool) : (s.setPoison a v).rng = s.rng := rfl
@[simp] theorem setPoison_fum_frame (a : Nat) (v : Bool) : (s.setPoison a v).fum = s.fum := rfl
@[simp] theorem setPoison_flt_frame (a : Nat) (v : Bool) : (s.setPoison a v).flt = s.flt := rfl
@[simp] theorem setPoison_host_frame (a : Nat) (v : Bool) : (s.setPoison a v).host = s.host := rfl
@[simp] theorem setPoison_mod_frame (a : Nat) (v : Bool) : (s.setPoison a v).mod = s.mod := rfl
@[simp] theorem setPoison_lights_frame (a : Nat) (v : Bool) : (s.setPoison a v).lights = s.lights := rfl
@[simp] theorem setPoison_boot_frame (a : Nat) (v : Bool) : (s.setPoison a v).boot = s.boot := rfl
@[simp] theorem setPoison_rst_frame (a : Nat) (v : Bool) : (s.setPoison a v).rst = s.rst := rfl
@[simp] theorem setPoison_flash_frame (a : Nat) (v : Bool) : (s.setPoison a v).flash = s.flash := rfl
@[simp] theorem setPoison_get_frame (a : Nat) (v : Bool) (g : Fld) : (s.setPoison a v).get g = s.get g := rfl
@[simp] theorem setPoison_flag_frame (a : Nat) (v : Bool) (g : Fld) : (s.setPoison a v).flag g = s.flag g := rfl

@[simp] theorem reach_pending_frame (n : Nat) : (s.reach n).pending = s.pending := rfl
@[simp] theorem reach_regs_frame (n : Nat) : (s.reach n).regs = s.regs := rfl
@[simp] theorem reach_free_frame (n : Nat) : (s.reach n).free = s.free := rfl
@[simp] theorem reach_sent_frame (n : Nat) : (s.reach n).sent = s.sent := rfl
@[simp] theorem reach_tick_frame (n : Nat) : (s.reach n).tick = s.tick := rfl
@[simp] theorem reach_ports_frame (n : Nat) : (s.reach n).ports = s.ports := rfl
@[simp] theorem reach_fab_frame (n : Nat) : (s.reach n).fab = s.fab := rfl
@[simp] theorem reach_cal_frame (n : Nat) : (s.reach n).cal = s.cal := rfl
@[simp] theorem reach_mem_frame (n : Nat) : (s.reach n).mem = s.mem := rfl
@[simp] theorem reach_care_frame (n : Nat) : (s.reach n).care = s.care := rfl
@[simp] theorem reach_coh_frame (n : Nat) : (s.reach n).coh = s.coh := rfl
@[simp] theorem reach_rlg_frame (n : Nat) : (s.reach n).rlg = s.rlg := rfl
@[simp] theorem reach_tlb_frame (n : Nat) : (s.reach n).tlb = s.tlb := rfl
@[simp] theorem reach_str_frame (n : Nat) : (s.reach n).str = s.str := rfl
@[simp] theorem reach_upe_frame (n : Nat) : (s.reach n).upe = s.upe := rfl
@[simp] theorem reach_mxa_frame (n : Nat) : (s.reach n).mxa = s.mxa := rfl
@[simp] theorem reach_kvs_frame (n : Nat) : (s.reach n).kvs = s.kvs := rfl
@[simp] theorem reach_rng_frame (n : Nat) : (s.reach n).rng = s.rng := rfl
@[simp] theorem reach_fum_frame (n : Nat) : (s.reach n).fum = s.fum := rfl
@[simp] theorem reach_flt_frame (n : Nat) : (s.reach n).flt = s.flt := rfl
@[simp] theorem reach_host_frame (n : Nat) : (s.reach n).host = s.host := rfl
@[simp] theorem reach_mod_frame (n : Nat) : (s.reach n).mod = s.mod := rfl
@[simp] theorem reach_lights_frame (n : Nat) : (s.reach n).lights = s.lights := rfl
@[simp] theorem reach_boot_frame (n : Nat) : (s.reach n).boot = s.boot := rfl
@[simp] theorem reach_rst_frame (n : Nat) : (s.reach n).rst = s.rst := rfl
@[simp] theorem reach_flash_frame (n : Nat) : (s.reach n).flash = s.flash := rfl
@[simp] theorem reach_get_frame (n : Nat) (g : Fld) : (s.reach n).get g = s.get g := rfl
@[simp] theorem reach_flag_frame (n : Nat) (g : Fld) : (s.reach n).flag g = s.flag g := rfl

@[simp] theorem takeFree_pending_frame : (s.takeFree.2).pending = s.pending := rfl
@[simp] theorem takeFree_regs_frame : (s.takeFree.2).regs = s.regs := rfl
@[simp] theorem takeFree_now_frame : (s.takeFree.2).now = s.now := rfl
@[simp] theorem takeFree_sent_frame : (s.takeFree.2).sent = s.sent := rfl
@[simp] theorem takeFree_tick_frame : (s.takeFree.2).tick = s.tick := rfl
@[simp] theorem takeFree_ports_frame : (s.takeFree.2).ports = s.ports := rfl
@[simp] theorem takeFree_fab_frame : (s.takeFree.2).fab = s.fab := rfl
@[simp] theorem takeFree_cal_frame : (s.takeFree.2).cal = s.cal := rfl
@[simp] theorem takeFree_mem_frame : (s.takeFree.2).mem = s.mem := rfl
@[simp] theorem takeFree_care_frame : (s.takeFree.2).care = s.care := rfl
@[simp] theorem takeFree_coh_frame : (s.takeFree.2).coh = s.coh := rfl
@[simp] theorem takeFree_rlg_frame : (s.takeFree.2).rlg = s.rlg := rfl
@[simp] theorem takeFree_tlb_frame : (s.takeFree.2).tlb = s.tlb := rfl
@[simp] theorem takeFree_str_frame : (s.takeFree.2).str = s.str := rfl
@[simp] theorem takeFree_upe_frame : (s.takeFree.2).upe = s.upe := rfl
@[simp] theorem takeFree_mxa_frame : (s.takeFree.2).mxa = s.mxa := rfl
@[simp] theorem takeFree_kvs_frame : (s.takeFree.2).kvs = s.kvs := rfl
@[simp] theorem takeFree_rng_frame : (s.takeFree.2).rng = s.rng := rfl
@[simp] theorem takeFree_fum_frame : (s.takeFree.2).fum = s.fum := rfl
@[simp] theorem takeFree_flt_frame : (s.takeFree.2).flt = s.flt := rfl
@[simp] theorem takeFree_host_frame : (s.takeFree.2).host = s.host := rfl
@[simp] theorem takeFree_mod_frame : (s.takeFree.2).mod = s.mod := rfl
@[simp] theorem takeFree_lights_frame : (s.takeFree.2).lights = s.lights := rfl
@[simp] theorem takeFree_boot_frame : (s.takeFree.2).boot = s.boot := rfl
@[simp] theorem takeFree_rst_frame : (s.takeFree.2).rst = s.rst := rfl
@[simp] theorem takeFree_flash_frame : (s.takeFree.2).flash = s.flash := rfl
@[simp] theorem takeFree_get_frame (g : Fld) : (s.takeFree.2).get g = s.get g := rfl
@[simp] theorem takeFree_flag_frame (g : Fld) : (s.takeFree.2).flag g = s.flag g := rfl

@[simp] theorem settle_pending_frame : (settle s).pending = s.pending := rfl
@[simp] theorem settle_regs_frame : (settle s).regs = s.regs := rfl
@[simp] theorem settle_now_frame : (settle s).now = s.now := rfl
@[simp] theorem settle_free_frame : (settle s).free = s.free := rfl
@[simp] theorem settle_sent_frame : (settle s).sent = s.sent := rfl
@[simp] theorem settle_tick_frame : (settle s).tick = s.tick := rfl
@[simp] theorem settle_ports_frame : (settle s).ports = s.ports := rfl
@[simp] theorem settle_fab_frame : (settle s).fab = s.fab := rfl
@[simp] theorem settle_cal_frame : (settle s).cal = s.cal := rfl
@[simp] theorem settle_mem_frame : (settle s).mem = s.mem := rfl
@[simp] theorem settle_care_frame : (settle s).care = s.care := rfl
@[simp] theorem settle_coh_frame : (settle s).coh = s.coh := rfl
@[simp] theorem settle_rlg_frame : (settle s).rlg = s.rlg := rfl
@[simp] theorem settle_tlb_frame : (settle s).tlb = s.tlb := rfl
@[simp] theorem settle_str_frame : (settle s).str = s.str := rfl
@[simp] theorem settle_upe_frame : (settle s).upe = s.upe := rfl
@[simp] theorem settle_mxa_frame : (settle s).mxa = s.mxa := rfl
@[simp] theorem settle_kvs_frame : (settle s).kvs = s.kvs := rfl
@[simp] theorem settle_rng_frame : (settle s).rng = s.rng := rfl
@[simp] theorem settle_fum_frame : (settle s).fum = s.fum := rfl
@[simp] theorem settle_flt_frame : (settle s).flt = s.flt := rfl
@[simp] theorem settle_host_frame : (settle s).host = s.host := rfl
@[simp] theorem settle_mod_frame : (settle s).mod = s.mod := rfl
@[simp] theorem settle_boot_frame : (settle s).boot = s.boot := rfl
@[simp] theorem settle_rst_frame : (settle s).rst = s.rst := rfl
@[simp] theorem settle_flash_frame : (settle s).flash = s.flash := rfl
@[simp] theorem settle_get_frame (g : Fld) : (settle s).get g = s.get g := rfl
@[simp] theorem settle_flag_frame (g : Fld) : (settle s).flag g = s.flag g := rfl

@[simp] theorem alert_pending_frame (k : Nat) : (alert k s).pending = s.pending := rfl
@[simp] theorem alert_regs_frame (k : Nat) : (alert k s).regs = s.regs := rfl
@[simp] theorem alert_now_frame (k : Nat) : (alert k s).now = s.now := rfl
@[simp] theorem alert_free_frame (k : Nat) : (alert k s).free = s.free := rfl
@[simp] theorem alert_sent_frame (k : Nat) : (alert k s).sent = s.sent := rfl
@[simp] theorem alert_tick_frame (k : Nat) : (alert k s).tick = s.tick := rfl
@[simp] theorem alert_ports_frame (k : Nat) : (alert k s).ports = s.ports := rfl
@[simp] theorem alert_fab_frame (k : Nat) : (alert k s).fab = s.fab := rfl
@[simp] theorem alert_cal_frame (k : Nat) : (alert k s).cal = s.cal := rfl
@[simp] theorem alert_mem_frame (k : Nat) : (alert k s).mem = s.mem := rfl
@[simp] theorem alert_care_frame (k : Nat) : (alert k s).care = s.care := rfl
@[simp] theorem alert_coh_frame (k : Nat) : (alert k s).coh = s.coh := rfl
@[simp] theorem alert_rlg_frame (k : Nat) : (alert k s).rlg = s.rlg := rfl
@[simp] theorem alert_tlb_frame (k : Nat) : (alert k s).tlb = s.tlb := rfl
@[simp] theorem alert_str_frame (k : Nat) : (alert k s).str = s.str := rfl
@[simp] theorem alert_upe_frame (k : Nat) : (alert k s).upe = s.upe := rfl
@[simp] theorem alert_mxa_frame (k : Nat) : (alert k s).mxa = s.mxa := rfl
@[simp] theorem alert_kvs_frame (k : Nat) : (alert k s).kvs = s.kvs := rfl
@[simp] theorem alert_rng_frame (k : Nat) : (alert k s).rng = s.rng := rfl
@[simp] theorem alert_fum_frame (k : Nat) : (alert k s).fum = s.fum := rfl
@[simp] theorem alert_flt_frame (k : Nat) : (alert k s).flt = s.flt := rfl
@[simp] theorem alert_mod_frame (k : Nat) : (alert k s).mod = s.mod := rfl
@[simp] theorem alert_lights_frame (k : Nat) : (alert k s).lights = s.lights := rfl
@[simp] theorem alert_boot_frame (k : Nat) : (alert k s).boot = s.boot := rfl
@[simp] theorem alert_rst_frame (k : Nat) : (alert k s).rst = s.rst := rfl
@[simp] theorem alert_flash_frame (k : Nat) : (alert k s).flash = s.flash := rfl
@[simp] theorem alert_get_frame (k : Nat) (g : Fld) : (alert k s).get g = s.get g := rfl
@[simp] theorem alert_flag_frame (k : Nat) (g : Fld) : (alert k s).flag g = s.flag g := rfl

@[simp] theorem onTick_pending_frame (f : TickState → TickState) : (s.onTick f).pending = s.pending := rfl
@[simp] theorem onTick_regs_frame (f : TickState → TickState) : (s.onTick f).regs = s.regs := rfl
@[simp] theorem onTick_now_frame (f : TickState → TickState) : (s.onTick f).now = s.now := rfl
@[simp] theorem onTick_free_frame (f : TickState → TickState) : (s.onTick f).free = s.free := rfl
@[simp] theorem onTick_sent_frame (f : TickState → TickState) : (s.onTick f).sent = s.sent := rfl
@[simp] theorem onTick_ports_frame (f : TickState → TickState) : (s.onTick f).ports = s.ports := rfl
@[simp] theorem onTick_fab_frame (f : TickState → TickState) : (s.onTick f).fab = s.fab := rfl
@[simp] theorem onTick_cal_frame (f : TickState → TickState) : (s.onTick f).cal = s.cal := rfl
@[simp] theorem onTick_mem_frame (f : TickState → TickState) : (s.onTick f).mem = s.mem := rfl
@[simp] theorem onTick_care_frame (f : TickState → TickState) : (s.onTick f).care = s.care := rfl
@[simp] theorem onTick_coh_frame (f : TickState → TickState) : (s.onTick f).coh = s.coh := rfl
@[simp] theorem onTick_rlg_frame (f : TickState → TickState) : (s.onTick f).rlg = s.rlg := rfl
@[simp] theorem onTick_tlb_frame (f : TickState → TickState) : (s.onTick f).tlb = s.tlb := rfl
@[simp] theorem onTick_str_frame (f : TickState → TickState) : (s.onTick f).str = s.str := rfl
@[simp] theorem onTick_upe_frame (f : TickState → TickState) : (s.onTick f).upe = s.upe := rfl
@[simp] theorem onTick_mxa_frame (f : TickState → TickState) : (s.onTick f).mxa = s.mxa := rfl
@[simp] theorem onTick_kvs_frame (f : TickState → TickState) : (s.onTick f).kvs = s.kvs := rfl
@[simp] theorem onTick_rng_frame (f : TickState → TickState) : (s.onTick f).rng = s.rng := rfl
@[simp] theorem onTick_fum_frame (f : TickState → TickState) : (s.onTick f).fum = s.fum := rfl
@[simp] theorem onTick_flt_frame (f : TickState → TickState) : (s.onTick f).flt = s.flt := rfl
@[simp] theorem onTick_host_frame (f : TickState → TickState) : (s.onTick f).host = s.host := rfl
@[simp] theorem onTick_mod_frame (f : TickState → TickState) : (s.onTick f).mod = s.mod := rfl
@[simp] theorem onTick_lights_frame (f : TickState → TickState) : (s.onTick f).lights = s.lights := rfl
@[simp] theorem onTick_boot_frame (f : TickState → TickState) : (s.onTick f).boot = s.boot := rfl
@[simp] theorem onTick_rst_frame (f : TickState → TickState) : (s.onTick f).rst = s.rst := rfl
@[simp] theorem onTick_flash_frame (f : TickState → TickState) : (s.onTick f).flash = s.flash := rfl
@[simp] theorem onTick_get_frame (f : TickState → TickState) (g : Fld) : (s.onTick f).get g = s.get g := rfl
@[simp] theorem onTick_flag_frame (f : TickState → TickState) (g : Fld) : (s.onTick f).flag g = s.flag g := rfl
@[simp] theorem onTick_own (f : TickState → TickState) : (s.onTick f).tick = f s.tick := rfl

@[simp] theorem onPort_pending_frame (p : Nat) (f : Port → Port) : (s.onPort p f).pending = s.pending := rfl
@[simp] theorem onPort_regs_frame (p : Nat) (f : Port → Port) : (s.onPort p f).regs = s.regs := rfl
@[simp] theorem onPort_now_frame (p : Nat) (f : Port → Port) : (s.onPort p f).now = s.now := rfl
@[simp] theorem onPort_free_frame (p : Nat) (f : Port → Port) : (s.onPort p f).free = s.free := rfl
@[simp] theorem onPort_sent_frame (p : Nat) (f : Port → Port) : (s.onPort p f).sent = s.sent := rfl
@[simp] theorem onPort_tick_frame (p : Nat) (f : Port → Port) : (s.onPort p f).tick = s.tick := rfl
@[simp] theorem onPort_fab_frame (p : Nat) (f : Port → Port) : (s.onPort p f).fab = s.fab := rfl
@[simp] theorem onPort_cal_frame (p : Nat) (f : Port → Port) : (s.onPort p f).cal = s.cal := rfl
@[simp] theorem onPort_mem_frame (p : Nat) (f : Port → Port) : (s.onPort p f).mem = s.mem := rfl
@[simp] theorem onPort_care_frame (p : Nat) (f : Port → Port) : (s.onPort p f).care = s.care := rfl
@[simp] theorem onPort_coh_frame (p : Nat) (f : Port → Port) : (s.onPort p f).coh = s.coh := rfl
@[simp] theorem onPort_rlg_frame (p : Nat) (f : Port → Port) : (s.onPort p f).rlg = s.rlg := rfl
@[simp] theorem onPort_tlb_frame (p : Nat) (f : Port → Port) : (s.onPort p f).tlb = s.tlb := rfl
@[simp] theorem onPort_str_frame (p : Nat) (f : Port → Port) : (s.onPort p f).str = s.str := rfl
@[simp] theorem onPort_upe_frame (p : Nat) (f : Port → Port) : (s.onPort p f).upe = s.upe := rfl
@[simp] theorem onPort_mxa_frame (p : Nat) (f : Port → Port) : (s.onPort p f).mxa = s.mxa := rfl
@[simp] theorem onPort_kvs_frame (p : Nat) (f : Port → Port) : (s.onPort p f).kvs = s.kvs := rfl
@[simp] theorem onPort_rng_frame (p : Nat) (f : Port → Port) : (s.onPort p f).rng = s.rng := rfl
@[simp] theorem onPort_fum_frame (p : Nat) (f : Port → Port) : (s.onPort p f).fum = s.fum := rfl
@[simp] theorem onPort_flt_frame (p : Nat) (f : Port → Port) : (s.onPort p f).flt = s.flt := rfl
@[simp] theorem onPort_host_frame (p : Nat) (f : Port → Port) : (s.onPort p f).host = s.host := rfl
@[simp] theorem onPort_mod_frame (p : Nat) (f : Port → Port) : (s.onPort p f).mod = s.mod := rfl
@[simp] theorem onPort_lights_frame (p : Nat) (f : Port → Port) : (s.onPort p f).lights = s.lights := rfl
@[simp] theorem onPort_boot_frame (p : Nat) (f : Port → Port) : (s.onPort p f).boot = s.boot := rfl
@[simp] theorem onPort_rst_frame (p : Nat) (f : Port → Port) : (s.onPort p f).rst = s.rst := rfl
@[simp] theorem onPort_flash_frame (p : Nat) (f : Port → Port) : (s.onPort p f).flash = s.flash := rfl
@[simp] theorem onPort_get_frame (p : Nat) (f : Port → Port) (g : Fld) : (s.onPort p f).get g = s.get g := rfl
@[simp] theorem onPort_flag_frame (p : Nat) (f : Port → Port) (g : Fld) : (s.onPort p f).flag g = s.flag g := rfl

@[simp] theorem onFab_pending_frame (f : FabState → FabState) : (s.onFab f).pending = s.pending := rfl
@[simp] theorem onFab_regs_frame (f : FabState → FabState) : (s.onFab f).regs = s.regs := rfl
@[simp] theorem onFab_now_frame (f : FabState → FabState) : (s.onFab f).now = s.now := rfl
@[simp] theorem onFab_free_frame (f : FabState → FabState) : (s.onFab f).free = s.free := rfl
@[simp] theorem onFab_sent_frame (f : FabState → FabState) : (s.onFab f).sent = s.sent := rfl
@[simp] theorem onFab_tick_frame (f : FabState → FabState) : (s.onFab f).tick = s.tick := rfl
@[simp] theorem onFab_ports_frame (f : FabState → FabState) : (s.onFab f).ports = s.ports := rfl
@[simp] theorem onFab_cal_frame (f : FabState → FabState) : (s.onFab f).cal = s.cal := rfl
@[simp] theorem onFab_mem_frame (f : FabState → FabState) : (s.onFab f).mem = s.mem := rfl
@[simp] theorem onFab_care_frame (f : FabState → FabState) : (s.onFab f).care = s.care := rfl
@[simp] theorem onFab_coh_frame (f : FabState → FabState) : (s.onFab f).coh = s.coh := rfl
@[simp] theorem onFab_rlg_frame (f : FabState → FabState) : (s.onFab f).rlg = s.rlg := rfl
@[simp] theorem onFab_tlb_frame (f : FabState → FabState) : (s.onFab f).tlb = s.tlb := rfl
@[simp] theorem onFab_str_frame (f : FabState → FabState) : (s.onFab f).str = s.str := rfl
@[simp] theorem onFab_upe_frame (f : FabState → FabState) : (s.onFab f).upe = s.upe := rfl
@[simp] theorem onFab_mxa_frame (f : FabState → FabState) : (s.onFab f).mxa = s.mxa := rfl
@[simp] theorem onFab_kvs_frame (f : FabState → FabState) : (s.onFab f).kvs = s.kvs := rfl
@[simp] theorem onFab_rng_frame (f : FabState → FabState) : (s.onFab f).rng = s.rng := rfl
@[simp] theorem onFab_fum_frame (f : FabState → FabState) : (s.onFab f).fum = s.fum := rfl
@[simp] theorem onFab_flt_frame (f : FabState → FabState) : (s.onFab f).flt = s.flt := rfl
@[simp] theorem onFab_host_frame (f : FabState → FabState) : (s.onFab f).host = s.host := rfl
@[simp] theorem onFab_mod_frame (f : FabState → FabState) : (s.onFab f).mod = s.mod := rfl
@[simp] theorem onFab_lights_frame (f : FabState → FabState) : (s.onFab f).lights = s.lights := rfl
@[simp] theorem onFab_boot_frame (f : FabState → FabState) : (s.onFab f).boot = s.boot := rfl
@[simp] theorem onFab_rst_frame (f : FabState → FabState) : (s.onFab f).rst = s.rst := rfl
@[simp] theorem onFab_flash_frame (f : FabState → FabState) : (s.onFab f).flash = s.flash := rfl
@[simp] theorem onFab_get_frame (f : FabState → FabState) (g : Fld) : (s.onFab f).get g = s.get g := rfl
@[simp] theorem onFab_flag_frame (f : FabState → FabState) (g : Fld) : (s.onFab f).flag g = s.flag g := rfl
@[simp] theorem onFab_own (f : FabState → FabState) : (s.onFab f).fab = f s.fab := rfl

@[simp] theorem onCal_pending_frame (f : CalState → CalState) : (s.onCal f).pending = s.pending := rfl
@[simp] theorem onCal_regs_frame (f : CalState → CalState) : (s.onCal f).regs = s.regs := rfl
@[simp] theorem onCal_now_frame (f : CalState → CalState) : (s.onCal f).now = s.now := rfl
@[simp] theorem onCal_free_frame (f : CalState → CalState) : (s.onCal f).free = s.free := rfl
@[simp] theorem onCal_sent_frame (f : CalState → CalState) : (s.onCal f).sent = s.sent := rfl
@[simp] theorem onCal_tick_frame (f : CalState → CalState) : (s.onCal f).tick = s.tick := rfl
@[simp] theorem onCal_ports_frame (f : CalState → CalState) : (s.onCal f).ports = s.ports := rfl
@[simp] theorem onCal_fab_frame (f : CalState → CalState) : (s.onCal f).fab = s.fab := rfl
@[simp] theorem onCal_mem_frame (f : CalState → CalState) : (s.onCal f).mem = s.mem := rfl
@[simp] theorem onCal_care_frame (f : CalState → CalState) : (s.onCal f).care = s.care := rfl
@[simp] theorem onCal_coh_frame (f : CalState → CalState) : (s.onCal f).coh = s.coh := rfl
@[simp] theorem onCal_rlg_frame (f : CalState → CalState) : (s.onCal f).rlg = s.rlg := rfl
@[simp] theorem onCal_tlb_frame (f : CalState → CalState) : (s.onCal f).tlb = s.tlb := rfl
@[simp] theorem onCal_str_frame (f : CalState → CalState) : (s.onCal f).str = s.str := rfl
@[simp] theorem onCal_upe_frame (f : CalState → CalState) : (s.onCal f).upe = s.upe := rfl
@[simp] theorem onCal_mxa_frame (f : CalState → CalState) : (s.onCal f).mxa = s.mxa := rfl
@[simp] theorem onCal_kvs_frame (f : CalState → CalState) : (s.onCal f).kvs = s.kvs := rfl
@[simp] theorem onCal_rng_frame (f : CalState → CalState) : (s.onCal f).rng = s.rng := rfl
@[simp] theorem onCal_fum_frame (f : CalState → CalState) : (s.onCal f).fum = s.fum := rfl
@[simp] theorem onCal_flt_frame (f : CalState → CalState) : (s.onCal f).flt = s.flt := rfl
@[simp] theorem onCal_host_frame (f : CalState → CalState) : (s.onCal f).host = s.host := rfl
@[simp] theorem onCal_mod_frame (f : CalState → CalState) : (s.onCal f).mod = s.mod := rfl
@[simp] theorem onCal_lights_frame (f : CalState → CalState) : (s.onCal f).lights = s.lights := rfl
@[simp] theorem onCal_boot_frame (f : CalState → CalState) : (s.onCal f).boot = s.boot := rfl
@[simp] theorem onCal_rst_frame (f : CalState → CalState) : (s.onCal f).rst = s.rst := rfl
@[simp] theorem onCal_flash_frame (f : CalState → CalState) : (s.onCal f).flash = s.flash := rfl
@[simp] theorem onCal_get_frame (f : CalState → CalState) (g : Fld) : (s.onCal f).get g = s.get g := rfl
@[simp] theorem onCal_flag_frame (f : CalState → CalState) (g : Fld) : (s.onCal f).flag g = s.flag g := rfl
@[simp] theorem onCal_own (f : CalState → CalState) : (s.onCal f).cal = f s.cal := rfl

@[simp] theorem onBoot_pending_frame (f : BootState → BootState) : (s.onBoot f).pending = s.pending := rfl
@[simp] theorem onBoot_regs_frame (f : BootState → BootState) : (s.onBoot f).regs = s.regs := rfl
@[simp] theorem onBoot_now_frame (f : BootState → BootState) : (s.onBoot f).now = s.now := rfl
@[simp] theorem onBoot_free_frame (f : BootState → BootState) : (s.onBoot f).free = s.free := rfl
@[simp] theorem onBoot_sent_frame (f : BootState → BootState) : (s.onBoot f).sent = s.sent := rfl
@[simp] theorem onBoot_tick_frame (f : BootState → BootState) : (s.onBoot f).tick = s.tick := rfl
@[simp] theorem onBoot_ports_frame (f : BootState → BootState) : (s.onBoot f).ports = s.ports := rfl
@[simp] theorem onBoot_fab_frame (f : BootState → BootState) : (s.onBoot f).fab = s.fab := rfl
@[simp] theorem onBoot_cal_frame (f : BootState → BootState) : (s.onBoot f).cal = s.cal := rfl
@[simp] theorem onBoot_mem_frame (f : BootState → BootState) : (s.onBoot f).mem = s.mem := rfl
@[simp] theorem onBoot_care_frame (f : BootState → BootState) : (s.onBoot f).care = s.care := rfl
@[simp] theorem onBoot_coh_frame (f : BootState → BootState) : (s.onBoot f).coh = s.coh := rfl
@[simp] theorem onBoot_rlg_frame (f : BootState → BootState) : (s.onBoot f).rlg = s.rlg := rfl
@[simp] theorem onBoot_tlb_frame (f : BootState → BootState) : (s.onBoot f).tlb = s.tlb := rfl
@[simp] theorem onBoot_str_frame (f : BootState → BootState) : (s.onBoot f).str = s.str := rfl
@[simp] theorem onBoot_upe_frame (f : BootState → BootState) : (s.onBoot f).upe = s.upe := rfl
@[simp] theorem onBoot_mxa_frame (f : BootState → BootState) : (s.onBoot f).mxa = s.mxa := rfl
@[simp] theorem onBoot_kvs_frame (f : BootState → BootState) : (s.onBoot f).kvs = s.kvs := rfl
@[simp] theorem onBoot_rng_frame (f : BootState → BootState) : (s.onBoot f).rng = s.rng := rfl
@[simp] theorem onBoot_fum_frame (f : BootState → BootState) : (s.onBoot f).fum = s.fum := rfl
@[simp] theorem onBoot_flt_frame (f : BootState → BootState) : (s.onBoot f).flt = s.flt := rfl
@[simp] theorem onBoot_host_frame (f : BootState → BootState) : (s.onBoot f).host = s.host := rfl
@[simp] theorem onBoot_mod_frame (f : BootState → BootState) : (s.onBoot f).mod = s.mod := rfl
@[simp] theorem onBoot_lights_frame (f : BootState → BootState) : (s.onBoot f).lights = s.lights := rfl
@[simp] theorem onBoot_rst_frame (f : BootState → BootState) : (s.onBoot f).rst = s.rst := rfl
@[simp] theorem onBoot_flash_frame (f : BootState → BootState) : (s.onBoot f).flash = s.flash := rfl
@[simp] theorem onBoot_get_frame (f : BootState → BootState) (g : Fld) : (s.onBoot f).get g = s.get g := rfl
@[simp] theorem onBoot_flag_frame (f : BootState → BootState) (g : Fld) : (s.onBoot f).flag g = s.flag g := rfl
@[simp] theorem onBoot_own (f : BootState → BootState) : (s.onBoot f).boot = f s.boot := rfl

@[simp] theorem onEng_pending_frame (e : Nat) (f : Eng → Eng) : (s.onEng e f).pending = s.pending := rfl
@[simp] theorem onEng_regs_frame (e : Nat) (f : Eng → Eng) : (s.onEng e f).regs = s.regs := rfl
@[simp] theorem onEng_now_frame (e : Nat) (f : Eng → Eng) : (s.onEng e f).now = s.now := rfl
@[simp] theorem onEng_free_frame (e : Nat) (f : Eng → Eng) : (s.onEng e f).free = s.free := rfl
@[simp] theorem onEng_sent_frame (e : Nat) (f : Eng → Eng) : (s.onEng e f).sent = s.sent := rfl
@[simp] theorem onEng_tick_frame (e : Nat) (f : Eng → Eng) : (s.onEng e f).tick = s.tick := rfl
@[simp] theorem onEng_ports_frame (e : Nat) (f : Eng → Eng) : (s.onEng e f).ports = s.ports := rfl
@[simp] theorem onEng_fab_frame (e : Nat) (f : Eng → Eng) : (s.onEng e f).fab = s.fab := rfl
@[simp] theorem onEng_cal_frame (e : Nat) (f : Eng → Eng) : (s.onEng e f).cal = s.cal := rfl
@[simp] theorem onEng_mem_frame (e : Nat) (f : Eng → Eng) : (s.onEng e f).mem = s.mem := rfl
@[simp] theorem onEng_care_frame (e : Nat) (f : Eng → Eng) : (s.onEng e f).care = s.care := rfl
@[simp] theorem onEng_coh_frame (e : Nat) (f : Eng → Eng) : (s.onEng e f).coh = s.coh := rfl
@[simp] theorem onEng_rlg_frame (e : Nat) (f : Eng → Eng) : (s.onEng e f).rlg = s.rlg := rfl
@[simp] theorem onEng_tlb_frame (e : Nat) (f : Eng → Eng) : (s.onEng e f).tlb = s.tlb := rfl
@[simp] theorem onEng_str_frame (e : Nat) (f : Eng → Eng) : (s.onEng e f).str = s.str := rfl
@[simp] theorem onEng_mxa_frame (e : Nat) (f : Eng → Eng) : (s.onEng e f).mxa = s.mxa := rfl
@[simp] theorem onEng_kvs_frame (e : Nat) (f : Eng → Eng) : (s.onEng e f).kvs = s.kvs := rfl
@[simp] theorem onEng_rng_frame (e : Nat) (f : Eng → Eng) : (s.onEng e f).rng = s.rng := rfl
@[simp] theorem onEng_fum_frame (e : Nat) (f : Eng → Eng) : (s.onEng e f).fum = s.fum := rfl
@[simp] theorem onEng_flt_frame (e : Nat) (f : Eng → Eng) : (s.onEng e f).flt = s.flt := rfl
@[simp] theorem onEng_host_frame (e : Nat) (f : Eng → Eng) : (s.onEng e f).host = s.host := rfl
@[simp] theorem onEng_mod_frame (e : Nat) (f : Eng → Eng) : (s.onEng e f).mod = s.mod := rfl
@[simp] theorem onEng_lights_frame (e : Nat) (f : Eng → Eng) : (s.onEng e f).lights = s.lights := rfl
@[simp] theorem onEng_boot_frame (e : Nat) (f : Eng → Eng) : (s.onEng e f).boot = s.boot := rfl
@[simp] theorem onEng_rst_frame (e : Nat) (f : Eng → Eng) : (s.onEng e f).rst = s.rst := rfl
@[simp] theorem onEng_flash_frame (e : Nat) (f : Eng → Eng) : (s.onEng e f).flash = s.flash := rfl
@[simp] theorem onEng_get_frame (e : Nat) (f : Eng → Eng) (g : Fld) : (s.onEng e f).get g = s.get g := rfl
@[simp] theorem onEng_flag_frame (e : Nat) (f : Eng → Eng) (g : Fld) : (s.onEng e f).flag g = s.flag g := rfl

@[simp] theorem onFlt_pending_frame (f : FltState → FltState) : (s.onFlt f).pending = s.pending := rfl
@[simp] theorem onFlt_regs_frame (f : FltState → FltState) : (s.onFlt f).regs = s.regs := rfl
@[simp] theorem onFlt_now_frame (f : FltState → FltState) : (s.onFlt f).now = s.now := rfl
@[simp] theorem onFlt_free_frame (f : FltState → FltState) : (s.onFlt f).free = s.free := rfl
@[simp] theorem onFlt_sent_frame (f : FltState → FltState) : (s.onFlt f).sent = s.sent := rfl
@[simp] theorem onFlt_tick_frame (f : FltState → FltState) : (s.onFlt f).tick = s.tick := rfl
@[simp] theorem onFlt_ports_frame (f : FltState → FltState) : (s.onFlt f).ports = s.ports := rfl
@[simp] theorem onFlt_fab_frame (f : FltState → FltState) : (s.onFlt f).fab = s.fab := rfl
@[simp] theorem onFlt_cal_frame (f : FltState → FltState) : (s.onFlt f).cal = s.cal := rfl
@[simp] theorem onFlt_mem_frame (f : FltState → FltState) : (s.onFlt f).mem = s.mem := rfl
@[simp] theorem onFlt_care_frame (f : FltState → FltState) : (s.onFlt f).care = s.care := rfl
@[simp] theorem onFlt_coh_frame (f : FltState → FltState) : (s.onFlt f).coh = s.coh := rfl
@[simp] theorem onFlt_rlg_frame (f : FltState → FltState) : (s.onFlt f).rlg = s.rlg := rfl
@[simp] theorem onFlt_tlb_frame (f : FltState → FltState) : (s.onFlt f).tlb = s.tlb := rfl
@[simp] theorem onFlt_str_frame (f : FltState → FltState) : (s.onFlt f).str = s.str := rfl
@[simp] theorem onFlt_upe_frame (f : FltState → FltState) : (s.onFlt f).upe = s.upe := rfl
@[simp] theorem onFlt_mxa_frame (f : FltState → FltState) : (s.onFlt f).mxa = s.mxa := rfl
@[simp] theorem onFlt_kvs_frame (f : FltState → FltState) : (s.onFlt f).kvs = s.kvs := rfl
@[simp] theorem onFlt_rng_frame (f : FltState → FltState) : (s.onFlt f).rng = s.rng := rfl
@[simp] theorem onFlt_fum_frame (f : FltState → FltState) : (s.onFlt f).fum = s.fum := rfl
@[simp] theorem onFlt_host_frame (f : FltState → FltState) : (s.onFlt f).host = s.host := rfl
@[simp] theorem onFlt_mod_frame (f : FltState → FltState) : (s.onFlt f).mod = s.mod := rfl
@[simp] theorem onFlt_lights_frame (f : FltState → FltState) : (s.onFlt f).lights = s.lights := rfl
@[simp] theorem onFlt_boot_frame (f : FltState → FltState) : (s.onFlt f).boot = s.boot := rfl
@[simp] theorem onFlt_rst_frame (f : FltState → FltState) : (s.onFlt f).rst = s.rst := rfl
@[simp] theorem onFlt_flash_frame (f : FltState → FltState) : (s.onFlt f).flash = s.flash := rfl
@[simp] theorem onFlt_get_frame (f : FltState → FltState) (g : Fld) : (s.onFlt f).get g = s.get g := rfl
@[simp] theorem onFlt_flag_frame (f : FltState → FltState) (g : Fld) : (s.onFlt f).flag g = s.flag g := rfl
@[simp] theorem onFlt_own (f : FltState → FltState) : (s.onFlt f).flt = f s.flt := rfl

@[simp] theorem onHost_pending_frame (f : HostState → HostState) : (s.onHost f).pending = s.pending := rfl
@[simp] theorem onHost_regs_frame (f : HostState → HostState) : (s.onHost f).regs = s.regs := rfl
@[simp] theorem onHost_now_frame (f : HostState → HostState) : (s.onHost f).now = s.now := rfl
@[simp] theorem onHost_free_frame (f : HostState → HostState) : (s.onHost f).free = s.free := rfl
@[simp] theorem onHost_sent_frame (f : HostState → HostState) : (s.onHost f).sent = s.sent := rfl
@[simp] theorem onHost_tick_frame (f : HostState → HostState) : (s.onHost f).tick = s.tick := rfl
@[simp] theorem onHost_ports_frame (f : HostState → HostState) : (s.onHost f).ports = s.ports := rfl
@[simp] theorem onHost_fab_frame (f : HostState → HostState) : (s.onHost f).fab = s.fab := rfl
@[simp] theorem onHost_cal_frame (f : HostState → HostState) : (s.onHost f).cal = s.cal := rfl
@[simp] theorem onHost_mem_frame (f : HostState → HostState) : (s.onHost f).mem = s.mem := rfl
@[simp] theorem onHost_care_frame (f : HostState → HostState) : (s.onHost f).care = s.care := rfl
@[simp] theorem onHost_coh_frame (f : HostState → HostState) : (s.onHost f).coh = s.coh := rfl
@[simp] theorem onHost_rlg_frame (f : HostState → HostState) : (s.onHost f).rlg = s.rlg := rfl
@[simp] theorem onHost_tlb_frame (f : HostState → HostState) : (s.onHost f).tlb = s.tlb := rfl
@[simp] theorem onHost_str_frame (f : HostState → HostState) : (s.onHost f).str = s.str := rfl
@[simp] theorem onHost_upe_frame (f : HostState → HostState) : (s.onHost f).upe = s.upe := rfl
@[simp] theorem onHost_mxa_frame (f : HostState → HostState) : (s.onHost f).mxa = s.mxa := rfl
@[simp] theorem onHost_kvs_frame (f : HostState → HostState) : (s.onHost f).kvs = s.kvs := rfl
@[simp] theorem onHost_rng_frame (f : HostState → HostState) : (s.onHost f).rng = s.rng := rfl
@[simp] theorem onHost_fum_frame (f : HostState → HostState) : (s.onHost f).fum = s.fum := rfl
@[simp] theorem onHost_flt_frame (f : HostState → HostState) : (s.onHost f).flt = s.flt := rfl
@[simp] theorem onHost_mod_frame (f : HostState → HostState) : (s.onHost f).mod = s.mod := rfl
@[simp] theorem onHost_lights_frame (f : HostState → HostState) : (s.onHost f).lights = s.lights := rfl
@[simp] theorem onHost_boot_frame (f : HostState → HostState) : (s.onHost f).boot = s.boot := rfl
@[simp] theorem onHost_rst_frame (f : HostState → HostState) : (s.onHost f).rst = s.rst := rfl
@[simp] theorem onHost_flash_frame (f : HostState → HostState) : (s.onHost f).flash = s.flash := rfl
@[simp] theorem onHost_get_frame (f : HostState → HostState) (g : Fld) : (s.onHost f).get g = s.get g := rfl
@[simp] theorem onHost_flag_frame (f : HostState → HostState) (g : Fld) : (s.onHost f).flag g = s.flag g := rfl
@[simp] theorem onHost_own (f : HostState → HostState) : (s.onHost f).host = f s.host := rfl

@[simp] theorem onQueue_pending_frame (q : Nat) (f : HQueue → HQueue) : (s.onQueue q f).pending = s.pending := rfl
@[simp] theorem onQueue_regs_frame (q : Nat) (f : HQueue → HQueue) : (s.onQueue q f).regs = s.regs := rfl
@[simp] theorem onQueue_now_frame (q : Nat) (f : HQueue → HQueue) : (s.onQueue q f).now = s.now := rfl
@[simp] theorem onQueue_free_frame (q : Nat) (f : HQueue → HQueue) : (s.onQueue q f).free = s.free := rfl
@[simp] theorem onQueue_sent_frame (q : Nat) (f : HQueue → HQueue) : (s.onQueue q f).sent = s.sent := rfl
@[simp] theorem onQueue_tick_frame (q : Nat) (f : HQueue → HQueue) : (s.onQueue q f).tick = s.tick := rfl
@[simp] theorem onQueue_ports_frame (q : Nat) (f : HQueue → HQueue) : (s.onQueue q f).ports = s.ports := rfl
@[simp] theorem onQueue_fab_frame (q : Nat) (f : HQueue → HQueue) : (s.onQueue q f).fab = s.fab := rfl
@[simp] theorem onQueue_cal_frame (q : Nat) (f : HQueue → HQueue) : (s.onQueue q f).cal = s.cal := rfl
@[simp] theorem onQueue_mem_frame (q : Nat) (f : HQueue → HQueue) : (s.onQueue q f).mem = s.mem := rfl
@[simp] theorem onQueue_care_frame (q : Nat) (f : HQueue → HQueue) : (s.onQueue q f).care = s.care := rfl
@[simp] theorem onQueue_coh_frame (q : Nat) (f : HQueue → HQueue) : (s.onQueue q f).coh = s.coh := rfl
@[simp] theorem onQueue_rlg_frame (q : Nat) (f : HQueue → HQueue) : (s.onQueue q f).rlg = s.rlg := rfl
@[simp] theorem onQueue_tlb_frame (q : Nat) (f : HQueue → HQueue) : (s.onQueue q f).tlb = s.tlb := rfl
@[simp] theorem onQueue_str_frame (q : Nat) (f : HQueue → HQueue) : (s.onQueue q f).str = s.str := rfl
@[simp] theorem onQueue_upe_frame (q : Nat) (f : HQueue → HQueue) : (s.onQueue q f).upe = s.upe := rfl
@[simp] theorem onQueue_mxa_frame (q : Nat) (f : HQueue → HQueue) : (s.onQueue q f).mxa = s.mxa := rfl
@[simp] theorem onQueue_kvs_frame (q : Nat) (f : HQueue → HQueue) : (s.onQueue q f).kvs = s.kvs := rfl
@[simp] theorem onQueue_rng_frame (q : Nat) (f : HQueue → HQueue) : (s.onQueue q f).rng = s.rng := rfl
@[simp] theorem onQueue_fum_frame (q : Nat) (f : HQueue → HQueue) : (s.onQueue q f).fum = s.fum := rfl
@[simp] theorem onQueue_flt_frame (q : Nat) (f : HQueue → HQueue) : (s.onQueue q f).flt = s.flt := rfl
@[simp] theorem onQueue_mod_frame (q : Nat) (f : HQueue → HQueue) : (s.onQueue q f).mod = s.mod := rfl
@[simp] theorem onQueue_lights_frame (q : Nat) (f : HQueue → HQueue) : (s.onQueue q f).lights = s.lights := rfl
@[simp] theorem onQueue_boot_frame (q : Nat) (f : HQueue → HQueue) : (s.onQueue q f).boot = s.boot := rfl
@[simp] theorem onQueue_rst_frame (q : Nat) (f : HQueue → HQueue) : (s.onQueue q f).rst = s.rst := rfl
@[simp] theorem onQueue_flash_frame (q : Nat) (f : HQueue → HQueue) : (s.onQueue q f).flash = s.flash := rfl
@[simp] theorem onQueue_get_frame (q : Nat) (f : HQueue → HQueue) (g : Fld) : (s.onQueue q f).get g = s.get g := rfl
@[simp] theorem onQueue_flag_frame (q : Nat) (f : HQueue → HQueue) (g : Fld) : (s.onQueue q f).flag g = s.flag g := rfl

@[simp] theorem onMod_pending_frame (f : ModState → ModState) : (s.onMod f).pending = s.pending := rfl
@[simp] theorem onMod_regs_frame (f : ModState → ModState) : (s.onMod f).regs = s.regs := rfl
@[simp] theorem onMod_now_frame (f : ModState → ModState) : (s.onMod f).now = s.now := rfl
@[simp] theorem onMod_free_frame (f : ModState → ModState) : (s.onMod f).free = s.free := rfl
@[simp] theorem onMod_sent_frame (f : ModState → ModState) : (s.onMod f).sent = s.sent := rfl
@[simp] theorem onMod_tick_frame (f : ModState → ModState) : (s.onMod f).tick = s.tick := rfl
@[simp] theorem onMod_ports_frame (f : ModState → ModState) : (s.onMod f).ports = s.ports := rfl
@[simp] theorem onMod_fab_frame (f : ModState → ModState) : (s.onMod f).fab = s.fab := rfl
@[simp] theorem onMod_cal_frame (f : ModState → ModState) : (s.onMod f).cal = s.cal := rfl
@[simp] theorem onMod_mem_frame (f : ModState → ModState) : (s.onMod f).mem = s.mem := rfl
@[simp] theorem onMod_care_frame (f : ModState → ModState) : (s.onMod f).care = s.care := rfl
@[simp] theorem onMod_coh_frame (f : ModState → ModState) : (s.onMod f).coh = s.coh := rfl
@[simp] theorem onMod_rlg_frame (f : ModState → ModState) : (s.onMod f).rlg = s.rlg := rfl
@[simp] theorem onMod_tlb_frame (f : ModState → ModState) : (s.onMod f).tlb = s.tlb := rfl
@[simp] theorem onMod_str_frame (f : ModState → ModState) : (s.onMod f).str = s.str := rfl
@[simp] theorem onMod_upe_frame (f : ModState → ModState) : (s.onMod f).upe = s.upe := rfl
@[simp] theorem onMod_mxa_frame (f : ModState → ModState) : (s.onMod f).mxa = s.mxa := rfl
@[simp] theorem onMod_kvs_frame (f : ModState → ModState) : (s.onMod f).kvs = s.kvs := rfl
@[simp] theorem onMod_rng_frame (f : ModState → ModState) : (s.onMod f).rng = s.rng := rfl
@[simp] theorem onMod_fum_frame (f : ModState → ModState) : (s.onMod f).fum = s.fum := rfl
@[simp] theorem onMod_flt_frame (f : ModState → ModState) : (s.onMod f).flt = s.flt := rfl
@[simp] theorem onMod_host_frame (f : ModState → ModState) : (s.onMod f).host = s.host := rfl
@[simp] theorem onMod_lights_frame (f : ModState → ModState) : (s.onMod f).lights = s.lights := rfl
@[simp] theorem onMod_boot_frame (f : ModState → ModState) : (s.onMod f).boot = s.boot := rfl
@[simp] theorem onMod_rst_frame (f : ModState → ModState) : (s.onMod f).rst = s.rst := rfl
@[simp] theorem onMod_flash_frame (f : ModState → ModState) : (s.onMod f).flash = s.flash := rfl
@[simp] theorem onMod_get_frame (f : ModState → ModState) (g : Fld) : (s.onMod f).get g = s.get g := rfl
@[simp] theorem onMod_flag_frame (f : ModState → ModState) (g : Fld) : (s.onMod f).flag g = s.flag g := rfl
@[simp] theorem onMod_own (f : ModState → ModState) : (s.onMod f).mod = f s.mod := rfl

@[simp] theorem onFum_pending_frame (f : FumState → FumState) : (s.onFum f).pending = s.pending := rfl
@[simp] theorem onFum_regs_frame (f : FumState → FumState) : (s.onFum f).regs = s.regs := rfl
@[simp] theorem onFum_now_frame (f : FumState → FumState) : (s.onFum f).now = s.now := rfl
@[simp] theorem onFum_free_frame (f : FumState → FumState) : (s.onFum f).free = s.free := rfl
@[simp] theorem onFum_sent_frame (f : FumState → FumState) : (s.onFum f).sent = s.sent := rfl
@[simp] theorem onFum_tick_frame (f : FumState → FumState) : (s.onFum f).tick = s.tick := rfl
@[simp] theorem onFum_ports_frame (f : FumState → FumState) : (s.onFum f).ports = s.ports := rfl
@[simp] theorem onFum_fab_frame (f : FumState → FumState) : (s.onFum f).fab = s.fab := rfl
@[simp] theorem onFum_cal_frame (f : FumState → FumState) : (s.onFum f).cal = s.cal := rfl
@[simp] theorem onFum_mem_frame (f : FumState → FumState) : (s.onFum f).mem = s.mem := rfl
@[simp] theorem onFum_care_frame (f : FumState → FumState) : (s.onFum f).care = s.care := rfl
@[simp] theorem onFum_coh_frame (f : FumState → FumState) : (s.onFum f).coh = s.coh := rfl
@[simp] theorem onFum_rlg_frame (f : FumState → FumState) : (s.onFum f).rlg = s.rlg := rfl
@[simp] theorem onFum_tlb_frame (f : FumState → FumState) : (s.onFum f).tlb = s.tlb := rfl
@[simp] theorem onFum_str_frame (f : FumState → FumState) : (s.onFum f).str = s.str := rfl
@[simp] theorem onFum_upe_frame (f : FumState → FumState) : (s.onFum f).upe = s.upe := rfl
@[simp] theorem onFum_mxa_frame (f : FumState → FumState) : (s.onFum f).mxa = s.mxa := rfl
@[simp] theorem onFum_kvs_frame (f : FumState → FumState) : (s.onFum f).kvs = s.kvs := rfl
@[simp] theorem onFum_rng_frame (f : FumState → FumState) : (s.onFum f).rng = s.rng := rfl
@[simp] theorem onFum_flt_frame (f : FumState → FumState) : (s.onFum f).flt = s.flt := rfl
@[simp] theorem onFum_host_frame (f : FumState → FumState) : (s.onFum f).host = s.host := rfl
@[simp] theorem onFum_mod_frame (f : FumState → FumState) : (s.onFum f).mod = s.mod := rfl
@[simp] theorem onFum_lights_frame (f : FumState → FumState) : (s.onFum f).lights = s.lights := rfl
@[simp] theorem onFum_boot_frame (f : FumState → FumState) : (s.onFum f).boot = s.boot := rfl
@[simp] theorem onFum_rst_frame (f : FumState → FumState) : (s.onFum f).rst = s.rst := rfl
@[simp] theorem onFum_flash_frame (f : FumState → FumState) : (s.onFum f).flash = s.flash := rfl
@[simp] theorem onFum_get_frame (f : FumState → FumState) (g : Fld) : (s.onFum f).get g = s.get g := rfl
@[simp] theorem onFum_flag_frame (f : FumState → FumState) (g : Fld) : (s.onFum f).flag g = s.flag g := rfl
@[simp] theorem onFum_own (f : FumState → FumState) : (s.onFum f).fum = f s.fum := rfl

@[simp] theorem onRng_pending_frame (f : RngState → RngState) : (s.onRng f).pending = s.pending := rfl
@[simp] theorem onRng_regs_frame (f : RngState → RngState) : (s.onRng f).regs = s.regs := rfl
@[simp] theorem onRng_now_frame (f : RngState → RngState) : (s.onRng f).now = s.now := rfl
@[simp] theorem onRng_free_frame (f : RngState → RngState) : (s.onRng f).free = s.free := rfl
@[simp] theorem onRng_sent_frame (f : RngState → RngState) : (s.onRng f).sent = s.sent := rfl
@[simp] theorem onRng_tick_frame (f : RngState → RngState) : (s.onRng f).tick = s.tick := rfl
@[simp] theorem onRng_ports_frame (f : RngState → RngState) : (s.onRng f).ports = s.ports := rfl
@[simp] theorem onRng_fab_frame (f : RngState → RngState) : (s.onRng f).fab = s.fab := rfl
@[simp] theorem onRng_cal_frame (f : RngState → RngState) : (s.onRng f).cal = s.cal := rfl
@[simp] theorem onRng_mem_frame (f : RngState → RngState) : (s.onRng f).mem = s.mem := rfl
@[simp] theorem onRng_care_frame (f : RngState → RngState) : (s.onRng f).care = s.care := rfl
@[simp] theorem onRng_coh_frame (f : RngState → RngState) : (s.onRng f).coh = s.coh := rfl
@[simp] theorem onRng_rlg_frame (f : RngState → RngState) : (s.onRng f).rlg = s.rlg := rfl
@[simp] theorem onRng_tlb_frame (f : RngState → RngState) : (s.onRng f).tlb = s.tlb := rfl
@[simp] theorem onRng_str_frame (f : RngState → RngState) : (s.onRng f).str = s.str := rfl
@[simp] theorem onRng_upe_frame (f : RngState → RngState) : (s.onRng f).upe = s.upe := rfl
@[simp] theorem onRng_mxa_frame (f : RngState → RngState) : (s.onRng f).mxa = s.mxa := rfl
@[simp] theorem onRng_kvs_frame (f : RngState → RngState) : (s.onRng f).kvs = s.kvs := rfl
@[simp] theorem onRng_fum_frame (f : RngState → RngState) : (s.onRng f).fum = s.fum := rfl
@[simp] theorem onRng_flt_frame (f : RngState → RngState) : (s.onRng f).flt = s.flt := rfl
@[simp] theorem onRng_host_frame (f : RngState → RngState) : (s.onRng f).host = s.host := rfl
@[simp] theorem onRng_mod_frame (f : RngState → RngState) : (s.onRng f).mod = s.mod := rfl
@[simp] theorem onRng_lights_frame (f : RngState → RngState) : (s.onRng f).lights = s.lights := rfl
@[simp] theorem onRng_boot_frame (f : RngState → RngState) : (s.onRng f).boot = s.boot := rfl
@[simp] theorem onRng_rst_frame (f : RngState → RngState) : (s.onRng f).rst = s.rst := rfl
@[simp] theorem onRng_flash_frame (f : RngState → RngState) : (s.onRng f).flash = s.flash := rfl
@[simp] theorem onRng_get_frame (f : RngState → RngState) (g : Fld) : (s.onRng f).get g = s.get g := rfl
@[simp] theorem onRng_flag_frame (f : RngState → RngState) (g : Fld) : (s.onRng f).flag g = s.flag g := rfl
@[simp] theorem onRng_own (f : RngState → RngState) : (s.onRng f).rng = f s.rng := rfl

@[simp] theorem onRst_pending_frame (f : RstState → RstState) : (s.onRst f).pending = s.pending := rfl
@[simp] theorem onRst_regs_frame (f : RstState → RstState) : (s.onRst f).regs = s.regs := rfl
@[simp] theorem onRst_now_frame (f : RstState → RstState) : (s.onRst f).now = s.now := rfl
@[simp] theorem onRst_free_frame (f : RstState → RstState) : (s.onRst f).free = s.free := rfl
@[simp] theorem onRst_sent_frame (f : RstState → RstState) : (s.onRst f).sent = s.sent := rfl
@[simp] theorem onRst_tick_frame (f : RstState → RstState) : (s.onRst f).tick = s.tick := rfl
@[simp] theorem onRst_ports_frame (f : RstState → RstState) : (s.onRst f).ports = s.ports := rfl
@[simp] theorem onRst_fab_frame (f : RstState → RstState) : (s.onRst f).fab = s.fab := rfl
@[simp] theorem onRst_cal_frame (f : RstState → RstState) : (s.onRst f).cal = s.cal := rfl
@[simp] theorem onRst_mem_frame (f : RstState → RstState) : (s.onRst f).mem = s.mem := rfl
@[simp] theorem onRst_care_frame (f : RstState → RstState) : (s.onRst f).care = s.care := rfl
@[simp] theorem onRst_coh_frame (f : RstState → RstState) : (s.onRst f).coh = s.coh := rfl
@[simp] theorem onRst_rlg_frame (f : RstState → RstState) : (s.onRst f).rlg = s.rlg := rfl
@[simp] theorem onRst_tlb_frame (f : RstState → RstState) : (s.onRst f).tlb = s.tlb := rfl
@[simp] theorem onRst_str_frame (f : RstState → RstState) : (s.onRst f).str = s.str := rfl
@[simp] theorem onRst_upe_frame (f : RstState → RstState) : (s.onRst f).upe = s.upe := rfl
@[simp] theorem onRst_mxa_frame (f : RstState → RstState) : (s.onRst f).mxa = s.mxa := rfl
@[simp] theorem onRst_kvs_frame (f : RstState → RstState) : (s.onRst f).kvs = s.kvs := rfl
@[simp] theorem onRst_rng_frame (f : RstState → RstState) : (s.onRst f).rng = s.rng := rfl
@[simp] theorem onRst_fum_frame (f : RstState → RstState) : (s.onRst f).fum = s.fum := rfl
@[simp] theorem onRst_flt_frame (f : RstState → RstState) : (s.onRst f).flt = s.flt := rfl
@[simp] theorem onRst_host_frame (f : RstState → RstState) : (s.onRst f).host = s.host := rfl
@[simp] theorem onRst_mod_frame (f : RstState → RstState) : (s.onRst f).mod = s.mod := rfl
@[simp] theorem onRst_lights_frame (f : RstState → RstState) : (s.onRst f).lights = s.lights := rfl
@[simp] theorem onRst_boot_frame (f : RstState → RstState) : (s.onRst f).boot = s.boot := rfl
@[simp] theorem onRst_flash_frame (f : RstState → RstState) : (s.onRst f).flash = s.flash := rfl
@[simp] theorem onRst_get_frame (f : RstState → RstState) (g : Fld) : (s.onRst f).get g = s.get g := rfl
@[simp] theorem onRst_flag_frame (f : RstState → RstState) (g : Fld) : (s.onRst f).flag g = s.flag g := rfl
@[simp] theorem onRst_own (f : RstState → RstState) : (s.onRst f).rst = f s.rst := rfl

@[simp] theorem onRlg_pending_frame (f : RlgState → RlgState) : (s.onRlg f).pending = s.pending := rfl
@[simp] theorem onRlg_regs_frame (f : RlgState → RlgState) : (s.onRlg f).regs = s.regs := rfl
@[simp] theorem onRlg_now_frame (f : RlgState → RlgState) : (s.onRlg f).now = s.now := rfl
@[simp] theorem onRlg_free_frame (f : RlgState → RlgState) : (s.onRlg f).free = s.free := rfl
@[simp] theorem onRlg_sent_frame (f : RlgState → RlgState) : (s.onRlg f).sent = s.sent := rfl
@[simp] theorem onRlg_tick_frame (f : RlgState → RlgState) : (s.onRlg f).tick = s.tick := rfl
@[simp] theorem onRlg_ports_frame (f : RlgState → RlgState) : (s.onRlg f).ports = s.ports := rfl
@[simp] theorem onRlg_fab_frame (f : RlgState → RlgState) : (s.onRlg f).fab = s.fab := rfl
@[simp] theorem onRlg_cal_frame (f : RlgState → RlgState) : (s.onRlg f).cal = s.cal := rfl
@[simp] theorem onRlg_mem_frame (f : RlgState → RlgState) : (s.onRlg f).mem = s.mem := rfl
@[simp] theorem onRlg_care_frame (f : RlgState → RlgState) : (s.onRlg f).care = s.care := rfl
@[simp] theorem onRlg_coh_frame (f : RlgState → RlgState) : (s.onRlg f).coh = s.coh := rfl
@[simp] theorem onRlg_tlb_frame (f : RlgState → RlgState) : (s.onRlg f).tlb = s.tlb := rfl
@[simp] theorem onRlg_str_frame (f : RlgState → RlgState) : (s.onRlg f).str = s.str := rfl
@[simp] theorem onRlg_upe_frame (f : RlgState → RlgState) : (s.onRlg f).upe = s.upe := rfl
@[simp] theorem onRlg_mxa_frame (f : RlgState → RlgState) : (s.onRlg f).mxa = s.mxa := rfl
@[simp] theorem onRlg_kvs_frame (f : RlgState → RlgState) : (s.onRlg f).kvs = s.kvs := rfl
@[simp] theorem onRlg_rng_frame (f : RlgState → RlgState) : (s.onRlg f).rng = s.rng := rfl
@[simp] theorem onRlg_fum_frame (f : RlgState → RlgState) : (s.onRlg f).fum = s.fum := rfl
@[simp] theorem onRlg_flt_frame (f : RlgState → RlgState) : (s.onRlg f).flt = s.flt := rfl
@[simp] theorem onRlg_host_frame (f : RlgState → RlgState) : (s.onRlg f).host = s.host := rfl
@[simp] theorem onRlg_mod_frame (f : RlgState → RlgState) : (s.onRlg f).mod = s.mod := rfl
@[simp] theorem onRlg_lights_frame (f : RlgState → RlgState) : (s.onRlg f).lights = s.lights := rfl
@[simp] theorem onRlg_boot_frame (f : RlgState → RlgState) : (s.onRlg f).boot = s.boot := rfl
@[simp] theorem onRlg_rst_frame (f : RlgState → RlgState) : (s.onRlg f).rst = s.rst := rfl
@[simp] theorem onRlg_flash_frame (f : RlgState → RlgState) : (s.onRlg f).flash = s.flash := rfl
@[simp] theorem onRlg_get_frame (f : RlgState → RlgState) (g : Fld) : (s.onRlg f).get g = s.get g := rfl
@[simp] theorem onRlg_flag_frame (f : RlgState → RlgState) (g : Fld) : (s.onRlg f).flag g = s.flag g := rfl
@[simp] theorem onRlg_own (f : RlgState → RlgState) : (s.onRlg f).rlg = f s.rlg := rfl

@[simp] theorem onCtx_pending_frame (c : Nat) (f : StrCtx → StrCtx) : (s.onCtx c f).pending = s.pending := rfl
@[simp] theorem onCtx_regs_frame (c : Nat) (f : StrCtx → StrCtx) : (s.onCtx c f).regs = s.regs := rfl
@[simp] theorem onCtx_now_frame (c : Nat) (f : StrCtx → StrCtx) : (s.onCtx c f).now = s.now := rfl
@[simp] theorem onCtx_free_frame (c : Nat) (f : StrCtx → StrCtx) : (s.onCtx c f).free = s.free := rfl
@[simp] theorem onCtx_sent_frame (c : Nat) (f : StrCtx → StrCtx) : (s.onCtx c f).sent = s.sent := rfl
@[simp] theorem onCtx_tick_frame (c : Nat) (f : StrCtx → StrCtx) : (s.onCtx c f).tick = s.tick := rfl
@[simp] theorem onCtx_ports_frame (c : Nat) (f : StrCtx → StrCtx) : (s.onCtx c f).ports = s.ports := rfl
@[simp] theorem onCtx_fab_frame (c : Nat) (f : StrCtx → StrCtx) : (s.onCtx c f).fab = s.fab := rfl
@[simp] theorem onCtx_cal_frame (c : Nat) (f : StrCtx → StrCtx) : (s.onCtx c f).cal = s.cal := rfl
@[simp] theorem onCtx_mem_frame (c : Nat) (f : StrCtx → StrCtx) : (s.onCtx c f).mem = s.mem := rfl
@[simp] theorem onCtx_care_frame (c : Nat) (f : StrCtx → StrCtx) : (s.onCtx c f).care = s.care := rfl
@[simp] theorem onCtx_coh_frame (c : Nat) (f : StrCtx → StrCtx) : (s.onCtx c f).coh = s.coh := rfl
@[simp] theorem onCtx_rlg_frame (c : Nat) (f : StrCtx → StrCtx) : (s.onCtx c f).rlg = s.rlg := rfl
@[simp] theorem onCtx_tlb_frame (c : Nat) (f : StrCtx → StrCtx) : (s.onCtx c f).tlb = s.tlb := rfl
@[simp] theorem onCtx_upe_frame (c : Nat) (f : StrCtx → StrCtx) : (s.onCtx c f).upe = s.upe := rfl
@[simp] theorem onCtx_mxa_frame (c : Nat) (f : StrCtx → StrCtx) : (s.onCtx c f).mxa = s.mxa := rfl
@[simp] theorem onCtx_kvs_frame (c : Nat) (f : StrCtx → StrCtx) : (s.onCtx c f).kvs = s.kvs := rfl
@[simp] theorem onCtx_rng_frame (c : Nat) (f : StrCtx → StrCtx) : (s.onCtx c f).rng = s.rng := rfl
@[simp] theorem onCtx_fum_frame (c : Nat) (f : StrCtx → StrCtx) : (s.onCtx c f).fum = s.fum := rfl
@[simp] theorem onCtx_flt_frame (c : Nat) (f : StrCtx → StrCtx) : (s.onCtx c f).flt = s.flt := rfl
@[simp] theorem onCtx_host_frame (c : Nat) (f : StrCtx → StrCtx) : (s.onCtx c f).host = s.host := rfl
@[simp] theorem onCtx_mod_frame (c : Nat) (f : StrCtx → StrCtx) : (s.onCtx c f).mod = s.mod := rfl
@[simp] theorem onCtx_lights_frame (c : Nat) (f : StrCtx → StrCtx) : (s.onCtx c f).lights = s.lights := rfl
@[simp] theorem onCtx_boot_frame (c : Nat) (f : StrCtx → StrCtx) : (s.onCtx c f).boot = s.boot := rfl
@[simp] theorem onCtx_rst_frame (c : Nat) (f : StrCtx → StrCtx) : (s.onCtx c f).rst = s.rst := rfl
@[simp] theorem onCtx_flash_frame (c : Nat) (f : StrCtx → StrCtx) : (s.onCtx c f).flash = s.flash := rfl
@[simp] theorem onCtx_get_frame (c : Nat) (f : StrCtx → StrCtx) (g : Fld) : (s.onCtx c f).get g = s.get g := rfl
@[simp] theorem onCtx_flag_frame (c : Nat) (f : StrCtx → StrCtx) (g : Fld) : (s.onCtx c f).flag g = s.flag g := rfl

@[simp] theorem sendMsg_pending_frame (m : CMsg) : (sendMsg m s).pending = s.pending := rfl
@[simp] theorem sendMsg_regs_frame (m : CMsg) : (sendMsg m s).regs = s.regs := rfl
@[simp] theorem sendMsg_now_frame (m : CMsg) : (sendMsg m s).now = s.now := rfl
@[simp] theorem sendMsg_free_frame (m : CMsg) : (sendMsg m s).free = s.free := rfl
@[simp] theorem sendMsg_sent_frame (m : CMsg) : (sendMsg m s).sent = s.sent := rfl
@[simp] theorem sendMsg_tick_frame (m : CMsg) : (sendMsg m s).tick = s.tick := rfl
@[simp] theorem sendMsg_ports_frame (m : CMsg) : (sendMsg m s).ports = s.ports := rfl
@[simp] theorem sendMsg_fab_frame (m : CMsg) : (sendMsg m s).fab = s.fab := rfl
@[simp] theorem sendMsg_cal_frame (m : CMsg) : (sendMsg m s).cal = s.cal := rfl
@[simp] theorem sendMsg_mem_frame (m : CMsg) : (sendMsg m s).mem = s.mem := rfl
@[simp] theorem sendMsg_care_frame (m : CMsg) : (sendMsg m s).care = s.care := rfl
@[simp] theorem sendMsg_rlg_frame (m : CMsg) : (sendMsg m s).rlg = s.rlg := rfl
@[simp] theorem sendMsg_tlb_frame (m : CMsg) : (sendMsg m s).tlb = s.tlb := rfl
@[simp] theorem sendMsg_str_frame (m : CMsg) : (sendMsg m s).str = s.str := rfl
@[simp] theorem sendMsg_upe_frame (m : CMsg) : (sendMsg m s).upe = s.upe := rfl
@[simp] theorem sendMsg_mxa_frame (m : CMsg) : (sendMsg m s).mxa = s.mxa := rfl
@[simp] theorem sendMsg_kvs_frame (m : CMsg) : (sendMsg m s).kvs = s.kvs := rfl
@[simp] theorem sendMsg_rng_frame (m : CMsg) : (sendMsg m s).rng = s.rng := rfl
@[simp] theorem sendMsg_fum_frame (m : CMsg) : (sendMsg m s).fum = s.fum := rfl
@[simp] theorem sendMsg_flt_frame (m : CMsg) : (sendMsg m s).flt = s.flt := rfl
@[simp] theorem sendMsg_host_frame (m : CMsg) : (sendMsg m s).host = s.host := rfl
@[simp] theorem sendMsg_mod_frame (m : CMsg) : (sendMsg m s).mod = s.mod := rfl
@[simp] theorem sendMsg_lights_frame (m : CMsg) : (sendMsg m s).lights = s.lights := rfl
@[simp] theorem sendMsg_boot_frame (m : CMsg) : (sendMsg m s).boot = s.boot := rfl
@[simp] theorem sendMsg_rst_frame (m : CMsg) : (sendMsg m s).rst = s.rst := rfl
@[simp] theorem sendMsg_flash_frame (m : CMsg) : (sendMsg m s).flash = s.flash := rfl
@[simp] theorem sendMsg_get_frame (m : CMsg) (g : Fld) : (sendMsg m s).get g = s.get g := rfl
@[simp] theorem sendMsg_flag_frame (m : CMsg) (g : Fld) : (sendMsg m s).flag g = s.flag g := rfl

@[simp] theorem takeMsg_pending_frame (m : CMsg) : (takeMsg m s).pending = s.pending := rfl
@[simp] theorem takeMsg_regs_frame (m : CMsg) : (takeMsg m s).regs = s.regs := rfl
@[simp] theorem takeMsg_now_frame (m : CMsg) : (takeMsg m s).now = s.now := rfl
@[simp] theorem takeMsg_free_frame (m : CMsg) : (takeMsg m s).free = s.free := rfl
@[simp] theorem takeMsg_sent_frame (m : CMsg) : (takeMsg m s).sent = s.sent := rfl
@[simp] theorem takeMsg_tick_frame (m : CMsg) : (takeMsg m s).tick = s.tick := rfl
@[simp] theorem takeMsg_ports_frame (m : CMsg) : (takeMsg m s).ports = s.ports := rfl
@[simp] theorem takeMsg_fab_frame (m : CMsg) : (takeMsg m s).fab = s.fab := rfl
@[simp] theorem takeMsg_cal_frame (m : CMsg) : (takeMsg m s).cal = s.cal := rfl
@[simp] theorem takeMsg_mem_frame (m : CMsg) : (takeMsg m s).mem = s.mem := rfl
@[simp] theorem takeMsg_care_frame (m : CMsg) : (takeMsg m s).care = s.care := rfl
@[simp] theorem takeMsg_rlg_frame (m : CMsg) : (takeMsg m s).rlg = s.rlg := rfl
@[simp] theorem takeMsg_tlb_frame (m : CMsg) : (takeMsg m s).tlb = s.tlb := rfl
@[simp] theorem takeMsg_str_frame (m : CMsg) : (takeMsg m s).str = s.str := rfl
@[simp] theorem takeMsg_upe_frame (m : CMsg) : (takeMsg m s).upe = s.upe := rfl
@[simp] theorem takeMsg_mxa_frame (m : CMsg) : (takeMsg m s).mxa = s.mxa := rfl
@[simp] theorem takeMsg_kvs_frame (m : CMsg) : (takeMsg m s).kvs = s.kvs := rfl
@[simp] theorem takeMsg_rng_frame (m : CMsg) : (takeMsg m s).rng = s.rng := rfl
@[simp] theorem takeMsg_fum_frame (m : CMsg) : (takeMsg m s).fum = s.fum := rfl
@[simp] theorem takeMsg_flt_frame (m : CMsg) : (takeMsg m s).flt = s.flt := rfl
@[simp] theorem takeMsg_host_frame (m : CMsg) : (takeMsg m s).host = s.host := rfl
@[simp] theorem takeMsg_mod_frame (m : CMsg) : (takeMsg m s).mod = s.mod := rfl
@[simp] theorem takeMsg_lights_frame (m : CMsg) : (takeMsg m s).lights = s.lights := rfl
@[simp] theorem takeMsg_boot_frame (m : CMsg) : (takeMsg m s).boot = s.boot := rfl
@[simp] theorem takeMsg_rst_frame (m : CMsg) : (takeMsg m s).rst = s.rst := rfl
@[simp] theorem takeMsg_flash_frame (m : CMsg) : (takeMsg m s).flash = s.flash := rfl
@[simp] theorem takeMsg_get_frame (m : CMsg) (g : Fld) : (takeMsg m s).get g = s.get g := rfl
@[simp] theorem takeMsg_flag_frame (m : CMsg) (g : Fld) : (takeMsg m s).flag g = s.flag g := rfl

@[simp] theorem emit_sent (x : Out) : (s.emit x).sent = x :: s.sent := rfl
@[simp] theorem takeFree_fst : s.takeFree.1 = Config.freeValue s.free := rfl
@[simp] theorem takeFree_free : s.takeFree.2.free = s.free + 1 := rfl
@[simp] theorem reach_now (n : Nat) : (s.reach n).now = max s.now n := rfl
@[simp] theorem settle_lights : (settle s).lights = lightsOf s := rfl

end Sys2Proof.Machine
end

