-- ==== Sys2Proof/Laws/Regs.lean ====
section
/-! SUPPORT. The laws of register fields, of events and of the bytes of the tiers. -/

namespace Sys2Proof.Machine

variable (s : State)

/-- A field written reads the value written, cut to its width. -/
@[simp] theorem get_set_self (f : Fld) (v : Nat) : (s.set f v).get f = v % 2 ^ f.width := by
  simp [State.get, State.set]

/-- A write of a field leaves every field of another place alone. -/
theorem get_set_ne {f g : Fld} (v : Nat) (h : g.key ≠ f.key) : (s.set f v).get g = s.get g :=
  Tab.get_set_ne_default g.reset f.reset s.regs _ h

theorem flag_set_ne {f g : Fld} (v : Nat) (h : g.key ≠ f.key) : (s.set f v).flag g = s.flag g := by
  simp [State.flag, get_set_ne s v h]

theorem get_bump_self (f : Fld) (n : Nat) :
    (s.bump f n).get f = counted f (s.get f + n) % 2 ^ f.width := by simp [State.bump]

/-- A count that fits is the sum. -/
theorem counted_fits {f : Fld} {v : Nat} (h : v < 2 ^ f.width) : counted f v = v := if_pos h

theorem get_bump_ne {f g : Fld} (n : Nat) (h : g.key ≠ f.key) : (s.bump f n).get g = s.get g := get_set_ne s _ h

theorem get_clear_ne {f g : Fld} (h : g.key ≠ f.key) : (s.clear f).get g = s.get g := get_set_ne s _ h

/-- The outcome of a meaning is a next state. -/
theorem done_eq : done s = .next (settle s) := rfl

/-- What the message of a vector may change: the log and the pending bits. -/
theorem sendVector_cases (v : Nat) : sendVector v s = s ∨
    (∃ e : Msix, sendVector v s = s.emit (.msix v e.addr e.data)) ∨
    sendVector v s = { s with host := { s.host with msixPend := Nat.lor s.host.msixPend (2 ^ v) } } := by
  unfold sendVector
  dsimp only
  split
  · exact .inl rfl
  · split
    · exact .inr (.inl ⟨_, rfl⟩)
    · exact .inr (.inr rfl)

@[simp] theorem sendVector_regs (v : Nat) : (sendVector v s).regs = s.regs := by
  rcases sendVector_cases s v with h | ⟨_, h⟩ | h <;> rw [h] <;> rfl

@[simp] theorem sendVector_get (v : Nat) (g : Fld) : (sendVector v s).get g = s.get g := by
  unfold State.get; rw [sendVector_regs]

/-- An event raised reads 1. -/
@[simp] theorem raise_self (f : Fld) (h : f.width ≠ 0) : (raise f s).get f = 1 := by
  have h1 : 1 % 2 ^ f.width = 1 := Nat.mod_eq_of_lt (Nat.one_lt_two_pow h)
  unfold raise
  dsimp only
  split
  · assumption
  · split <;> simp [h1]

/-- An event raised leaves every field of another place alone. -/
theorem raise_ne {f g : Fld} (h : g.key ≠ f.key) : (raise f s).get g = s.get g := by
  unfold raise
  dsimp only
  split
  · rfl
  · split <;> simp [get_set_ne s _ h]

/-- What an event raised leaves alone: all but registers, the log of messages and the host's pending bits. -/
theorem raise_parts (f : Fld) : ∃ r : State, (raise f s) = { s with regs := r.regs, sent := r.sent, host := r.host } := by
  refine ⟨raise f s, ?_⟩
  unfold raise
  dsimp only
  split
  · rfl
  · split
    · rcases sendVector_cases (s.set f 1) (vectorOf f.reg) with h | ⟨_, h⟩ | h <;> rw [h] <;> rfl
    · rfl

@[simp] theorem raise_pending_frame (f : Fld) : (raise f s).pending = s.pending := by obtain ⟨_, h⟩ := raise_parts s f; rw [h]
@[simp] theorem raise_now_frame (f : Fld) : (raise f s).now = s.now := by obtain ⟨_, h⟩ := raise_parts s f; rw [h]
@[simp] theorem raise_free_frame (f : Fld) : (raise f s).free = s.free := by obtain ⟨_, h⟩ := raise_parts s f; rw [h]
@[simp] theorem raise_tick_frame (f : Fld) : (raise f s).tick = s.tick := by obtain ⟨_, h⟩ := raise_parts s f; rw [h]
@[simp] theorem raise_ports_frame (f : Fld) : (raise f s).ports = s.ports := by obtain ⟨_, h⟩ := raise_parts s f; rw [h]
@[simp] theorem raise_fab_frame (f : Fld) : (raise f s).fab = s.fab := by obtain ⟨_, h⟩ := raise_parts s f; rw [h]
@[simp] theorem raise_cal_frame (f : Fld) : (raise f s).cal = s.cal := by obtain ⟨_, h⟩ := raise_parts s f; rw [h]
@[simp] theorem raise_mem_frame (f : Fld) : (raise f s).mem = s.mem := by obtain ⟨_, h⟩ := raise_parts s f; rw [h]
@[simp] theorem raise_care_frame (f : Fld) : (raise f s).care = s.care := by obtain ⟨_, h⟩ := raise_parts s f; rw [h]
@[simp] theorem raise_coh_frame (f : Fld) : (raise f s).coh = s.coh := by obtain ⟨_, h⟩ := raise_parts s f; rw [h]
@[simp] theorem raise_rlg_frame (f : Fld) : (raise f s).rlg = s.rlg := by obtain ⟨_, h⟩ := raise_parts s f; rw [h]
@[simp] theorem raise_tlb_frame (f : Fld) : (raise f s).tlb = s.tlb := by obtain ⟨_, h⟩ := raise_parts s f; rw [h]
@[simp] theorem raise_str_frame (f : Fld) : (raise f s).str = s.str := by obtain ⟨_, h⟩ := raise_parts s f; rw [h]
@[simp] theorem raise_upe_frame (f : Fld) : (raise f s).upe = s.upe := by obtain ⟨_, h⟩ := raise_parts s f; rw [h]
@[simp] theorem raise_mxa_frame (f : Fld) : (raise f s).mxa = s.mxa := by obtain ⟨_, h⟩ := raise_parts s f; rw [h]
@[simp] theorem raise_kvs_frame (f : Fld) : (raise f s).kvs = s.kvs := by obtain ⟨_, h⟩ := raise_parts s f; rw [h]
@[simp] theorem raise_rng_frame (f : Fld) : (raise f s).rng = s.rng := by obtain ⟨_, h⟩ := raise_parts s f; rw [h]
@[simp] theorem raise_fum_frame (f : Fld) : (raise f s).fum = s.fum := by obtain ⟨_, h⟩ := raise_parts s f; rw [h]
@[simp] theorem raise_flt_frame (f : Fld) : (raise f s).flt = s.flt := by obtain ⟨_, h⟩ := raise_parts s f; rw [h]
@[simp] theorem raise_mod_frame (f : Fld) : (raise f s).mod = s.mod := by obtain ⟨_, h⟩ := raise_parts s f; rw [h]
@[simp] theorem raise_lights_frame (f : Fld) : (raise f s).lights = s.lights := by obtain ⟨_, h⟩ := raise_parts s f; rw [h]
@[simp] theorem raise_boot_frame (f : Fld) : (raise f s).boot = s.boot := by obtain ⟨_, h⟩ := raise_parts s f; rw [h]
@[simp] theorem raise_rst_frame (f : Fld) : (raise f s).rst = s.rst := by obtain ⟨_, h⟩ := raise_parts s f; rw [h]
@[simp] theorem raise_flash_frame (f : Fld) : (raise f s).flash = s.flash := by obtain ⟨_, h⟩ := raise_parts s f; rw [h]

/-- A byte of the tier written reads back. -/
@[simp] theorem tierByte_put_self (a : Nat) (b : Byte) : tierByte (tierPut a b s) a = b := by
  simp [tierByte, tierPut, memDflt, BitVec.xor_assoc]

/-- A byte written to the tier leaves every other byte alone. -/
theorem tierByte_put_ne {a c : Nat} (b : Byte) (h : c ≠ a) : tierByte (tierPut a b s) c = tierByte s c := by
  simp [tierByte, tierPut, memDflt, Tab.get_set_ne _ _ _ h]

/-- A byte written keeps the canonical form of memory. -/
theorem tierPut_wf (a : Nat) (b : Byte) (h : Memory.wf s.mem.cells = true) : Memory.wf (tierPut a b s).mem.cells = true :=
  Tab.wf_set _ _ _ _ h

end Sys2Proof.Machine
end

