-- ==== Sys2Proof/Laws/Exec.lean ====
section
/-! SUPPORT. What each command runs: its meaning, one lemma a command. -/

namespace Sys2Proof.Machine

variable (s : State)

@[simp] theorem exec_registerWrite (off : Nat) (data : WriteData) : exec (.registerWrite off data) s = execRegisterWrite off data s := rfl
@[simp] theorem exec_rcRead (off : Nat) (len : Nat) (same : List Nat) : exec (.rcRead off len same) s = execRcRead off len same s := rfl
@[simp] theorem exec_latchedLowWordRead (off : Nat) : exec (.latchedLowWordRead off) s = execLatchedLowWordRead off s := rfl
@[simp] theorem exec_tickEdge (tel : List Byte) : exec (.tickEdge tel) s = execTickEdge tel s := rfl
@[simp] theorem exec_beaconReceive (port : Fin 16) (msg : List Byte) (at_ : Nat) (fwd : Nat) (replayed : Bool) : exec (.beaconReceive port msg at_ fwd replayed) s = execBeaconReceive port msg at_ fwd replayed s := rfl
@[simp] theorem exec_beaconMiss : exec (.beaconMiss) s = execBeaconMiss s := rfl
@[simp] theorem exec_lockLost : exec (.lockLost) s = execLockLost s := rfl
@[simp] theorem exec_takeover : exec (.takeover) s = execTakeover s := rfl
@[simp] theorem exec_holdRequestSend (estimates : List (Nat × Nat)) (hot : List Nat) : exec (.holdRequestSend estimates hot) s = execHoldRequestSend estimates hot s := rfl
@[simp] theorem exec_holdRequest (port : Fin 16) (msg : List Byte) (at_ : Nat) : exec (.holdRequest port msg at_) s = execHoldRequest port msg at_ s := rfl
@[simp] theorem exec_lateNotice (port : Fin 16) (msg : List Byte) (at_ : Nat) : exec (.lateNotice port msg at_) s = execLateNotice port msg at_ s := rfl
@[simp] theorem exec_holdRoundDeadline : exec (.holdRoundDeadline) s = execHoldRoundDeadline s := rfl
@[simp] theorem exec_holdGrant (port : Fin 16) (msg : List Byte) (at_ : Nat) (fwd : Nat) : exec (.holdGrant port msg at_ fwd) s = execHoldGrant port msg at_ fwd s := rfl
@[simp] theorem exec_planBankWrite (bank : Fin 2) (off : Nat) (data : List Byte) : exec (.planBankWrite bank off data) s = execPlanBankWrite bank off data s := rfl
@[simp] theorem exec_arm (force : Bool) : exec (.arm force) s = execArm force s := rfl
@[simp] theorem exec_disarm : exec (.disarm) s = execDisarm s := rfl
@[simp] theorem exec_collectiveSlotStart (slot : Fin 1024) : exec (.collectiveSlotStart slot) s = execCollectiveSlotStart slot s := rfl
@[simp] theorem exec_vc0Packet (port : Fin 16) (pkt : List Byte) (at_ : Nat) : exec (.vc0Packet port pkt at_) s = execVc0Packet port pkt at_ s := rfl
@[simp] theorem exec_verdictAccept (port : Fin 16) (msg : List Byte) (at_ : Nat) (fwd : Nat) : exec (.verdictAccept port msg at_ fwd) s = execVerdictAccept port msg at_ fwd s := rfl
@[simp] theorem exec_calResolve (value : BitVec 64) : exec (.calResolve value) s = execCalResolve value s := rfl
@[simp] theorem exec_calResume : exec (.calResume) s = execCalResume s := rfl
@[simp] theorem exec_signalDetect (port : Fin 16) : exec (.signalDetect port) s = execSignalDetect port s := rfl
@[simp] theorem exec_capabilityPage (port : Fin 16) (lane : Fin 8) (inverted : Bool) (body : BitVec 64) (crc : BitVec 16) (at_ : Nat) : exec (.capabilityPage port lane inverted body crc at_) s = execCapabilityPage port lane inverted body crc at_ s := rfl
@[simp] theorem exec_exchangeTimeout (port : Fin 16) : exec (.exchangeTimeout port) s = execExchangeTimeout port s := rfl
@[simp] theorem exec_trainingDone (port : Fin 16) (ok : Bool) (lanes : BitVec 8) : exec (.trainingDone port ok lanes) s = execTrainingDone port ok lanes s := rfl
@[simp] theorem exec_trainTimeout (port : Fin 16) (lanes : BitVec 8) : exec (.trainTimeout port lanes) s = execTrainTimeout port lanes s := rfl
@[simp] theorem exec_alignDone (port : Fin 16) (mapOk : Bool) (lanes : BitVec 8) : exec (.alignDone port mapOk lanes) s = execAlignDone port mapOk lanes s := rfl
@[simp] theorem exec_delayProbe (port : Fin 16) (tx : BitVec 64) (turn : BitVec 64) (replayed : Bool) : exec (.delayProbe port tx turn replayed) s = execDelayProbe port tx turn replayed s := rfl
@[simp] theorem exec_delayReply (port : Fin 16) (echo : BitVec 64) (turn : BitVec 64) (ret : Option (BitVec 64)) : exec (.delayReply port echo turn ret) s = execDelayReply port echo turn ret s := rfl
@[simp] theorem exec_verifyEnd (port : Fin 16) (uncorrectable : Bool) (corrected : Nat) (received : Nat) (crcError : Bool) (lanes : BitVec 8) : exec (.verifyEnd port uncorrectable corrected received crcError lanes) s = execVerifyEnd port uncorrectable corrected received crcError lanes s := rfl
@[simp] theorem exec_downBackoff (port : Fin 16) : exec (.downBackoff port) s = execDownBackoff port s := rfl
@[simp] theorem exec_flitReceive (port : Fin 16) (flit : List Byte) (codewords : List (Nat × Option Nat)) (at_ : Nat) : exec (.flitReceive port flit codewords at_) s = execFlitReceive port flit codewords at_ s := rfl
@[simp] theorem exec_nakRepeat (port : Fin 16) (ctrl : Bool) : exec (.nakRepeat port ctrl) s = execNakRepeat port ctrl s := rfl
@[simp] theorem exec_ackIdleSend (port : Fin 16) : exec (.ackIdleSend port) s = execAckIdleSend port s := rfl
@[simp] theorem exec_ackTimeout (port : Fin 16) (ctrl : Bool) (at_ : Nat) : exec (.ackTimeout port ctrl at_) s = execAckTimeout port ctrl at_ s := rfl
@[simp] theorem exec_episodeWindowClose (port : Fin 16) : exec (.episodeWindowClose port) s = execEpisodeWindowClose port s := rfl
@[simp] theorem exec_lossOfSignal (port : Fin 16) (canRetrain : Bool) : exec (.lossOfSignal port canRetrain) s = execLossOfSignal port canRetrain s := rfl
@[simp] theorem exec_retrainDone (port : Fin 16) (line : LineCheck) : exec (.retrainDone port line) s = execRetrainDone port line s := rfl
@[simp] theorem exec_retrainTimeout (port : Fin 16) : exec (.retrainTimeout port) s = execRetrainTimeout port s := rfl
@[simp] theorem exec_degradedWindow (port : Fin 16) (corrected : Nat) (received : Nat) : exec (.degradedWindow port corrected received) s = execDegradedWindow port corrected received s := rfl
@[simp] theorem exec_retrain (port : Fin 16) : exec (.retrain port) s = execRetrain port s := rfl
@[simp] theorem exec_unfence (port : Fin 16) : exec (.unfence port) s = execUnfence port s := rfl
@[simp] theorem exec_renegotiate (port : Fin 16) : exec (.renegotiate port) s = execRenegotiate port s := rfl
@[simp] theorem exec_portEnable (port : Fin 16) (on : Bool) : exec (.portEnable port on) s = execPortEnable port on s := rfl
@[simp] theorem exec_lpRequest (port : Fin 16) : exec (.lpRequest port) s = execLpRequest port s := rfl
@[simp] theorem exec_lpAcknowledge (port : Fin 16) : exec (.lpAcknowledge port) s = execLpAcknowledge port s := rfl
@[simp] theorem exec_lpExit (port : Fin 16) : exec (.lpExit port) s = execLpExit port s := rfl
@[simp] theorem exec_quit (port : Fin 16) (cause : Byte) : exec (.quit port cause) s = execQuit port cause s := rfl
@[simp] theorem exec_packetForward (port : Option (Fin 16)) (pkt : List Byte) : exec (.packetForward port pkt) s = execPacketForward port pkt s := rfl
@[simp] theorem exec_read (port : Fin 16) (pkt : List Byte) : exec (.read port pkt) s = execRead port pkt s := rfl
@[simp] theorem exec_write (port : Fin 16) (pkt : List Byte) : exec (.write port pkt) s = execWrite port pkt s := rfl
@[simp] theorem exec_atomicAdd (port : Fin 16) (pkt : List Byte) : exec (.atomicAdd port pkt) s = execAtomicAdd port pkt s := rfl
@[simp] theorem exec_fetchAdd (port : Fin 16) (pkt : List Byte) : exec (.fetchAdd port pkt) s = execFetchAdd port pkt s := rfl
@[simp] theorem exec_readData (port : Fin 16) (pkt : List Byte) : exec (.readData port pkt) s = execReadData port pkt s := rfl
@[simp] theorem exec_writeAck (port : Fin 16) (pkt : List Byte) : exec (.writeAck port pkt) s = execWriteAck port pkt s := rfl
@[simp] theorem exec_atomicAck (port : Fin 16) (pkt : List Byte) : exec (.atomicAck port pkt) s = execAtomicAck port pkt s := rfl
@[simp] theorem exec_requestTimeout (tag : BitVec 16) : exec (.requestTimeout tag) s = execRequestTimeout tag s := rfl
@[simp] theorem exec_neighbourNotice (pkt : List Byte) : exec (.neighbourNotice pkt) s = execNeighbourNotice pkt s := rfl
@[simp] theorem exec_joinAnnounce (port : Fin 16) (pkt : List Byte) : exec (.joinAnnounce port pkt) s = execJoinAnnounce port pkt s := rfl
@[simp] theorem exec_joinAnnounceRepeat : exec (.joinAnnounceRepeat) s = execJoinAnnounceRepeat s := rfl
@[simp] theorem exec_joinAccept (pkt : List Byte) : exec (.joinAccept pkt) s = execJoinAccept pkt s := rfl
@[simp] theorem exec_joinRefuse (pkt : List Byte) : exec (.joinRefuse pkt) s = execJoinRefuse pkt s := rfl
@[simp] theorem exec_detach (pkt : List Byte) : exec (.detach pkt) s = execDetach pkt s := rfl
@[simp] theorem exec_detachRequestsDrained : exec (.detachRequestsDrained) s = execDetachRequestsDrained s := rfl
@[simp] theorem exec_detachDone (pkt : List Byte) : exec (.detachDone pkt) s = execDetachDone pkt s := rfl
@[simp] theorem exec_fabricReset (pkt : List Byte) (late : BitVec 64) (ns : Nat) : exec (.fabricReset pkt late ns) s = execFabricReset pkt late ns s := rfl
@[simp] theorem exec_frstGo (target : Fin 4096) : exec (.frstGo target) s = execFrstGo target s := rfl
@[simp] theorem exec_bcast (port : Fin 16) (pkt : List Byte) : exec (.bcast port pkt) s = execBcast port pkt s := rfl
@[simp] theorem exec_planSeg (pkt : List Byte) : exec (.planSeg pkt) s = execPlanSeg pkt s := rfl
@[simp] theorem exec_pushDone (pkt : List Byte) : exec (.pushDone pkt) s = execPushDone pkt s := rfl
@[simp] theorem exec_telemetry (pkt : List Byte) : exec (.telemetry pkt) s = execTelemetry pkt s := rfl
@[simp] theorem exec_routeCheck : exec (.routeCheck) s = execRouteCheck s := rfl
@[simp] theorem exec_adoptNow : exec (.adoptNow) s = execAdoptNow s := rfl
@[simp] theorem exec_partitionEnable (part : Fin 16) (cfg : BitVec 32) : exec (.partitionEnable part cfg) s = execPartitionEnable part cfg s := rfl
@[simp] theorem exec_partitionDisable (part : Fin 16) (cfg : BitVec 32) : exec (.partitionDisable part cfg) s = execPartitionDisable part cfg s := rfl
@[simp] theorem exec_flushDone (part : Fin 16) : exec (.flushDone part) s = execFlushDone part s := rfl
@[simp] theorem exec_regulatorWrite (part : Fin 16) (burst : Bool) (value : BitVec 32) : exec (.regulatorWrite part burst value) s = execRegulatorWrite part burst value s := rfl
@[simp] theorem exec_memoryAccess (req : Fin 585) (write : Bool) (addr : BitVec 48) (data : List Byte) (len : Nat) (hint : Fin 3) (uses : BitVec 8) (deadline : Option (BitVec 32)) : exec (.memoryAccess req write addr data len hint uses deadline) s = execMemoryAccess req write addr data len hint uses deadline s := rfl
@[simp] theorem exec_missGrant (part : Fin 16) : exec (.missGrant part) s = execMissGrant part s := rfl
@[simp] theorem exec_regulatorIssue (part : Fin 16) : exec (.regulatorIssue part) s = execRegulatorIssue part s := rfl
@[simp] theorem exec_lineFillDone (line : BitVec 41) (ecc : List (Nat × Ecc)) : exec (.lineFillDone line ecc) s = execLineFillDone line ecc s := rfl
@[simp] theorem exec_atomicRequest (req : Fin 585) (addr : BitVec 48) (fmt : Fin 8) (fetch : Bool) (operand : BitVec 128) : exec (.atomicRequest req addr fmt fetch operand) s = execAtomicRequest req addr fmt fetch operand s := rfl
@[simp] theorem exec_adderComplete (line : BitVec 41) (ecc : List (Nat × Ecc)) : exec (.adderComplete line ecc) s = execAdderComplete line ecc s := rfl
@[simp] theorem exec_scrubRead (chan : Fin 288) (ecc : Ecc) : exec (.scrubRead chan ecc) s = execScrubRead chan ecc s := rfl
@[simp] theorem exec_softRemapDone (chan : Fin 288) : exec (.softRemapDone chan) s = execSoftRemapDone chan s := rfl
@[simp] theorem exec_remapReq (stack : Option (Fin 8)) (value : BitVec 32) : exec (.remapReq stack value) s = execRemapReq stack value s := rfl
@[simp] theorem exec_remapLogAppend : exec (.remapLogAppend) s = execRemapLogAppend s := rfl
@[simp] theorem exec_logCompaction : exec (.logCompaction) s = execLogCompaction s := rfl
@[simp] theorem exec_tgStart (chan : Fin 288) (value : BitVec 32) : exec (.tgStart chan value) s = execTgStart chan value s := rfl
@[simp] theorem exec_tgStop (chan : Fin 288) : exec (.tgStop chan) s = execTgStop chan s := rfl
@[simp] theorem exec_tgDone (chan : Fin 288) (flips : List (Nat × Nat)) (ecc : List (Nat × Ecc)) : exec (.tgDone chan flips ecc) s = execTgDone chan flips ecc s := rfl
@[simp] theorem exec_tempRead (stack : Fin 8) (reading : Option (Fin 256)) : exec (.tempRead stack reading) s = execTempRead stack reading s := rfl
@[simp] theorem exec_stackSelfRefresh (stack : Fin 8) : exec (.stackSelfRefresh stack) s = execStackSelfRefresh stack s := rfl
@[simp] theorem exec_selfRefreshExit (stack : Fin 8) : exec (.selfRefreshExit stack) s = execSelfRefreshExit stack s := rfl
@[simp] theorem exec_rowlogicBatchStart (slot : Fin 1024) : exec (.rowlogicBatchStart slot) s = execRowlogicBatchStart slot s := rfl
@[simp] theorem exec_rlgNop (stack : Fin 8) : exec (.rlgNop stack) s = execRlgNop stack s := rfl
@[simp] theorem exec_copy (stack : Fin 8) (ecc : List (Nat × Ecc)) : exec (.copy stack ecc) s = execCopy stack ecc s := rfl
@[simp] theorem exec_not (stack : Fin 8) (ecc : List (Nat × Ecc)) : exec (.not stack ecc) s = execNot stack ecc s := rfl
@[simp] theorem exec_and (stack : Fin 8) (ecc : List (Nat × Ecc)) : exec (.and stack ecc) s = execAnd stack ecc s := rfl
@[simp] theorem exec_or (stack : Fin 8) (ecc : List (Nat × Ecc)) : exec (.or stack ecc) s = execOr stack ecc s := rfl
@[simp] theorem exec_xor (stack : Fin 8) (ecc : List (Nat × Ecc)) : exec (.xor stack ecc) s = execXor stack ecc s := rfl
@[simp] theorem exec_maj (stack : Fin 8) (ecc : List (Nat × Ecc)) : exec (.maj stack ecc) s = execMaj stack ecc s := rfl
@[simp] theorem exec_accClear (stack : Fin 8) : exec (.accClear stack) s = execAccClear stack s := rfl
@[simp] theorem exec_accLoad (stack : Fin 8) (ecc : List (Nat × Ecc)) : exec (.accLoad stack ecc) s = execAccLoad stack ecc s := rfl
@[simp] theorem exec_accAdd (stack : Fin 8) (ecc : List (Nat × Ecc)) : exec (.accAdd stack ecc) s = execAccAdd stack ecc s := rfl
@[simp] theorem exec_accStore (stack : Fin 8) : exec (.accStore stack) s = execAccStore stack s := rfl
@[simp] theorem exec_chainMove (stack : Fin 8) : exec (.chainMove stack) s = execChainMove stack s := rfl
@[simp] theorem exec_chainAdd (stack : Fin 8) : exec (.chainAdd stack) s = execChainAdd stack s := rfl
@[simp] theorem exec_rlFenceGo : exec (.rlFenceGo) s = execRlFenceGo s := rfl
@[simp] theorem exec_rlFenceComplete : exec (.rlFenceComplete) s = execRlFenceComplete s := rfl
@[simp] theorem exec_rlgSubmit (stack : Fin 8) (value : BitVec 64) : exec (.rlgSubmit stack value) s = execRlgSubmit stack value s := rfl
@[simp] theorem exec_streamBatchStart (slot : Fin 1024) : exec (.streamBatchStart slot) s = execStreamBatchStart slot s := rfl
@[simp] theorem exec_streamNop (ctx : Fin 512) : exec (.streamNop ctx) s = execStreamNop ctx s := rfl
@[simp] theorem exec_movi (ctx : Fin 512) : exec (.movi ctx) s = execMovi ctx s := rfl
@[simp] theorem exec_streamAdd (ctx : Fin 512) : exec (.streamAdd ctx) s = execStreamAdd ctx s := rfl
@[simp] theorem exec_addi (ctx : Fin 512) : exec (.addi ctx) s = execAddi ctx s := rfl
@[simp] theorem exec_muli (ctx : Fin 512) : exec (.muli ctx) s = execMuli ctx s := rfl
@[simp] theorem exec_ld64 (ctx : Fin 512) : exec (.ld64 ctx) s = execLd64 ctx s := rfl
@[simp] theorem exec_setl (ctx : Fin 512) : exec (.setl ctx) s = execSetl ctx s := rfl
@[simp] theorem exec_setlr (ctx : Fin 512) : exec (.setlr ctx) s = execSetlr ctx s := rfl
@[simp] theorem exec_endl (ctx : Fin 512) : exec (.endl ctx) s = execEndl ctx s := rfl
@[simp] theorem exec_emit (ctx : Fin 512) : exec (.emit ctx) s = execEmit ctx s := rfl
@[simp] theorem exec_emitw (ctx : Fin 512) : exec (.emitw ctx) s = execEmitw ctx s := rfl
@[simp] theorem exec_layer (ctx : Fin 512) : exec (.layer ctx) s = execLayer ctx s := rfl
@[simp] theorem exec_rlf (ctx : Fin 512) : exec (.rlf ctx) s = execRlf ctx s := rfl
@[simp] theorem exec_streamEnd (ctx : Fin 512) : exec (.streamEnd ctx) s = execStreamEnd ctx s := rfl
@[simp] theorem exec_tileAllocate : exec (.tileAllocate) s = execTileAllocate s := rfl
@[simp] theorem exec_tileReady (ctx : Fin 512) (ue : List (Fin 2048)) : exec (.tileReady ctx ue) s = execTileReady ctx ue s := rfl
@[simp] theorem exec_outputTileCommit (ctx : Fin 512) : exec (.outputTileCommit ctx) s = execOutputTileCommit ctx s := rfl
@[simp] theorem exec_streamBatchComplete (ctx : Fin 512) : exec (.streamBatchComplete ctx) s = execStreamBatchComplete ctx s := rfl
@[simp] theorem exec_groupDrain (group : Fin 16) : exec (.groupDrain group) s = execGroupDrain group s := rfl
@[simp] theorem exec_pageMigration (ctx : Fin 512) : exec (.pageMigration ctx) s = execPageMigration ctx s := rfl
@[simp] theorem exec_contextHalt (ctx : Fin 512) : exec (.contextHalt ctx) s = execContextHalt ctx s := rfl
@[simp] theorem exec_contextHalted (ctx : Fin 512) : exec (.contextHalted ctx) s = execContextHalted ctx s := rfl
@[simp] theorem exec_streamResume (ctx : Fin 512) : exec (.streamResume ctx) s = execStreamResume ctx s := rfl
@[simp] theorem exec_contextSave (ctx : Fin 512) : exec (.contextSave ctx) s = execContextSave ctx s := rfl
@[simp] theorem exec_contextRestore (ctx : Fin 512) : exec (.contextRestore ctx) s = execContextRestore ctx s := rfl
@[simp] theorem exec_floorWrite (ctx : Fin 512) (value : BitVec 32) : exec (.floorWrite ctx value) s = execFloorWrite ctx value s := rfl
@[simp] theorem exec_waitforTrace (ctx : Fin 512) : exec (.waitforTrace ctx) s = execWaitforTrace ctx s := rfl
@[simp] theorem exec_engineBatchStart (slot : Fin 1024) : exec (.engineBatchStart slot) s = execEngineBatchStart slot s := rfl
@[simp] theorem exec_engineFetch (eng : Fin 64) : exec (.engineFetch eng) s = execEngineFetch eng s := rfl
@[simp] theorem exec_ruleNop (eng : Fin 64) : exec (.ruleNop eng) s = execRuleNop eng s := rfl
@[simp] theorem exec_vadd (eng : Fin 64) : exec (.vadd eng) s = execVadd eng s := rfl
@[simp] theorem exec_vsub (eng : Fin 64) : exec (.vsub eng) s = execVsub eng s := rfl
@[simp] theorem exec_vmul (eng : Fin 64) : exec (.vmul eng) s = execVmul eng s := rfl
@[simp] theorem exec_vfma (eng : Fin 64) : exec (.vfma eng) s = execVfma eng s := rfl
@[simp] theorem exec_vfnma (eng : Fin 64) : exec (.vfnma eng) s = execVfnma eng s := rfl
@[simp] theorem exec_vmax (eng : Fin 64) : exec (.vmax eng) s = execVmax eng s := rfl
@[simp] theorem exec_vmin (eng : Fin 64) : exec (.vmin eng) s = execVmin eng s := rfl
@[simp] theorem exec_vabs (eng : Fin 64) : exec (.vabs eng) s = execVabs eng s := rfl
@[simp] theorem exec_vneg (eng : Fin 64) : exec (.vneg eng) s = execVneg eng s := rfl
@[simp] theorem exec_vsign (eng : Fin 64) : exec (.vsign eng) s = execVsign eng s := rfl
@[simp] theorem exec_vsel (eng : Fin 64) : exec (.vsel eng) s = execVsel eng s := rfl
@[simp] theorem exec_vcmplt (eng : Fin 64) : exec (.vcmplt eng) s = execVcmplt eng s := rfl
@[simp] theorem exec_vrcp (eng : Fin 64) : exec (.vrcp eng) s = execVrcp eng s := rfl
@[simp] theorem exec_vsqrt (eng : Fin 64) : exec (.vsqrt eng) s = execVsqrt eng s := rfl
@[simp] theorem exec_vrsqrt (eng : Fin 64) : exec (.vrsqrt eng) s = execVrsqrt eng s := rfl
@[simp] theorem exec_vdiv (eng : Fin 64) : exec (.vdiv eng) s = execVdiv eng s := rfl
@[simp] theorem exec_vrnd (eng : Fin 64) : exec (.vrnd eng) s = execVrnd eng s := rfl
@[simp] theorem exec_emset (eng : Fin 64) : exec (.emset eng) s = execEmset eng s := rfl
@[simp] theorem exec_emadd (eng : Fin 64) : exec (.emadd eng) s = execEmadd eng s := rfl
@[simp] theorem exec_emupd (eng : Fin 64) : exec (.emupd eng) s = execEmupd eng s := rfl
@[simp] theorem exec_emrnd (eng : Fin 64) : exec (.emrnd eng) s = execEmrnd eng s := rfl
@[simp] theorem exec_srbf (eng : Fin 64) : exec (.srbf eng) s = execSrbf eng s := rfl
@[simp] theorem exec_rnbf (eng : Fin 64) : exec (.rnbf eng) s = execRnbf eng s := rfl
@[simp] theorem exec_vld (eng : Fin 64) : exec (.vld eng) s = execVld eng s := rfl
@[simp] theorem exec_vst (eng : Fin 64) : exec (.vst eng) s = execVst eng s := rfl
@[simp] theorem exec_vacc (eng : Fin 64) : exec (.vacc eng) s = execVacc eng s := rfl
@[simp] theorem exec_vrsum (eng : Fin 64) : exec (.vrsum eng) s = execVrsum eng s := rfl
@[simp] theorem exec_qstat (eng : Fin 64) : exec (.qstat eng) s = execQstat eng s := rfl
@[simp] theorem exec_ruleEnd (eng : Fin 64) : exec (.ruleEnd eng) s = execRuleEnd eng s := rfl
@[simp] theorem exec_engineBatchComplete (eng : Fin 64) : exec (.engineBatchComplete eng) s = execEngineBatchComplete eng s := rfl
@[simp] theorem exec_engineHalt (eng : Fin 64) : exec (.engineHalt eng) s = execEngineHalt eng s := rfl
@[simp] theorem exec_engineSave (eng : Fin 64) : exec (.engineSave eng) s = execEngineSave eng s := rfl
@[simp] theorem exec_engineRestore (eng : Fin 64) : exec (.engineRestore eng) s = execEngineRestore eng s := rfl
@[simp] theorem exec_engineSubmit (eng : Fin 64) (value : BitVec 64) : exec (.engineSubmit eng value) s = execEngineSubmit eng value s := rfl
@[simp] theorem exec_ruleStoreWrite (eng : Fin 64) (index : Fin 1024) (value : BitVec 32) : exec (.ruleStoreWrite eng index value) s = execRuleStoreWrite eng index value s := rfl
@[simp] theorem exec_derivePass (eng : Fin 64) : exec (.derivePass eng) s = execDerivePass eng s := rfl
@[simp] theorem exec_engineFenceWb : exec (.engineFenceWb) s = execEngineFenceWb s := rfl
@[simp] theorem exec_engineFenceWbinv : exec (.engineFenceWbinv) s = execEngineFenceWbinv s := rfl
@[simp] theorem exec_fabricFence : exec (.fabricFence) s = execFabricFence s := rfl
@[simp] theorem exec_engineFenceComplete : exec (.engineFenceComplete) s = execEngineFenceComplete s := rfl
@[simp] theorem exec_fabricFenceComplete : exec (.fabricFenceComplete) s = execFabricFenceComplete s := rfl
@[simp] theorem exec_matrixJobStart (slot : Fin 1024) : exec (.matrixJobStart slot) s = execMatrixJobStart slot s := rfl
@[simp] theorem exec_mxaSubmit (value : BitVec 64) : exec (.mxaSubmit value) s = execMxaSubmit value s := rfl
@[simp] theorem exec_matrixPass : exec (.matrixPass) s = execMatrixPass s := rfl
@[simp] theorem exec_matrixJobComplete : exec (.matrixJobComplete) s = execMatrixJobComplete s := rfl
@[simp] theorem exec_poolLoad (pool : Fin 8) : exec (.poolLoad pool) s = execPoolLoad pool s := rfl
@[simp] theorem exec_poolUnload (pool : Fin 8) : exec (.poolUnload pool) s = execPoolUnload pool s := rfl
@[simp] theorem exec_labFlush (pool : Fin 8) : exec (.labFlush pool) s = execLabFlush pool s := rfl
@[simp] theorem exec_mmuInval (value : BitVec 64) : exec (.mmuInval value) s = execMmuInval value s := rfl
@[simp] theorem exec_kvWindowStart (slot : Fin 1024) : exec (.kvWindowStart slot) s = execKvWindowStart slot s := rfl
@[simp] theorem exec_kvRequestAccept (pool : Fin 8) : exec (.kvRequestAccept pool) s = execKvRequestAccept pool s := rfl
@[simp] theorem exec_kvWindowEnd (pool : Fin 8) : exec (.kvWindowEnd pool) s = execKvWindowEnd pool s := rfl
@[simp] theorem exec_kvOpen (pool : Fin 8) : exec (.kvOpen pool) s = execKvOpen pool s := rfl
@[simp] theorem exec_append (pool : Fin 8) : exec (.append pool) s = execAppend pool s := rfl
@[simp] theorem exec_attend (pool : Fin 8) : exec (.attend pool) s = execAttend pool s := rfl
@[simp] theorem exec_attendBwd (pool : Fin 8) : exec (.attendBwd pool) s = execAttendBwd pool s := rfl
@[simp] theorem exec_fork (pool : Fin 8) : exec (.fork pool) s = execFork pool s := rfl
@[simp] theorem exec_release (pool : Fin 8) : exec (.release pool) s = execRelease pool s := rfl
@[simp] theorem exec_kvRead (pool : Fin 8) : exec (.kvRead pool) s = execKvRead pool s := rfl
@[simp] theorem exec_rngSeedRead : exec (.rngSeedRead) s = execRngSeedRead s := rfl
@[simp] theorem exec_retest : exec (.retest) s = execRetest s := rfl
@[simp] theorem exec_startupTestDone (samples : List (Fin 16)) : exec (.startupTestDone samples) s = execStartupTestDone samples s := rfl
@[simp] theorem exec_noiseBlock (samples : List (Fin 16)) : exec (.noiseBlock samples) s = execNoiseBlock samples s := rfl
@[simp] theorem exec_lfsrSeed (value : BitVec 32) : exec (.lfsrSeed value) s = execLfsrSeed value s := rfl
@[simp] theorem exec_seedDone : exec (.seedDone) s = execSeedDone s := rfl
@[simp] theorem exec_rdS (eng : Fin 64) (tag : Fin 32) (line : BitVec 41) : exec (.rdS eng tag line) s = execRdS eng tag line s := rfl
@[simp] theorem exec_rdX (eng : Fin 64) (tag : Fin 32) (line : BitVec 41) (off : Fin 128) (data : List Byte) : exec (.rdX eng tag line off data) s = execRdX eng tag line off data s := rfl
@[simp] theorem exec_upg (eng : Fin 64) (tag : Fin 32) (line : BitVec 41) (off : Fin 128) (data : List Byte) : exec (.upg eng tag line off data) s = execUpg eng tag line off data s := rfl
@[simp] theorem exec_evict (eng : Fin 64) (tag : Fin 32) (line : BitVec 41) : exec (.evict eng tag line) s = execEvict eng tag line s := rfl
@[simp] theorem exec_wb (eng : Fin 64) (tag : Fin 32) (line : BitVec 41) : exec (.wb eng tag line) s = execWb eng tag line s := rfl
@[simp] theorem exec_dataS (eng : Fin 64) (tag : Fin 32) (line : BitVec 41) : exec (.dataS eng tag line) s = execDataS eng tag line s := rfl
@[simp] theorem exec_dataE (eng : Fin 64) (tag : Fin 32) (line : BitVec 41) : exec (.dataE eng tag line) s = execDataE eng tag line s := rfl
@[simp] theorem exec_dataX (eng : Fin 64) (tag : Fin 32) (line : BitVec 41) : exec (.dataX eng tag line) s = execDataX eng tag line s := rfl
@[simp] theorem exec_upgAck (eng : Fin 64) (tag : Fin 32) (line : BitVec 41) : exec (.upgAck eng tag line) s = execUpgAck eng tag line s := rfl
@[simp] theorem exec_evictAck (eng : Fin 64) (tag : Fin 32) (line : BitVec 41) : exec (.evictAck eng tag line) s = execEvictAck eng tag line s := rfl
@[simp] theorem exec_wbAck (eng : Fin 64) (tag : Fin 32) (line : BitVec 41) : exec (.wbAck eng tag line) s = execWbAck eng tag line s := rfl
@[simp] theorem exec_wbSuperseded (eng : Fin 64) (tag : Fin 32) (line : BitVec 41) : exec (.wbSuperseded eng tag line) s = execWbSuperseded eng tag line s := rfl
@[simp] theorem exec_snpShare (eng : Fin 64) (slice : Fin 32) (tag : Fin 64) (line : BitVec 41) : exec (.snpShare eng slice tag line) s = execSnpShare eng slice tag line s := rfl
@[simp] theorem exec_snpInv (eng : Fin 64) (slice : Fin 32) (tag : Fin 64) (line : BitVec 41) : exec (.snpInv eng slice tag line) s = execSnpInv eng slice tag line s := rfl
@[simp] theorem exec_snpDiscard (eng : Fin 64) (slice : Fin 32) (tag : Fin 64) (line : BitVec 41) : exec (.snpDiscard eng slice tag line) s = execSnpDiscard eng slice tag line s := rfl
@[simp] theorem exec_rspGone (eng : Fin 64) (slice : Fin 32) (tag : Fin 64) (line : BitVec 41) : exec (.rspGone eng slice tag line) s = execRspGone eng slice tag line s := rfl
@[simp] theorem exec_rspInv (eng : Fin 64) (slice : Fin 32) (tag : Fin 64) (line : BitVec 41) : exec (.rspInv eng slice tag line) s = execRspInv eng slice tag line s := rfl
@[simp] theorem exec_rspInvS (eng : Fin 64) (slice : Fin 32) (tag : Fin 64) (line : BitVec 41) : exec (.rspInvS eng slice tag line) s = execRspInvS eng slice tag line s := rfl
@[simp] theorem exec_rspData (eng : Fin 64) (slice : Fin 32) (tag : Fin 64) (line : BitVec 41) : exec (.rspData eng slice tag line) s = execRspData eng slice tag line s := rfl
@[simp] theorem exec_rspDataS (eng : Fin 64) (slice : Fin 32) (tag : Fin 64) (line : BitVec 41) : exec (.rspDataS eng slice tag line) s = execRspDataS eng slice tag line s := rfl
@[simp] theorem exec_snoopTimeout (slice : Fin 32) (tag : Fin 64) : exec (.snoopTimeout slice tag) s = execSnoopTimeout slice tag s := rfl
@[simp] theorem exec_presenceDebounce (fresh : Bool) : exec (.presenceDebounce fresh) s = execPresenceDebounce fresh s := rfl
@[simp] theorem exec_presenceLost : exec (.presenceLost) s = execPresenceLost s := rfl
@[simp] theorem exec_railPowerGood (straps : Fin 8) : exec (.railPowerGood straps) s = execRailPowerGood straps s := rfl
@[simp] theorem exec_trip (cause : Fin 6) : exec (.trip cause) s = execTrip cause s := rfl
@[simp] theorem exec_vinLow (volts : BitVec 16) (amps : BitVec 16) : exec (.vinLow volts amps) s = execVinLow volts amps s := rfl
@[simp] theorem exec_coolLoss : exec (.coolLoss) s = execCoolLoss s := rfl
@[simp] theorem exec_coolLimitLift : exec (.coolLimitLift) s = execCoolLimitLift s := rfl
@[simp] theorem exec_leak : exec (.leak) s = execLeak s := rfl
@[simp] theorem exec_ejectOpened : exec (.ejectOpened) s = execEjectOpened s := rfl
@[simp] theorem exec_ejectClosed : exec (.ejectClosed) s = execEjectClosed s := rfl
@[simp] theorem exec_referenceRelock : exec (.referenceRelock) s = execReferenceRelock s := rfl
@[simp] theorem exec_perst (vinOk : Bool) (at_ : Nat) (late : BitVec 64) (cacheLate : Bool) : exec (.perst vinOk at_ late cacheLate) s = execPerst vinOk at_ late cacheLate s := rfl
@[simp] theorem exec_moduleReset (key : BitVec 16) (fabric : Bool) (late : BitVec 64) (cacheLate : Bool) : exec (.moduleReset key fabric late cacheLate) s = execModuleReset key fabric late cacheLate s := rfl
@[simp] theorem exec_computeReset (key : BitVec 16) (fabric : Bool) (late : BitVec 64) (ns : Nat) : exec (.computeReset key fabric late ns) s = execComputeReset key fabric late ns s := rfl
@[simp] theorem exec_planReset (key : BitVec 16) (fabric : Bool) : exec (.planReset key fabric) s = execPlanReset key fabric s := rfl
@[simp] theorem exec_planResetHalted (at_ : Nat) : exec (.planResetHalted at_) s = execPlanResetHalted at_ s := rfl
@[simp] theorem exec_resetForced (at_ : Nat) : exec (.resetForced at_) s = execResetForced at_ s := rfl
@[simp] theorem exec_dieResetRelease : exec (.dieResetRelease) s = execDieResetRelease s := rfl
@[simp] theorem exec_imageSlotVerify (flashOk : Bool) : exec (.imageSlotVerify flashOk) s = execImageSlotVerify flashOk s := rfl
@[simp] theorem exec_coreReady (core : Fin 4) : exec (.coreReady core) s = execCoreReady core s := rfl
@[simp] theorem exec_coreReadyTimeout (core : Fin 4) : exec (.coreReadyTimeout core) s = execCoreReadyTimeout core s := rfl
@[simp] theorem exec_memoryReady (failedPc : List (Fin 8 × BitVec 32)) (failedCh : BitVec 32) (lanes : List (Nat × Nat)) (repairFails : List Nat) : exec (.memoryReady failedPc failedCh lanes repairFails) s = execMemoryReady failedPc failedCh lanes repairFails s := rfl
@[simp] theorem exec_channelZeroed (chan : Fin 288) : exec (.channelZeroed chan) s = execChannelZeroed chan s := rfl
@[simp] theorem exec_domainStart : exec (.domainStart) s = execDomainStart s := rfl
@[simp] theorem exec_readyForPlan : exec (.readyForPlan) s = execReadyForPlan s := rfl
@[simp] theorem exec_bootLate : exec (.bootLate) s = execBootLate s := rfl
@[simp] theorem exec_throttleUpdate (pMs : Nat) (pS : Nat) (dieMax : Nat) (iin : Nat) : exec (.throttleUpdate pMs pS dieMax iin) s = execThrottleUpdate pMs pS dieMax iin s := rfl
@[simp] theorem exec_overcurrentThrottle : exec (.overcurrentThrottle) s = execOvercurrentThrottle s := rfl
@[simp] theorem exec_dieHotThrottle : exec (.dieHotThrottle) s = execDieHotThrottle s := rfl
@[simp] theorem exec_telemetryInterval (tel : List Byte) : exec (.telemetryInterval tel) s = execTelemetryInterval tel s := rfl
@[simp] theorem exec_clusterGate (unit : Option (Fin 8)) : exec (.clusterGate unit) s = execClusterGate unit s := rfl
@[simp] theorem exec_p1Entry : exec (.p1Entry) s = execP1Entry s := rfl
@[simp] theorem exec_p1Exit : exec (.p1Exit) s = execP1Exit s := rfl
@[simp] theorem exec_pstateDone : exec (.pstateDone) s = execPstateDone s := rfl
@[simp] theorem exec_claimAck (port : Fin 16) (id : BitVec 16) : exec (.claimAck port id) s = execClaimAck port id s := rfl
@[simp] theorem exec_coalesceExpiry : exec (.coalesceExpiry) s = execCoalesceExpiry s := rfl
@[simp] theorem exec_queueEnable (q : Fin 16) (value : BitVec 32) : exec (.queueEnable q value) s = execQueueEnable q value s := rfl
@[simp] theorem exec_sqDoorbell (q : Fin 16) (value : BitVec 32) : exec (.sqDoorbell q value) s = execSqDoorbell q value s := rfl
@[simp] theorem exec_cqHeadWrite (q : Fin 16) (value : BitVec 32) : exec (.cqHeadWrite q value) s = execCqHeadWrite q value s := rfl
@[simp] theorem exec_queueNop (q : Fin 16) : exec (.queueNop q) s = execQueueNop q s := rfl
@[simp] theorem exec_planLoad (q : Fin 16) : exec (.planLoad q) s = execPlanLoad q s := rfl
@[simp] theorem exec_routeLoad (q : Fin 16) : exec (.routeLoad q) s = execRouteLoad q s := rfl
@[simp] theorem exec_ruleLoad (q : Fin 16) : exec (.ruleLoad q) s = execRuleLoad q s := rfl
@[simp] theorem exec_copyIn (q : Fin 16) : exec (.copyIn q) s = execCopyIn q s := rfl
@[simp] theorem exec_copyOut (q : Fin 16) : exec (.copyOut q) s = execCopyOut q s := rfl
@[simp] theorem exec_queueArm (q : Fin 16) : exec (.queueArm q) s = execQueueArm q s := rfl
@[simp] theorem exec_queueDisarm (q : Fin 16) : exec (.queueDisarm q) s = execQueueDisarm q s := rfl
@[simp] theorem exec_queueDetach (q : Fin 16) : exec (.queueDetach q) s = execQueueDetach q s := rfl
@[simp] theorem exec_fence (q : Fin 16) : exec (.fence q) s = execFence q s := rfl
@[simp] theorem exec_writeReg (q : Fin 16) : exec (.writeReg q) s = execWriteReg q s := rfl
@[simp] theorem exec_readReg (q : Fin 16) : exec (.readReg q) s = execReadReg q s := rfl
@[simp] theorem exec_hostReadTimeout (tag : Fin 1024) : exec (.hostReadTimeout tag) s = execHostReadTimeout tag s := rfl
@[simp] theorem exec_hostMemoryRequest (write : Bool) (off : BitVec 41) (len : Nat) (data : List Byte) (ep : Bool) : exec (.hostMemoryRequest write off len data ep) s = execHostMemoryRequest write off len data ep s := rfl
@[simp] theorem exec_configRequest (item : Nat) (write : Bool) (value : BitVec 32) : exec (.configRequest item write value) s = execConfigRequest item write value s := rfl
@[simp] theorem exec_d3hot : exec (.d3hot) s = execD3hot s := rfl
@[simp] theorem exec_linkDown : exec (.linkDown) s = execLinkDown s := rfl
@[simp] theorem exec_hotReset : exec (.hotReset) s = execHotReset s := rfl
@[simp] theorem exec_flashRead : exec (.flashRead) s = execFlashRead s := rfl
@[simp] theorem exec_flashProgram (key : BitVec 16) : exec (.flashProgram key) s = execFlashProgram key s := rfl
@[simp] theorem exec_flashErase (key : BitVec 16) : exec (.flashErase key) s = execFlashErase key s := rfl
@[simp] theorem exec_fuseKeyHash (key : BitVec 16) : exec (.fuseKeyHash key) s = execFuseKeyHash key s := rfl
@[simp] theorem exec_fuseRevoke (key : BitVec 16) : exec (.fuseRevoke key) s = execFuseRevoke key s := rfl
@[simp] theorem exec_fuseSvn (key : BitVec 16) : exec (.fuseSvn key) s = execFuseSvn key s := rfl
@[simp] theorem exec_flashOpDone : exec (.flashOpDone) s = execFlashOpDone s := rfl
@[simp] theorem exec_identity : exec (.identity) s = execIdentity s := rfl
@[simp] theorem exec_status : exec (.status) s = execStatus s := rfl
@[simp] theorem exec_regRead (off : BitVec 32) (width : Byte) (pec : Bool) : exec (.regRead off width pec) s = execRegRead off width pec s := rfl
@[simp] theorem exec_regWrite (off : BitVec 32) (width : Byte) (value : BitVec 64) (pec : Bool) (rd : Bool) : exec (.regWrite off width value pec rd) s = execRegWrite off width value pec rd s := rfl
@[simp] theorem exec_mgtTelemetry (chunk : Byte) (pec : Bool) : exec (.mgtTelemetry chunk pec) s = execMgtTelemetry chunk pec s := rfl
@[simp] theorem exec_fault (record : Byte) (half : Byte) (pec : Bool) : exec (.fault record half pec) s = execFault record half pec s := rfl
@[simp] theorem exec_flashBuf (off : BitVec 16) (data : List Byte) (pec : Bool) (rd : Bool) : exec (.flashBuf off data pec rd) s = execFlashBuf off data pec rd s := rfl
@[simp] theorem exec_flashCmd (ctl : BitVec 32) (addr : BitVec 32) (len : BitVec 32) (fuse : BitVec 32) (pec : Bool) (rd : Bool) : exec (.flashCmd ctl addr len fuse pec rd) s = execFlashCmd ctl addr len fuse pec rd s := rfl
@[simp] theorem exec_reset (key : BitVec 16) (pec : Bool) (rd : Bool) (late : BitVec 64) (cacheLate : Bool) : exec (.reset key pec rd late cacheLate) s = execReset key pec rd late cacheLate s := rfl
@[simp] theorem exec_locate (on : Byte) (pec : Bool) (rd : Bool) : exec (.locate on pec rd) s = execLocate on pec rd s := rfl
@[simp] theorem exec_alert (mask : Option (BitVec 32)) (pec : Bool) (rd : Bool) : exec (.alert mask pec rd) s = execAlert mask pec rd s := rfl
@[simp] theorem exec_alertResponse : exec (.alertResponse) s = execAlertResponse s := rfl
@[simp] theorem exec_clusterUngate (unit : Option (Fin 8)) : exec (.clusterUngate unit) s = execClusterUngate unit s := rfl
@[simp] theorem exec_hostLinkUp (speed : Fin 16) (width : Fin 32) : exec (.hostLinkUp speed width) s = execHostLinkUp speed width s := rfl
@[simp] theorem exec_hostReadCompletion (tag : Fin 1024) (status : Fin 4) (data : List Byte) : exec (.hostReadCompletion tag status data) s = execHostReadCompletion tag status data s := rfl
@[simp] theorem exec_rampComplete : exec (.rampComplete) s = execRampComplete s := rfl
@[simp] theorem exec_alignTimeout (port : Fin 16) (lanes : BitVec 8) : exec (.alignTimeout port lanes) s = execAlignTimeout port lanes s := rfl
@[simp] theorem exec_measureTimeout (port : Fin 16) : exec (.measureTimeout port) s = execMeasureTimeout port s := rfl
@[simp] theorem exec_dieHot : exec (.dieHot) s = execDieHot s := rfl

end Sys2Proof.Machine
end

