-- ==== Sys2Proof/Laws/Fault.lean ====
section
/-! SUPPORT. What recording a fault and writing memory leave of the register fields. -/

namespace Sys2Proof.Machine

/-- A field is read off the register table alone. -/
theorem get_congr {s t : State} (g : Fld) (h : s.regs = t.regs) : s.get g = t.get g := by unfold State.get; rw [h]

/-- A property of states that every application in a fold keeps holds after it. -/
theorem foldl_keeps {α : Type} (P : State → Prop) (f : State → α → State) (h : ∀ t a, P t → P (f t a)) :
    ∀ (l : List α) (s : State), P s → P (l.foldl f s)
  | [], _, hs => hs
  | a :: l, s, hs => foldl_keeps P f h l (f s a) (h s a hs)

/-- The same for `State.each`. -/
theorem each_keeps {α : Type} (P : State → Prop) (f : α → State → State) (h : ∀ a t, P t → P (f a t)) (l : List α) (s : State)
    (hs : P s) : P (State.each l f s) := foldl_keeps P _ (fun t a ht => h a t ht) l s hs

/-- A fold each of whose applications leaves a field leaves it. -/
theorem foldl_get {α : Type} (g : Fld) (f : State → α → State) (h : ∀ t a, (f t a).get g = t.get g) (l : List α) (s : State) :
    (l.foldl f s).get g = s.get g :=
  foldl_keeps (fun t => t.get g = s.get g) f (fun t a ht => (h t a).trans ht) l s rfl

theorem each_get {α : Type} (g : Fld) (f : α → State → State) (h : ∀ a t, (f a t).get g = t.get g) (l : List α) (s : State) :
    (State.each l f s).get g = s.get g := foldl_get g _ (fun t a => h a t) l s

variable (s : State)

@[simp] theorem cachePut_get (a : Nat) (b : Byte) (g : Fld) : (cachePut a b s).get g = s.get g := by
  unfold cachePut; split <;> rfl

@[simp] theorem poisonPut_get (a : Nat) (v : Bool) (g : Fld) : (poisonPut a v s).get g = s.get g := by
  unfold poisonPut; split <;> rfl

@[simp] theorem l1Snooped_get (k : Bool) (line e : Nat) (g : Fld) : (l1Snooped k line e s).get g = s.get g := rfl

theorem snoopLine_get (k d : Bool) (line : Nat) {g : Fld} (h : g.key ≠ cohSnoopsCount.key) :
    (snoopLine k d line s).get g = s.get g := by
  unfold snoopLine
  split
  · rfl
  · split
    · rfl
    · simp only [each_get g _ (fun a t => l1Snooped_get t k line a g), get_bump_ne _ _ h, setLine_get_frame]

/-- A field that no write at the coherence point counts in: neither the snoops, nor the row-logic guard, nor a partition's bytes. -/
abbrev Uncounted (g : Fld) : Prop :=
  g.key ≠ cohSnoopsCount.key ∧ (g.key ≠ rlgGuardCount.key ∧ g.key ≠ rlgEvtGuard.key) ∧ ∀ p, g.key ≠ (memPartBytesCount p).key

theorem guardCount_get (a n : Nat) {g : Fld} (h : Uncounted g) : (guardCount a n s).get g = s.get g := by
  unfold guardCount
  split
  · rfl
  · rw [raise_ne _ h.2.1.2, get_bump_ne _ _ h.2.1.1]

theorem guarded_get (k : Nat) (bs : List Byte) (g : Fld) : (guarded k bs s).2.get g = s.get g := by
  unfold guarded; split <;> rfl

theorem charge_get (a b : Nat) {g : Fld} (h : Uncounted g) : (charge a b s).get g = s.get g := by
  unfold charge
  split
  · rfl
  · dsimp only
    split
    · exact get_bump_ne s _ (h.2.2 _)
    · exact get_bump_ne s _ (h.2.2 _)

/-- A write by a coherent agent changes no register field but the counts of snoops, of guarded accesses and of bytes. -/
theorem nodeWrite_get (a : Nat) (bs : List Byte) {g : Fld} (h : Uncounted g) : (nodeWrite a bs s).get g = s.get g := by
  unfold nodeWrite
  dsimp only
  split
  · rfl
  · rw [foldl_get g _ (fun t i => by split <;> simp), foldl_get g _ (fun t i => by split <;> simp),
      foldl_get g _ (fun t i => by
        split
        · exact snoopLine_get t _ _ _ h.1
        · rw [charge_get _ _ _ h, snoopLine_get t _ _ _ h.1]),
      guarded_get, guardCount_get _ _ _ h]

/-- The fields that a fault record may change lie in the fault block, but for the counts of the write to the ring and for
what a refusal of that write records. -/
abbrev Unrecorded (g : Fld) : Prop :=
  g.key < 8 * 0x1c01000 ∧ Uncounted g ∧ g.key ≠ memMapErrAddr.key ∧ g.key ≠ memMapErrCause.key ∧ g.key ≠ memEvtMapErr.key

theorem refusedAt_get (a : Nat) {g : Fld} (h : Unrecorded g) : (refusedAt a s).get g = s.get g := by
  unfold refusedAt
  split
  · rfl
  · rw [raise_ne _ h.2.2.2.2, get_set_ne _ _ h.2.2.2.1, get_set_ne _ _ h.2.2.1]

theorem ringWrite_get (r : List Byte) {g : Fld} (h : Unrecorded g) : (ringWrite r s).get g = s.get g := by
  have h1 : g.key ≠ telFaultStatLost.key := by have := h.1; show g.key ≠ _; unfold Fld.key telFaultStatLost at *; simp at *; omega
  have h2 : g.key ≠ telFaultEvtRingErr.key := by have := h.1; unfold Fld.key telFaultEvtRingErr at *; simp at *; omega
  have h3 : g.key ≠ telFaultRingCtlEntries.key := by have := h.1; unfold Fld.key telFaultRingCtlEntries at *; simp at *; omega
  have h4 : g.key ≠ telFaultHeadIndex.key := by have := h.1; unfold Fld.key telFaultHeadIndex at *; simp at *; omega
  unfold ringWrite
  dsimp only
  split
  · rfl
  · split
    · exact get_bump_ne s _ h1
    · split
      · rw [raise_ne _ h2, get_set_ne _ _ h3, refusedAt_get _ _ h]
      · rw [get_set_ne _ _ h4, nodeWrite_get _ _ _ h.2.1]

theorem writeRecord_get (cls code unit repeats info action tick : Nat) (claim : Option Nat) {g : Fld} (h : Unrecorded g) :
    (writeRecord cls code unit repeats info action tick claim s).get g = s.get g := by
  have h1 : g.key ≠ telFaultEvtRecord.key := by have := h.1; unfold Fld.key telFaultEvtRecord at *; simp at *; omega
  have h2 : g.key ≠ telFaultSeqSeq.key := by have := h.1; unfold Fld.key telFaultSeqSeq at *; simp at *; omega
  unfold writeRecord
  dsimp only
  rw [raise_ne _ h1, ringWrite_get _ _ h, onFlt_get_frame, get_set_ne _ _ h2]

theorem coalEnd_get (c : Coal) {g : Fld} (h : Unrecorded g) : (coalEnd c s).get g = s.get g := by
  unfold coalEnd
  dsimp only
  split
  · rw [onFlt_get_frame]
  · rw [writeRecord_get _ _ _ _ _ _ _ _ _ h, onFlt_get_frame]

theorem coalExpire_get {g : Fld} (h : Unrecorded g) : (coalExpire s).get g = s.get g :=
  each_get g _ (fun c t => coalEnd_get t c h) _ s

theorem faultCore_get (c : FltClass) (code unit info action : Nat) (claim : Option Nat) {g : Fld} (h : Unrecorded g) :
    (faultCore c code unit info action claim s).get g = s.get g := by
  have h1 : g.key ≠ telFaultStatCoalesced.key := by have := h.1; unfold Fld.key telFaultStatCoalesced at *; simp at *; omega
  unfold faultCore
  dsimp only
  split
  · exact writeRecord_get s _ _ _ _ _ _ _ _ h
  · split
    · rw [get_bump_ne _ _ h1, onFlt_get_frame, coalExpire_get s h]
    · rw [onFlt_get_frame, writeRecord_get _ _ _ _ _ _ _ _ _ h]
      split
      · exact coalExpire_get s h
      · split
        · rw [coalEnd_get _ _ h, coalExpire_get s h]
        · exact coalExpire_get s h

/-- A fault recorded changes no register field outside the fault block but what the write to the ring counts or what its
refusal records. -/
theorem fault_get (c : FltClass) (code unit info action : Nat) (claim : Option Nat) {g : Fld} (h : Unrecorded g) :
    (fault c code unit info action claim s).get g = s.get g := by
  unfold fault
  dsimp only
  split
  · rw [faultCore_get _ _ _ _ _ _ _ h, faultCore_get _ _ _ _ _ _ _ h]
  · exact faultCore_get _ _ _ _ _ _ _ h

end Sys2Proof.Machine
end

