-- ==== Sys2Proof/Laws/Whole.lean ====
section
/-! SUPPORT. What a row that accesses memory whole answers, its effect where every channel serves, else a wait; and what asks no
channel and is served by itself: faults, coherent writes, refused ranges. -/

namespace Sys2Proof.Machine

variable {f : State → Host.Outcome State Fault Refusal} {s t : State}

/-- A row whose accesses are all served has its effect. -/
theorem whole_served (h : f s = .next (settle t)) (k : Served s t) : whole f s = .next (settle t) := by
  unfold whole
  rw [h]
  exact if_pos k

/-- A row with an access that is held up leaves the state as it is, but for the wake. -/
theorem whole_held (h : f s = .next (settle t)) (k : ¬ Served s t) : whole f s = .next (settle (autowake s)) := by
  unfold whole
  rw [h]
  exact if_neg k

/-- What a row answers: its effect, or the wait. -/
theorem whole_next {u : State} (k : whole f s = .next u) : f s = .next u ∨ u = settle (autowake s) := by
  unfold whole at k
  split at k
  · split at k
    · rename_i h _; injection k with k; exact .inl (k ▸ h)
    · injection k with k; exact .inr k.symm
  · cases k
  · cases k

/-- A row whose meaning answers a next state answers one. -/
theorem whole_total {t : State} (h : f s = .next t) : ∃ u, whole f s = .next u := by
  unfold whole
  rw [h]
  dsimp only
  split
  · exact ⟨_, rfl⟩
  · exact ⟨_, rfl⟩

/-- What settling adds is no access. -/
@[simp] theorem served_settle : Served s (settle t) ↔ Served s t := Iff.rfl

/-! ## What is served by itself: no channel is asked -/

theorem foldl_served {α : Type} (g : State → α → State) (h : ∀ t a, Served t (g t a)) (l : List α) (s : State) :
    Served s (l.foldl g s) := foldl_keeps (Served s) g (fun t a k => (h t a).trans k) l s rfl

theorem cachePut_served (a : Nat) (b : Byte) (s : State) : Served s (cachePut a b s) := by unfold cachePut; split <;> rfl

theorem poisonPut_served (a : Nat) (v : Bool) (s : State) : Served s (poisonPut a v s) := by unfold poisonPut; split <;> rfl

theorem charge_served (a b : Nat) (s : State) : Served s (charge a b s) := by
  unfold charge
  split
  · rfl
  · dsimp only; split <;> rfl

theorem raise_served (g : Fld) (s : State) : Served s (raise g s) := by
  obtain ⟨r, h⟩ := raise_parts s g
  rw [h]

theorem snoopLine_served (k d : Bool) (line : Nat) (s : State) : Served s (snoopLine k d line s) := by
  unfold snoopLine
  split
  · rfl
  · split
    · rfl
    · exact foldl_served _ (fun t e => show Served t (l1Snooped k line e t) from rfl) _ _

theorem guarded_served (k : Nat) (bs : List Byte) (s : State) : Served s (guarded k bs s).2 := by unfold guarded; split <;> rfl

theorem guardCount_served (a n : Nat) (s : State) : Served s (guardCount a n s) := by
  unfold guardCount
  split
  · rfl
  · exact raise_served _ _

theorem nodeWrite_served (a : Nat) (bs : List Byte) (s : State) : Served s (nodeWrite a bs s) := by
  unfold nodeWrite
  dsimp only
  split
  · rfl
  · refine (foldl_served _ (fun t i => ?_) _ _).trans ((foldl_served _ (fun t i => ?_) _ _).trans
      ((foldl_served _ (fun t i => ?_) _ _).trans ((guarded_served _ _ _).trans (guardCount_served _ _ _))))
    · split
      · exact poisonPut_served _ _ _
      · rfl
    · split
      · exact cachePut_served _ _ _
      · rfl
    · split
      · exact snoopLine_served _ _ _ _
      · exact (charge_served _ _ _).trans (snoopLine_served _ _ _ _)

theorem refusedAt_served (a : Nat) (s : State) : Served s (refusedAt a s) := by
  unfold refusedAt
  split
  · rfl
  · exact raise_served _ _

theorem ringWrite_served (r : List Byte) (s : State) : Served s (ringWrite r s) := by
  unfold ringWrite
  dsimp only
  split
  · rfl
  · split
    · rfl
    · split
      · exact (raise_served _ _).trans (refusedAt_served _ s)
      · exact nodeWrite_served _ _ s

theorem writeRecord_served (cls code unit repeats info action tick : Nat) (claim : Option Nat) (s : State) :
    Served s (writeRecord cls code unit repeats info action tick claim s) := by
  unfold writeRecord
  exact (raise_served _ _).trans (ringWrite_served _ _)

theorem onFlt_served (f : FltState → FltState) (s : State) : Served s (s.onFlt f) := rfl

theorem bump_served (f : Fld) (k : Nat) (s : State) : Served s (s.bump f k) := rfl

theorem coalEnd_served (c : Coal) (s : State) : Served s (coalEnd c s) := by
  unfold coalEnd
  dsimp only
  split
  · exact onFlt_served _ _
  · exact (writeRecord_served _ _ _ _ _ _ _ _ _).trans (onFlt_served _ _)

theorem coalExpire_served (s : State) : Served s (coalExpire s) := foldl_served _ (fun t c => coalEnd_served c t) _ s

theorem faultCore_served (c : FltClass) (code unit info action : Nat) (claim : Option Nat) (s : State) :
    Served s (faultCore c code unit info action claim s) := by
  unfold faultCore
  dsimp only
  split
  · exact writeRecord_served _ _ _ _ _ _ _ _ s
  · split
    · exact (bump_served _ _ _).trans ((onFlt_served _ _).trans (coalExpire_served s))
    · refine (onFlt_served _ _).trans ((writeRecord_served _ _ _ _ _ _ _ _ _).trans ?_)
      split
      · exact coalExpire_served s
      · split
        · exact (coalEnd_served _ _).trans (coalExpire_served s)
        · exact coalExpire_served s

theorem fault_served (c : FltClass) (code unit info action : Nat) (claim : Option Nat) (s : State) :
    Served s (fault c code unit info action claim s) := by
  unfold fault
  dsimp only
  split
  · exact (faultCore_served _ _ _ _ _ _ _).trans (faultCore_served _ _ _ _ _ _ _)
  · exact faultCore_served _ _ _ _ _ _ _

theorem mapErr_served (q a : Nat) (s : State) : Served s (mapErr q a s) :=
  (fault_served _ _ _ _ _ _ _).trans (refusedAt_served _ _)

/-- A range of addresses at which no tier lies is refused (R175), and asks no channel. -/
theorem getPieces_unmapped (q hint uses : Nat) (d : Option Nat) :
    ∀ (ps : List (Nat × Nat)) (s : State), (∀ p ∈ ps, tierOf p.1 = none) → Served s (getPieces q hint uses d ps s).2
  | [], _, _ => rfl
  | p :: ps, s, h => by
    have r : refusal s p.1 ≠ 0 := by unfold refusal; rw [h p (by simp)]; simp
    unfold getPieces
    rw [if_pos r]
    refine (getPieces_unmapped q hint uses d ps _ (fun x hx => h x (by simp [hx]))).trans ?_
    split
    · rfl
    · exact mapErr_served _ _ _

end Sys2Proof.Machine
end

