-- ==== Sys2Proof/Tests/Slice0.lean ====
section
/-! SUPPORT. The model's own tests: ill-formed commands refused by the well-formedness check, the spec's worked cases, a few
values worked by hand, and for every clause of a statement that has hypotheses a state and operands that meet them all. -/

namespace Sys2Proof.Tests

set_option Elab.async false

open Sys2Proof.Machine

/-! ## States for the witnesses -/

def wst (s : State) (l : List (Fld × Nat)) : State := l.foldl (fun t p => t.set p.1 p.2) s
/-- A node with one plan slot (class 0, descriptor at 0x100 in frame 0) in a given state. -/
def calWit (x : SlotSt) : State :=
  wst { State.reset with
    tick := { TickState.reset with banks := [(6, 1), (81, 1)], slots := [(0, x)] }
    mem := { MemState.reset with cells := [(0x100, 0x53), (0x101, 0x45), (0x102, 0x44), (0x103, 0x43), (0x108, 1), (0x10e, 1), (0x131, 2), (0x204, 1), (0x20c, 3), (0x20e, 1)] } }
    [(tickStatusBankEmpty, 0), (tickStatusLock, 2), (memPartCfgEnable 0, 1), (memPartRangeFrames 0, 1)]
/-- A node in the tick lock with one SCHEDULED plan slot of a class, unit 0, its descriptor at 0x100. -/
def slotWit (cls : Nat) : State :=
  wst { State.reset with tick := { TickState.reset with banks := Tab.set 0 [(6, 1), (81, 1)] 66 (32 * cls), slots := [(0, .sched)] } }
    [(tickStatusBankEmpty, 0), (tickStatusLock, 2), (memPartCfgEnable 0, 1), (memPartRangeFrames 0, 1)]
/-- Bytes of memory placed over a state. -/
def memWit (a : Nat) (bs : List Byte) (s : State) : State := bs.zipIdx.foldl (fun t p => tierPut (a + p.2) p.1 t) s
/-- A stream batch descriptor: TILE 0, DEPTH 2, WDEPTH 2, one instruction at 0x400, and a context that runs such a batch. -/
def strBatch : List Byte := [0x42, 0x52, 0x54, 0x53, 0, 2, 2] ++ List.replicate 10 0 ++ [4] ++ List.replicate 6 0 ++ [1] ++ List.replicate 71 0
def strDesc : List Byte := [0x42, 0x52, 0x54, 0x53, 0, 2, 0] ++ List.replicate 10 0 ++ [4] ++ List.replicate 6 0 ++ [1] ++ List.replicate 71 0 ++ List.replicate 672 0 ++ [31]
def strWit (c w : Nat) : State :=
  wst { State.reset with str := { StrState.reset with ctx := [(c, { ctxEmpty with desc := strBatch, active := true })] } }
    [(strStatState c, 1), (strProgInsn c 0, w), (memPartCfgEnable 0, 1), (memPartRangeFrames 0, 1)]
def lookWit (c w : Nat) : State := (strWit c w).onCtx c (fun x => { x with desc := x.desc.set 7 2 })
/-- An engine in COMPUTE of a batch of one quad whose program is one instruction, at entry 0. -/
def engWit (e w : Nat) : State :=
  wst { State.reset with upe := [(e, { engEmpty with desc := List.replicate 8 0 ++ [1] ++ List.replicate 247 0, active := true, len := 1 })] }
    [(upeStatState e, 3), (upeRuleInsn e 0, w)]
/-- A pool of one sequence of one span in walker mode (its structures at 0x1000 to 0x3000 of frame 0), a request, and a
window of the pool that has accepted it. -/
def kvPool : List Byte :=
  leBytes 4 0x4B56504C ++ [1, 0, 1, 1] ++ leBytes 2 64 ++ leBytes 2 0 ++ [1, 9, 6, 0] ++ leBytes 4 0 ++ leBytes 4 2 ++ leBytes 4 1 ++
    leBytes 4 1 ++ leBytes 4 8 ++ leBytes 4 0 ++ leBytes 8 0x10000 ++ leBytes 8 0x1000 ++ leBytes 8 0x1100 ++ leBytes 8 0x1200 ++
    leBytes 8 0x1300 ++ leBytes 8 0x1400 ++ leBytes 8 0x1500 ++ leBytes 16 0 ++ leBytes 8 0x2000 ++ leBytes 8 0x3000 ++ leBytes 2 16 ++
    List.replicate 126 0
def kvAsk (op layer first : Nat) : List Byte :=
  leBytes 1 op ++ [0] ++ leBytes 2 layer ++ leBytes 4 0 ++ leBytes 4 first ++ leBytes 4 1 ++ List.replicate 48 0
def kvReq (op : Nat) : List Byte := kvAsk op 0 0
def kvWin : KvWin := ⟨0, 2, 2, false, 4, false, []⟩
def kvMem (opened : Bool) (s : State) : State :=
  memWit 0x1000 ([BitVec.ofNat 8 (b2n opened), 0, 0, 0, 1] ++ List.replicate 11 0 ++ [1])
    (memWit 0x1020 ([1, 0, 0, 0, 1]) (memWit 0x1100 (leBytes 4 0x80000000)
    (memWit 0x1200 [1] (memWit 0x1300 (leBytes 4 1 ++ leBytes 4 2 ++ leBytes 4 3) (memWit 0x1400 (leBytes 4 1 ++ leBytes 4 1 ++ leBytes 4 1) s)))))
def kvState (w : Option KvWin) : State :=
  wst { State.reset with kvs := { KvState.reset with pools := [(0, kvPool)], wins := [(0, w)] } }
    [(kvsStatusLoaded, 1), (memPartCfgEnable 0, 1), (memPartRangeFrames 0, 1)]
def kvAskWit (op layer first : Nat) : State := kvMem (op != 1 && op != 5) (kvState (some { kvWin with queue := [kvAsk op layer first] }))
def kvWit (op : Nat) : State := kvAskWit op 0 0
def samples (n : Nat) : List (Fin 16) := (List.range n).map (fun i => Fin.ofNat 16 (i * 7))
/-- A pool descriptor at 0x4000 and a window descriptor at 0x100 of a plan slot of class 5. -/
def poolWit : State := memWit 0x4000 kvPool (wst State.reset [(memPartCfgEnable 0, 1), (memPartRangeFrames 0, 1), (kvsPoolDescAddr 0, 0x4000)])
def windowWit : State :=
  memWit 0x100 (leBytes 4 0x4B565357 ++ leBytes 8 1 ++ [0, 1]) (wst { slotWit 5 with kvs := { KvState.reset with pools := [(0, kvPool)] } } [(kvsStatusLoaded, 1)])
/-- A running repeat slot and a working copy to be written anew. -/
def deriveWit : State :=
  wst { calWit .running with
    tick := { (calWit .running).tick with banks := [(6, 1), (81, 1), (88, 3)] }
    mem := { (calWit .running).mem with cells := Tab.set 0 (calWit .running).mem.cells 0x10a 2, poison := [(0x4000, true)] }
    cal := { CalState.reset with derive := [0], descs := [(0, [0, 0, 0, 0, 5] ++ List.replicate 11 0 ++ List.replicate 40 0xFF)], segs := [(0, [0, 0, 0, 0, 1, 0, 0, 0, 0, 0, 0, 0, 2, 0, 0, 0])] }
    upe := [(0, { engEmpty with derive_ := some ⟨0x5000, 0x6000, 0x4000, 1, 0, 0, 0, 1, 0⟩ })] } [(upeStatDeriveValid 0, 1)]
/-- Saved engine state at 0, and a log of both halves with every entry used. -/
def engSaved : State := memWit 0 (leBytes 4 0x55504358) (wst State.reset [(memPartCfgEnable 0, 1), (memPartRangeFrames 0, 1)])
def testing : State := { State.reset with rng := { RngState.reset with testing := true } }
def noisy : State := wst State.reset [(rngCtlSourceEn, 1), (rngStatusReady, 1)]
/-- A node past its start-up whose ID block answers the host. -/
def upWit : State :=
  wst { State.reset with rst := { RstState.reset with held := false }, host := { HostState.reset with answers := true } }
    [(idBootStatWindow, 0), (idBootStatPhase, 5)]

/-! ## Ill-formed commands, one for each check -/

theorem test_illformed_registerWrite_offset : wellFormed (.registerWrite (2 ^ 28) ⟨[0], []⟩) = false := by decide
theorem test_illformed_registerWrite_empty : wellFormed (.registerWrite 0 ⟨[], []⟩) = false := by decide
theorem test_illformed_registerWrite_long : wellFormed (.registerWrite 0 ⟨List.replicate 513 0, []⟩) = false := by decide +kernel
theorem test_illformed_rcRead : wellFormed (.rcRead 0 0 []) = false ∧ wellFormed (.rcRead 0 4097 []) = false ∧
    wellFormed (.rcRead (2 ^ 28) 4 []) = false := by decide
theorem test_illformed_latchedLowWordRead : wellFormed (.latchedLowWordRead 2) = false ∧ wellFormed (.latchedLowWordRead (2 ^ 28)) = false := by decide
theorem test_illformed_tickEdge : wellFormed (.tickEdge []) = false ∧ wellFormed (.telemetryInterval []) = false := by decide
theorem test_illformed_messages : wellFormed (.beaconReceive 0 [] 0 0 false) = false ∧ wellFormed (.holdRequest 0 [] 0) = false ∧
    wellFormed (.lateNotice 0 [] 0) = false ∧ wellFormed (.holdGrant 0 [] 0 0) = false ∧ wellFormed (.verdictAccept 0 [] 0 0) = false := by decide
theorem test_illformed_message_long : isMessage (List.replicate 241 0) = false := by decide +kernel
theorem test_illformed_planBankWrite : wellFormed (.planBankWrite 0 65536 [0, 0, 0, 0]) = false ∧ wellFormed (.planBankWrite 0 2 [0, 0, 0, 0]) = false ∧
    wellFormed (.planBankWrite 0 0 [0]) = false ∧ wellFormed (.planBankWrite 0 0 []) = false := by decide
theorem test_illformed_packets : wellFormed (.vc0Packet 0 [] 0) = false ∧ wellFormed (.packetForward none []) = false ∧
    wellFormed (.read 0 []) = false ∧ wellFormed (.write 0 []) = false ∧ wellFormed (.atomicAdd 0 []) = false ∧ wellFormed (.fetchAdd 0 []) = false ∧
    wellFormed (.readData 0 []) = false ∧ wellFormed (.writeAck 0 []) = false ∧ wellFormed (.atomicAck 0 []) = false := by decide
theorem test_illformed_messages_of_members : wellFormed (.neighbourNotice []) = false ∧ wellFormed (.joinAnnounce 0 []) = false ∧
    wellFormed (.joinAccept []) = false ∧ wellFormed (.joinRefuse []) = false ∧ wellFormed (.detach []) = false ∧ wellFormed (.detachDone []) = false ∧
    wellFormed (.bcast 0 []) = false ∧ wellFormed (.planSeg []) = false ∧ wellFormed (.pushDone []) = false ∧
    wellFormed (.telemetry []) = false := by decide
theorem test_illformed_packet_length : isPacket (List.replicate 17 0) = false := by decide
theorem test_illformed_codewords : wellFormed (.verifyEnd 0 false 2 1 false 0) = false ∧ wellFormed (.degradedWindow 0 2 1) = false := by decide
theorem test_illformed_flitReceive : wellFormed (.flitReceive 0 [] [] 0) = false := by decide
theorem test_illformed_flit_codeword : wellFormed (.flitReceive 0 (List.replicate 256 0) [(8, none)] 0) = false := by decide +kernel
theorem test_illformed_samples : wellFormed (.startupTestDone []) = false ∧ wellFormed (.noiseBlock []) = false := by decide
theorem test_illformed_stores : wellFormed (.rdX 0 0 0 127 [0, 0]) = false ∧ wellFormed (.upg 0 0 0 127 [0, 0]) = false := by decide
theorem test_illformed_flashBuf : wellFormed (.flashBuf 0 [0] false false) = false := by decide
theorem test_illformed_hostLinkUp : wellFormed (.hostLinkUp 0 1) = false ∧ wellFormed (.hostLinkUp 6 1) = false ∧ wellFormed (.hostLinkUp 5 3) = false := by decide

/-! ## The spec's worked cases -/

/-- Worked case "placing Harrow's state" of chapter 05, the HASH partition (R181). -/
theorem test_hash_worked_case : hashHbm 0x345678900 = ⟨0, 0xA8, 9, 0xD15, 768⟩ := by decide
/-- The same worked case, the CONTIG partition over frames 32 to 95 (R183): stack 2, pseudo-channel 19. -/
theorem test_contig_worked_case : contigHbm 32 64 0xD00004C00 = ⟨0, 2 * 32 + 19, 0, 16384, 0⟩ := by decide
/-- R181 read backwards gives the address of the worked case. -/
theorem test_unhash_worked_case : unhashHbm 0xA8 9 0xD15 768 = 0x345678900 := by decide
/-- Worked case "a failing row" of chapter 06: the bytes of the log entry before its CRC (R225). -/
theorem test_log_entry_worked_case : (logBytes ⟨5 * 32 + 8, 9 * 65536 + 3349, 4, 1, 1, 0, 41877020⟩ 0x113).take 28 =
    [0x47, 0x4C, 0xFE, 1, 0x1C, 0xFE, 0x7E, 2, 0, 0, 0, 0, 5, 8, 9, 0, 0x15, 0x0D, 0, 0, 4, 0, 1, 0, 0x13, 1, 0, 0] := by decide +kernel
/-- The example of R251: an AND on 16 banks counts 48 activations, on 2 banks 6. -/
theorem test_row_activations_example : rlActs 3 * 16 = 48 ∧ rlActs 3 * 2 = 6 := by decide
/-- Worked case "two orders, identical bits" of chapter 04: the C48 contributions of window exponent 127. -/
theorem test_c48_worked_case : quantise 48 11 127 0x3F800000 = 0x400000000 ∧ quantise 48 11 127 0x33800000 = 0x400 ∧
    quantise 48 11 127 0xBF000000 = 0xFFFE00000000 := by decide +kernel
/-- The same worked case in FLOAT mode, plan P and plan Q. -/
theorem test_float_orders_worked_case :
    f32Add (f32Add 0x3F800000 0xBF000000) (f32Add 0x33800000 0x33800000) = 0x3F000002 ∧
    f32Add (f32Add (f32Add 0x3F800000 0x33800000) 0x33800000) 0xBF000000 = 0x3F000000 := by decide +kernel
/-- Worked case "a small step on a master of 1.0" of chapter 09: EMADD of 1.0 × −2^−30, EMRND, SRBF on either side of 0x400. -/
theorem test_emadd_worked_case : toEm48 ((ofEm48 0x3F800000 0).add ((ofF32 0x3F800000).mul (ofF32 0xB0800000))) = (0x3F7FFFFF, 0xFC00) := by
  decide +kernel
theorem test_emrnd_worked_case : emRound 0x3F7FFFFF 0xFC00 = 0x3F800000 := by decide +kernel
theorem test_srbf_worked_case : srbf 0x3F7FFFFF 0xFC00 0x400 = 0x3F800000 ∧ srbf 0x3F7FFFFF 0xFC00 0x3FF = 0x3F7F0000 := by decide +kernel
theorem test_counter_worked_case : counterOf 9000 126877696 0 5000000 = 1141904264000 := by decide +kernel
/-- Worked case "reaching one register three ways" of chapter 20. -/
theorem test_register_offsets_worked_case : (upeRuleInsn 37 100).reg = 0x1251190 ∧ (strStatState 300).reg = 0xD4B004 := by decide
/-- Worked case "a KV spill partition" of chapter 05: the cap of a bucket of 4,096 KiB (R185). -/
theorem test_bucket_worked_case : bucketCap (wst State.reset [(memPartBurstKib 2, 4096)]) 2 = 4194304 * 8 := by decide

/-! ## Values worked by hand from a rule -/

/-- A draw of R412 with taps 0x8000_0000_0000_000D from state 1, by its loop. -/
theorem test_lfsr_draw : lfsrDraw 0x800000000000000D 1 = (3340530119, 14347467612407988235) := by decide +kernel
/-- R415: a state of 0 stays 0 and draws 0. -/
theorem test_lfsr_zero : lfsrDraw 0x800000000000000D 0 = (0, 0) := by decide +kernel
/-- The check value of CRC-32C over "123456789". -/
theorem test_crc32c : crc32c [0x31, 0x32, 0x33, 0x34, 0x35, 0x36, 0x37, 0x38, 0x39] = 0xE3069283 := by decide +kernel
/-- R469 at power-on with the switch on and PRES seated: POWER steady. -/
theorem test_lights_at_reset : State.reset.lights = ⟨1, 0, 0⟩ := by decide
/-- R2 and the reset value of ID_PART: the low word. -/
theorem test_part_read : barRead 0x10 4 upWit = (some 0x2D524453, { upWit with host := { upWit.host with latch := [(0x10, 0x314E)] } }) := by
  decide +kernel
/-- R2: of two events, the one written 1 clears. -/
theorem test_w1c : ((barWrite 3 0x100058 [1, 0, 0, 0] (wst upWit [(tickEvtLockLost, 1), (tickEvtLate, 1)])).regs.map Prod.fst).contains
    tickEvtLate.key = true := by decide +kernel
/-- R617: nothing is assigned at BAR0 offset 0x30_0000. -/
theorem test_unassigned_read : (barRead 0x300000 4 upWit).1 = some 0 := by decide

/-! ## Witnesses of the statements of rules and frames -/

theorem linesWhole_of_no_lines (s : State) (h : s.mem.lines = []) : LinesWhole s := by
  have hc : ∀ line, cached s line = none := by intro line; simp [cached, h, noLine, Tab.get]
  refine ⟨fun line l hl => ?_, fun line d hd => ?_⟩
  · rw [hc] at hl; cases hl
  · simp [dirtyCopy, hc] at hd

theorem witness_StepIdles : State.reset.pending = [] := rfl
theorem witness_LightsFollowState : Lit State.reset := by unfold Lit; decide
theorem witness_CommandsKeepQueue : exec .disarm State.reset = .next (settle (disarm State.reset)) := rfl
theorem witness_MemoryStaysCanonical :
    Memory.wf State.reset.mem.cells = true ∧ step State.reset = .next (settle (coreCycle State.reset)) := ⟨rfl, rfl⟩

/-- A node with frame 0 in an enabled partition. -/
def frameWit : State := wst State.reset [(memPartCfgEnable 0, 1), (memPartRangeFrames 0, 1)]
theorem witness_CoherentWriteReadsBack : LinesWhole frameWit ∧ ∀ i < [(7 : Byte)].length, refusal frameWit (0x40 + i) = 0 :=
  ⟨linesWhole_of_no_lines _ rfl, by decide⟩
theorem witness_RefusedWriteStoresNothing : LinesWhole State.reset ∧ ∀ i < [(7 : Byte)].length, refusal State.reset (0x40 + i) ≠ 0 :=
  ⟨linesWhole_of_no_lines _ rfl, by decide⟩

/-- A member whose memory window is open, and a remote write of 16 bytes for it. -/
def memberWit : State :=
  (wst State.reset [(fabNodeIdValid, 1), (fabStatusJoin, 3), (fabRemoteCtlMemEn, 1), (memPartCfgEnable 0, 1),
    (memPartRangeFrames 0, 1)]).onFab (fun f => { f with windows := 15 })
def writePkt : List Byte := mkPkt 0 1 5 0 2 1 0 9 0 (List.replicate 16 7)
theorem witness_RemoteWriteStores : LinesWhole memberWit ∧ forUs memberWit writePkt = true ∧ pktOp writePkt = 2 ∧
    requestStatus (take 3 writePkt memberWit) writePkt = 0 ∧ pktRegion writePkt = 0 ∧ pktHint writePkt = 0 ∧
    servedRange (take 3 writePkt memberWit) (pktOff writePkt) (16 * pktLen writePkt) = true ∧
    (take 3 writePkt memberWit).rlg.cover = [] ∧ (take 3 writePkt memberWit).care.latent = [] ∧
    (take 3 writePkt memberWit).care.due = [] ∧ ∀ i < 16 * pktLen writePkt, let u := take 3 writePkt memberWit
      lineQuiet u ((pktOff writePkt + i) / 128) = true ∧ channelServes u (pktOff writePkt + i) = true :=
  ⟨linesWhole_of_no_lines _ rfl, by decide +kernel⟩

theorem witness_OneFenceAtATime_busy : (wst State.reset [(cohFenceBusy, 1)]).flag cohFenceBusy = true := by decide
theorem witness_OneFenceAtATime_write : let s := wst upWit [(cohFenceBusy, 1)]
    barReach s = true ∧ regOpen s 0x1700004 = true ∧ s.rst.held = false ∧ s.flag cohFenceBusy = true ∧ 3 < 2 ^ 32 ∧ bitOf 3 0 = true := by decide
theorem witness_OneFenceAtATime_engine : let s := { wst State.reset [(cohFenceBusy, 1)] with coh := { CohState.reset with fenceEngines := 5 } }
    s.flag cohFenceBusy = true ∧ s.get cohFenceKind < 2 ∧
      ∀ e ∈ enginesOf s.coh.fenceEngines, (s.l1 e).wb = [] ∧ s.get (upeStatState e) ≠ 3 := by decide
theorem witness_OneFenceAtATime_fabric : let s := wst State.reset [(cohFenceBusy, 1), (cohFenceKind, 2)]
    s.flag cohFenceBusy = true ∧ s.get cohFenceKind = 2 ∧ ∀ r ∈ s.fab.reqs, r.fenced = false := by decide
theorem witness_UnmatchedResponses_open : snoopOf State.reset (2 : Fin 32).val (1 : Fin 64).val = none ∧
    lineQueued State.reset (5 : BitVec 41).toNat = false := by decide
theorem witness_UnmatchedResponses_stale :
    let s : State := { State.reset with coh := { CohState.reset with net := [⟨.rspGone, 3, 2, 1, 5, [], 0⟩], snoops := [⟨2, 1, 3, 5, true, 0⟩] } }
    snoopOf s (2 : Fin 32).val (1 : Fin 64).val = some ⟨2, 1, 3, 5, true, 0⟩ ∧
      nextMsg s .rspGone (3 : Fin 64).val (2 : Fin 32).val (1 : Fin 64).val (5 : BitVec 41).toNat = some ⟨.rspGone, 3, 2, 1, 5, [], 0⟩ := by decide
theorem witness_UnassignedOffsets_open : barReach upWit = true ∧ windowOf 0x300000 = none ∧ (regAt 0x300000).isNone = true ∧
    regOpen upWit 0x300000 = true := by decide
theorem witness_UnassignedOffsets_shut : let s := wst upWit [(idBootStatWindow, 1)]
    barReach s = true ∧ windowOf 0x300000 = none ∧ (regAt 0x300000).isNone = true ∧ regOpen s 0x300000 = false := by decide
theorem witness_HighWordLatched : regAt 0x10 = some ⟨0x10, 8, [idPartCode]⟩ ∧ regAt 0x14 = some ⟨0x10, 8, [idPartCode]⟩ ∧
    windowOf 0x10 = none ∧ windowOf 0x14 = none ∧ latches ⟨0x10, 8, [idPartCode]⟩ = true ∧ barReach upWit = true ∧
    regOpen upWit 0x10 = true ∧ regOpen upWit 0x14 = true := ⟨rfl, rfl, by decide⟩
theorem witness_MalformedRequests : barReach upWit = true ∧ regOpen upWit 0x38 = true ∧
    (¬ (4 ≤ [(0 : Byte)].length ∧ [(0 : Byte)].length ≤ 128 ∧ [(0 : Byte)].length % 4 = 0 ∧ 0x38 % 4 = 0)) ∧
    (¬ ((16 = 4 ∨ 16 = 8) ∧ 0x38 % 16 = 0) ∧ ¬ (1 ≤ 16 ∧ 16 ≤ 3 ∧ 0x38 % 4 + 16 ≤ 4)) := by decide
theorem witness_AccessCodesAct : barReach upWit = true ∧ upWit.rst.held = false ∧ regOpen upWit 0x100058 = true ∧
    regOpen upWit 0x1900000 = true := by decide
theorem witness_ResetNeedsKey : barReach upWit = true ∧ regOpen upWit 0x1900000 = true ∧ upWit.rst.held = false ∧
    bits 1 16 16 ≠ 0x5253 ∧ bits 0x52530003 0 3 ∉ [1, 2, 4] := by decide
theorem witness_RuleInstructionsFrame : exec (.ruleNop 3) (engWit 3 0) = .next (settle (ruleStep 0 3 (ruleNopBeat 3) (engWit 3 0))) := rfl
theorem witness_StreamInstructionsFrame : ((strWit 9 0).ctx 9).refused = none ∧ (∀ p ∈ (strWit 9 0).str.ctx, p.1 < 512) ∧
    exec (.streamNop 9) (strWit 9 0) = .next (settle (strStep 0 9 (fun _ t => strNext 9 t) (strWit 9 0))) := ⟨by decide, by decide, rfl⟩
theorem witness_SnoopsFrame : exec (.snpShare 3 2 1 5) State.reset = .next (settle (receiveSnoop .snpShare 3 2 1 5 State.reset)) ∧
    storeBad State.reset (2 + 3) (5 : BitVec 41).toNat = 0 := ⟨rfl, rfl⟩
theorem witness_HostLinkFrame : exec .d3hot upWit = .next (settle (upWit.onHost (fun h => { h with d3 := true }))) ∧
    exec .linkDown (wst upWit [(hstStatusUp, 1)]) = .next (settle (linkLost (wst upWit [(hstStatusUp, 1)]))) := ⟨rfl, rfl⟩
theorem witness_RcReadMeetsUpdate : regAt 0x1700014 = some ⟨0x1700014, 4, [cohNcHitCount]⟩ ∧ windowOf 0x1700014 = none ∧
    barReach upWit = true ∧ regOpen upWit 0x1700014 = true ∧
    [cohNcHitCount].filter (fun g => g.acc == .rc && g != rngSeedWord) = [cohNcHitCount] ∧ ([cohNcHitCount].map Fld.key).Nodup ∧
    [7].length = [cohNcHitCount].length ∧ ∀ f ∈ [cohNcHitCount], f.lsb < 8 * 4 ∧ 0 < f.width := ⟨rfl, by decide⟩

theorem witness_DisarmUntilCommitted : State.reset.flag tickSwitchCtlCommitted = false ∧
    (wst State.reset [(tickSwitchCtlCommitted, 1)]).flag tickSwitchCtlCommitted = true := by decide
theorem witness_TierUntouched : storesNothing .disarm = true ∧ exec .disarm State.reset = .next (settle (disarm State.reset)) := ⟨rfl, rfl⟩

/-! ### A log of both halves with every entry used -/

theorem get_of_listed (f : Nat → Nat) (v : Byte) (d : Byte) (j : Nat) :
    ∀ l : List Nat, (∃ i ∈ l, f i = j) → Tab.get d (l.map (fun i => (f i, v))) j = v
  | [], h => by obtain ⟨_, h, _⟩ := h; cases h
  | a :: l, h => by
    simp only [List.map_cons, Tab.get]
    split
    · rfl
    · obtain ⟨i, hi, he⟩ := h
      rcases List.mem_cons.mp hi with rfl | hi
      · contradiction
      · exact get_of_listed f v d j l ⟨i, hi, he⟩
def logUsed (l : List Nat) : State := { wst State.reset [(idBootStatPhase, 5)] with flash := l.map (fun i => (logBase + 32 * i, 0)) }
theorem log_entry_used (l : List Nat) (hl : ∀ i < 32768, i ∈ l) (half i : Nat) (h : half < 2) (hi : i < 16384) :
    (logEntry (logUsed l) half i).all (fun b => b == 0xFF) = false := by
  have : flashByte (logUsed l) (logBase + half * logHalf + 32 * i) = 0 := by
    refine get_of_listed _ _ _ _ l ⟨half * 16384 + i, hl _ (by omega), ?_⟩
    unfold logHalf; omega
  rw [List.all_eq_false]
  refine ⟨0, ?_, by decide⟩
  unfold logEntry flashBytes
  exact List.mem_map.mpr ⟨0, by simp, this⟩
theorem log_no_free (l : List Nat) (hl : ∀ i < 32768, i ∈ l) (half : Nat) (h : half < 2) :
    ∀ n i, i + n ≤ 16384 → logFreeFrom (logUsed l) half n i = none
  | 0, _, _ => rfl
  | n + 1, i, hi => by
    unfold logFreeFrom
    rw [log_entry_used l hl half i h (by omega)]
    exact log_no_free l hl half h n (i + 1) (by omega)
theorem log_full (l : List Nat) (hl : ∀ i < 32768, i ∈ l) :
    isReady (logUsed l) = true ∧ logFreeFrom (logUsed l) (logActive (logUsed l)) 16384 0 = none := by
  refine ⟨by show isReady (wst State.reset [(idBootStatPhase, 5)]) = true; decide, log_no_free l hl _ ?_ _ _ (by omega)⟩
  unfold logActive
  dsimp only
  split <;> omega
theorem witness_MemoryCareCompletes_log : isReady (logUsed (List.range 32768)) = true ∧
    logFreeFrom (logUsed (List.range 32768)) (logActive (logUsed (List.range 32768))) 16384 0 = none :=
  log_full _ (fun _ h => List.mem_range.mpr h)

/-- A stack whose batch has one command, of opcode `op`, for bank 0 of pseudo-channel 0. -/
def rowWit (op : Nat) : State :=
  { State.reset with rlg := { RlgState.reset with batches := [(2, some ⟨0, [leBytes 16 op], [(1, 1)], 0, false, true, 0⟩)] } }
theorem witness_RowCommandsFrame : RowNext 2 (rowWit 1) ⟨0, [leBytes 16 1], [(1, 1)], 0, false, true, 0⟩ (leBytes 16 1) ∧
    (rowWit 1).get telFaultRingCtlEntries = 0 ∧ (∀ op, (rowWit op).care.latent = [] ∧ (rowWit op).care.due = []) ∧ RowNext 2 (rowWit 0) ⟨0, [leBytes 16 0], [(1, 1)], 0, false, true, 0⟩ (leBytes 16 0) ∧
    (rowWit 0).get telFaultRingCtlEntries = 0 := ⟨by decide, by decide, fun _ => ⟨rfl, rfl⟩, by decide, by decide⟩
theorem witness_FaultRecordBuffered : (FltClass.late = .late ∨ FltClass.late = .step ∨ FltClass.late = .thermal ∨ FltClass.late = .link) ∧
    State.reset.get telFaultRingCtlEntries = 0 := ⟨.inl rfl, by decide⟩

/-! ## Witnesses of the completion statements, by clause and command -/

theorem witness_TickBeaconsComplete_2_beaconMiss : let s := wst State.reset [(tickStatusLock, 2)]; s.flag tickStatusTk = false ∧ s.get tickStatusLock = 2 ∧ s.tick.seen ≤ s.get tickCountCount ∧ s.get idClkStatSource = 0 := by decide
theorem witness_HoldsComplete_8_disarm : let s := State.reset; s.flag tickSwitchCtlCommitted = false := by decide
theorem witness_NegotiationCompletes_0_signalDetect : let s := wst State.reset [(elvStatState 3, 1)]; s.get (elvStatState 3) = 1 := by decide
theorem witness_NegotiationCompletes_4_trainingDone : let s := wst State.reset [(elvStatState 3, 3)]; s.get (elvStatState 3) = 3 := by decide
theorem witness_NegotiationCompletes_5_trainTimeout : let s := wst State.reset [(elvStatState 3, 3)]; s.get (elvStatState 3) = 3 := by decide
theorem witness_NegotiationCompletes_6_alignTimeout : let s := wst State.reset [(elvStatState 3, 4)]; s.get (elvStatState 3) = 4 := by decide
theorem witness_NegotiationCompletes_11_measureTimeout : let s := wst State.reset [(elvStatState 3, 5)]; s.get (elvStatState 3) = 5 := by decide
theorem witness_NegotiationCompletes_12_verifyEnd : let s := wst State.reset [(elvStatState 3, 6)]; s.get (elvStatState 3) = 6 ∧ fecOn s 3 (s.port 3).partnerProp = true ∧ 1 * 65536 ≤ 65536 := by decide
theorem witness_NegotiationCompletes_13_downBackoff : let s := wst State.reset [(elvStatState 3, 10), (elvCfgEnable 3, 1)]; s.get (elvStatState 3) = 10 ∧ s.flag (elvCfgEnable 3) = true ∧ s.get fumStatusState ≠ 3 := by decide
theorem witness_NegotiationCompletes_14_portEnable : let s := State.reset; s.get (elvStatState 3) = 0 ∧ s.get fumStatusState ≠ 3 := by decide
theorem witness_LinkTrafficCompletes_5_episodeWindowClose : let s := (wst State.reset [(elvStatState 3, 7)]).onPort 3 (fun q => { q with epOpen := true, epOutD := 1 }); (s.port 3).epOpen = true ∧ ((s.port 3).epOutD ≠ 0 ∨ (s.port 3).epOutC ≠ 0) := by decide
theorem witness_LinkTrafficCompletes_6_episodeWindowClose : let s := (wst State.reset [(elvStatState 3, 7)]).onPort 3 (fun q => { q with epOpen := true }); (s.port 3).epOpen = true ∧ (s.port 3).epOutD = 0 ∧ (s.port 3).epOutC = 0 := by decide
theorem witness_LinkTrafficCompletes_8_retrainTimeout : let s := wst State.reset [(elvStatState 3, 8)]; s.get (elvStatState 3) = 8 := by decide
theorem witness_LinkTrafficCompletes_9_degradedWindow : 4095 < 1 * 4096 := by decide
theorem witness_LinkTrafficCompletes_10_retrain : let s := wst State.reset [(elvStatState 3, 7)]; s.get (elvStatState 3) = 7 := by decide
theorem witness_LinkTrafficCompletes_12_renegotiate : let s := wst State.reset [(elvStatState 3, 7), (elvCfgEnable 3, 1)]; s.get (elvStatState 3) ≠ 0 ∧ s.get (elvStatState 3) ≠ 10 ∧ (portDown 3 9 s).flag (elvCfgEnable 3) = true := by decide
theorem witness_LinkTrafficCompletes_13_lpRequest : let u := consumeCtrl 3 0x12 [] (wst State.reset [(elvStatState 3, 7)]); portUp u 3 = true ∧ (u.port 3).epOpen = false := by decide
theorem witness_LinkTrafficCompletes_14_lpAcknowledge : let u := consumeCtrl 3 0x13 [] (wst State.reset [(elvStatState 3, 7)]); portUp u 3 = true := by decide
theorem witness_LinkTrafficCompletes_15_lpExit : let u := consumeCtrl 3 0x14 [] (wst State.reset [(elvStatState 3, 9)]); u.get (elvStatState 3) = 9 := by decide
theorem witness_LinkTrafficCompletes_16_quit : let u := consumeCtrl 3 0x15 [8] (wst State.reset [(elvStatState 3, 7)]); u.get (elvStatState 3) ≠ 0 ∧ u.get (elvStatState 3) ≠ 10 := by decide
theorem witness_FabricPacketsComplete_0_packetForward : let s := wst State.reset [(fabNodeIdValid, 1)]; let pkt := mkPkt 5 1 7 0 1 1 0 9 0 []; fabricOn s = true ∧ pktVc pkt ≠ 0 ∧ pktOp pkt ≠ 0x47 := by decide
theorem witness_FabricPacketsComplete_1_packetForward : let s := wst State.reset [(fabNodeIdValid, 1)]; let pkt := mkPkt 5 1 0 0 1 1 0 9 0 []; fabricOn s = true ∧ pktVc pkt ≠ 0 ∧ isRequest (pktOp pkt) = true ∧ s.fab.reqs.length < 1024 ∧ tagFree s (pktTag pkt) = true := by decide
theorem witness_FabricPacketsComplete_5_requestTimeout : let s := State.reset.onFab (fun f => { f with reqs := [⟨9, 4, 5, 0, 3, 0, false⟩] }); s.fab.reqs.find? (fun x => x.tag == (9 : BitVec 16).toNat) = some ⟨9, 4, 5, 0, 3, 0, false⟩ ∧ (⟨9, 4, 5, 0, 3, 0, false⟩ : RemReq).fenced = false := by decide
theorem witness_FabricPacketsComplete_6_neighbourNotice : let s := wst State.reset [(fabNodeIdValid, 1)]; forUs s (mkPkt 0 3 5 0 0x40 0 0 0 0 []) = true ∧ pktOp (mkPkt 0 3 5 0 0x40 0 0 0 0 []) = 0x40 := by decide
theorem witness_FabricPacketsComplete_7_detachDone : let s := wst State.reset [(fabNodeIdValid, 1)]; forUs s (mkPkt 0 3 5 0 0x45 0 0 0 0 []) = true ∧ pktOp (mkPkt 0 3 5 0 0x45 0 0 0 0 []) = 0x45 := by decide
theorem witness_FabricPacketsComplete_8_pushDone : let s := wst State.reset [(fabNodeIdValid, 1)]; forUs s (mkPkt 0 3 5 0 0x48 0 0 0 0 []) = true ∧ pktOp (mkPkt 0 3 5 0 0x48 0 0 0 0 []) = 0x48 := by decide
theorem witness_FabricPacketsComplete_9_telemetry : let s := wst State.reset [(fabNodeIdValid, 1)]; forUs s (mkPkt 0 3 5 0 0x49 0 0 0 0 []) = true ∧ pktOp (mkPkt 0 3 5 0 0x49 0 0 0 0 []) = 0x49 := by decide
theorem witness_MembershipCompletes_0_joinAnnounce : let s := wst State.reset [(fabNodeIdValid, 1), (fabStatusJoin, 3), (elvPartnerNode 3, 5)]; let pkt := mkPkt 0 3 5 0 0x41 0 0 0 0 []; forUs s pkt = true ∧ pktOp pkt = 0x41 ∧ pktSrc pkt = s.get (elvPartnerNode 3) ∧ (take 3 pkt s).get fabStatusJoin = 3 := by decide
theorem witness_MembershipCompletes_1_joinAnnounceRepeat : let s := (wst State.reset [(fabNodeIdValid, 1), (fabStatusJoin, 1), (tickStatusLock, 2)]).onFab (fun f => { f with sinceAnnounce := 1000 }); s.get fabStatusJoin = 1 ∧ s.get tickStatusLock = 2 ∧ 1000 ≤ s.fab.sinceAnnounce ∧ fabricOn s = true := by decide
theorem witness_MembershipCompletes_4_detach : let s := wst State.reset [(fabNodeIdValid, 1), (fabAdminNodeNode, 5)]; let pkt := mkPkt 0 3 5 0 0x44 1 0 0 0 (List.replicate 16 1); forUs s pkt = true ∧ pktOp pkt = 0x44 ∧ pktSrc pkt = (consumeAny pkt s).get fabAdminNodeNode := by decide
theorem witness_MembershipCompletes_5_detachRequestsDrained : let s := State.reset.onFab (fun f => { f with detaching := true }); s.fab.detaching = true ∧ s.fab.reqs = [] := by decide
theorem witness_MembershipCompletes_6_fabricReset : let s := wst State.reset [(fabNodeIdValid, 1), (tickTkNode, 5), (fabRemoteCtlFrstEn, 1), (idBootStatPhase, 5)]; let pkt := mkPkt 0 3 5 0 0x46 0 0 0 0 []; let u := consumeAny pkt s; forUs s pkt = true ∧ pktOp pkt = 0x46 ∧ pktSrc pkt = u.get tickTkNode ∧ u.flag fabRemoteCtlFrstEn = true ∧ isReady u = true := by decide
theorem witness_MembershipCompletes_7_frstGo : let s := wst State.reset [(tickStatusTk, 1)]; (s.set fabFrstCmdTarget 5).flag tickStatusTk = true := by decide
theorem witness_MembershipCompletes_8_bcast : let s := wst State.reset [(fabNodeIdValid, 1)]; fabricOn s = true ∧ pktOp (mkPkt 0 3 5 0 0x47 0 0 0 0 []) = 0x47 := by decide
theorem witness_RemoteServiceCompletes_4_claimAck : let s := wst State.reset [(telClaimState 3, 3), (telClaimId 3, 9)]; (9 : BitVec 16).toNat = s.get (telClaimId 3) ∧ 2 ≤ s.get (telClaimState 3) := by decide
theorem witness_RemoteServiceCompletes_5_coalesceExpiry : firstExpiring [⟨1, 1, 0, 0, 7, 0, 0, 0, none⟩] = some ⟨1, 1, 0, 0, 7, 0, 0, 0, none⟩ := by decide
theorem witness_CollectivesComplete_1_vc0Packet : let s := calWit .running; let s := s.onCal (fun c => { c with descs := [(0, [0x53, 0x45, 0x44, 0x43, 0, 0, 0, 0, 1, 0, 0, 0, 0, 0, 1, 0] ++ List.replicate 48 0)], segs := [(0, [0, 0, 0, 0, 1, 0, 0, 0, 8, 0, 0, 0, 1, 0, 1, 0])] }); let pkt : List Byte := List.replicate 272 0; let u := consume 3 pkt (s.reach 7); vcStep pkt = u.get calStepStep % 4096 ∧ vcTry pkt = u.get calTryTry ∧ pktDst pkt = ownId u ∧ vcSlot pkt < planSlots u ∧ (slotOf u (vcSlot pkt)).cls = 0 ∧ slotState u (vcSlot pkt) = .running ∧ segOfWindow (slotDesc u (vcSlot pkt)) (slotSegs u (vcSlot pkt)) (vcWindow pkt) = some ⟨0, 1, 8, 0, 1, 1⟩ ∧ vcMode pkt = (slotDesc u (vcSlot pkt)).mode ∧ vcPart pkt < (slotDesc u (vcSlot pkt)).parts ∧ (slotDesc u (vcSlot pkt)).rmode = 0 ∧ partWritten u (vcSlot pkt) (vcWindow pkt) (vcPart pkt) = false ∧ bitOf 8 3 = true := by decide +kernel
theorem witness_CollectivesComplete_2_calResolve : let s := wst State.reset [(calStatusState, 3)]; let v : BitVec 64 := 0x8000000000000000; let u := (s.set calResolveStep (bits v.toNat 0 32)).set calResolveVerdict (bits v.toNat 32 4); bitOf v.toNat 63 = true ∧ u.get calStatusState = 3 ∧ bits v.toNat 0 32 = u.get calStepStep % 2 ^ 32 ∧ bits v.toNat 32 4 = 0 := by decide
theorem witness_MemoryCompletes_9_partitionEnable : let s := wst State.reset [(memPartRangeFrames 0, 1)]; let u := clearRefused 0 (9 : BitVec 32).toNat s; u.flag (memPartCfgEnable 0) = false ∧ u.flag (memPartCfgDraining 0) = false ∧ enableCause (writeTierMode 0 (9 : BitVec 32).toNat u) 0 (bits (9 : BitVec 32).toNat 3 1) = 0 ∧ enableCause (writeTierMode 0 (1 : BitVec 32).toNat u) 0 (bits (1 : BitVec 32).toNat 3 1) = 3 + 1 := by decide
theorem witness_MemoryCompletes_10_partitionDisable : let s := wst State.reset [(memPartCfgEnable 0, 1)]; (writeArb 0 (0 : BitVec 32).toNat (writeTierMode 0 (0 : BitVec 32).toNat (clearRefused 0 (0 : BitVec 32).toNat s))).flag (memPartCfgEnable 0) = true := by decide
theorem witness_MemoryCompletes_13_mmuInval : bitOf (0x60000 : BitVec 64).toNat 18 = true ∧ bits (0x60000 : BitVec 64).toNat 16 2 = 2 := by decide
theorem witness_MemoryCareCompletes_1_softRemapDone : let s : State := { State.reset with care := { CareState.reset with active := [⟨3, 0, 4, 1, 1, 0, 0⟩] } }; s.care.active.find? (fun r => r.chan == 3) = some ⟨3, 0, 4, 1, 1, 0, 0⟩ := by decide
theorem witness_MemoryCareCompletes_2_remapReq : bitOf (0x1000000 : BitVec 32).toNat 24 = true := by decide
theorem witness_MemoryCareCompletes_4_remapLogAppend : let s : State := { State.reset with care := { CareState.reset with unlogged := [⟨3, 0, 4, 1, 1, 0, 0⟩] } }; s.care.unlogged = [⟨3, 0, 4, 1, 1, 0, 0⟩] ∧ (logEntry s (logActive s) 0).all (fun b => b == 0xFF) = true := by decide
theorem witness_RowCommandsComplete_0_rlgNop : let s : State := { State.reset with rlg := { RlgState.reset with batches := [(2, some ⟨0, [leBytes 16 0], [(1, 1)], 0, false, true, 0⟩)] } }; RowNext 2 s ⟨0, [leBytes 16 0], [(1, 1)], 0, false, true, 0⟩ (leBytes 16 0) ∧ rlOp (leBytes 16 0) = 0 := by decide
theorem witness_RowCommandsComplete_7_accClear : let s : State := { State.reset with rlg := { RlgState.reset with batches := [(2, some ⟨0, [leBytes 16 16], [(1, 1)], 0, false, true, 0⟩)] } }; RowNext 2 s ⟨0, [leBytes 16 16], [(1, 1)], 0, false, true, 0⟩ (leBytes 16 16) ∧ rlOp (leBytes 16 16) = 16 := by decide
theorem witness_RowCommandsComplete_10_accStore : let s : State := { State.reset with rlg := { RlgState.reset with batches := [(2, some ⟨0, [leBytes 16 19], [(1, 1)], 0, false, true, 0⟩)] } }; RowNext 2 s ⟨0, [leBytes 16 19], [(1, 1)], 0, false, true, 0⟩ (leBytes 16 19) ∧ rlOp (leBytes 16 19) = 19 := by decide
theorem witness_RowCommandsComplete_11_chainMove : let s : State := { State.reset with rlg := { RlgState.reset with batches := [(2, some ⟨0, [leBytes 16 32], [(1, 1)], 0, false, true, 0⟩)] } }; RowNext 2 s ⟨0, [leBytes 16 32], [(1, 1)], 0, false, true, 0⟩ (leBytes 16 32) ∧ rlOp (leBytes 16 32) = 32 := by decide
theorem witness_RowCommandsComplete_12_chainAdd : let s : State := { State.reset with rlg := { RlgState.reset with batches := [(2, some ⟨0, [leBytes 16 33], [(1, 1)], 0, false, true, 0⟩)] } }; RowNext 2 s ⟨0, [leBytes 16 33], [(1, 1)], 0, false, true, 0⟩ (leBytes 16 33) ∧ rlOp (leBytes 16 33) = 33 := by decide
theorem witness_RowBatchesComplete_1_rlgSubmit : bitOf (0x8000000000000000 : BitVec 64).toNat 63 = true ∧ (State.reset.set (rlgStackSubmitAddr 3) 0).flag tickStatusBankEmpty = true ∧ rlBatch (State.reset.set (rlgStackSubmitAddr 3) 0) 3 = none ∧ ((wst State.reset [(tickStatusBankEmpty, 0)]).set (rlgStackSubmitAddr 3) 0).flag tickStatusBankEmpty = false := by decide
theorem witness_RowBatchesComplete_2_rlFenceGo : State.reset.rlg.cover = [] ∧ ({ State.reset with rlg := { RlgState.reset with cover := [⟨0, [], false⟩] } } : State).rlg.cover ≠ [] := by decide
theorem witness_RowBatchesComplete_3_rlFenceComplete : let s : State := { State.reset with rlg := { RlgState.reset with cover := [⟨0, [], true⟩], fences := [⟨[0], 0, 0⟩] } }; s.rlg.fences = [⟨[0], 0, 0⟩] ∧ fenceReady s ⟨[0], 0, 0⟩ = true := by decide
theorem witness_RowBatchesComplete_4_tgStart : let c : Fin 288 := 9; ((((State.reset.set (chanFld c.val hbmTgCtlMode dtcTgCtlMode) 0).set (chanFld c.val hbmTgCtlOrder dtcTgCtlOrder) 0).set (chanFld c.val hbmTgCtlPattern dtcTgCtlPattern) 0).set (chanFld c.val hbmTgCtlGap dtcTgCtlGap) 0).flag (tgCtl c.val).1 = false ∧ bits (1 : BitVec 32).toNat 6 2 = 0 := by decide
theorem witness_StreamProgramCompletes_0_streamNop : InsnReady 9 (strWit 9 0) 0 ∧ insnOp 0 = 0 := by decide
theorem witness_StreamProgramCompletes_1_movi : InsnReady 9 (strWit 9 18446744073709224065) 18446744073709224065 ∧ insnOp 18446744073709224065 = 1 := by decide
theorem witness_StreamProgramCompletes_2_streamAdd : InsnReady 9 (strWit 9 3) 3 ∧ insnOp 3 = 3 := by decide
theorem witness_StreamProgramCompletes_3_addi : InsnReady 9 (strWit 9 18446744073709486084) 18446744073709486084 ∧ insnOp 18446744073709486084 = 4 := by decide
theorem witness_StreamProgramCompletes_4_muli : InsnReady 9 (strWit 9 5) 5 ∧ insnOp 5 = 5 := by decide
theorem witness_StreamProgramCompletes_5_setl : InsnReady 9 (strWit 9 458824) 458824 ∧ insnOp 458824 = 8 := by decide
theorem witness_StreamProgramCompletes_6_setlr : InsnReady 9 (strWit 9 9) 9 ∧ insnOp 9 = 9 := by decide
theorem witness_StreamProgramCompletes_7_endl : InsnReady 9 (strWit 9 10) 10 ∧ insnOp 10 = 10 ∧ lReg (strWit 9 10) 9 (insnD 10) ≤ 1 ∧ InsnReady 9 (setL 9 0 3 (strWit 9 10)) 10 ∧ 1 < lReg (setL 9 0 3 (strWit 9 10)) 9 (insnD 10) := by decide
theorem witness_StreamProgramCompletes_11_layer : InsnReady 9 (strWit 9 24) 24 ∧ insnOp 24 = 24 ∧ ((strWit 9 24).ctx 9).look = false ∧ InsnReady 9 (lookWit 9 24) 24 ∧ ((lookWit 9 24).ctx 9).look = true := by decide
theorem witness_StreamProgramCompletes_12_rlf : let s := strWit 9 25; InsnReady 9 s 25 ∧ insnOp 25 = 25 ∧ (s.ctx 9).wait ≠ 4 ∧ s.rlg.cover = [] ∧ fenceWaits s 3 9 = false := by decide
theorem witness_StreamProgramCompletes_13_streamEnd : InsnReady 9 (strWit 9 31) 31 ∧ insnOp 31 = 31 := by decide
theorem witness_StreamContextsComplete_1_tileAllocate : let s := (strWit 9 16).onCtx 9 (fun x => { x with inq := [⟨0, 0, 0, 0, 0, false, [], [], false⟩] }); ((allocOrder s).findSome? (fun c => allocWanted ((sharedWaiters s).head? != some c) c s)).isSome = true := by decide
theorem witness_StreamContextsComplete_4_streamBatchComplete : let s := (strWit 9 16).onCtx 9 (fun x => { x with ended := true }); (s.ctx 9).active = true ∧ (s.ctx 9).ended = true ∧ (s.ctx 9).inq = [] ∧ (s.ctx 9).outq = [] ∧ strState s 9 = 1 := by decide
theorem witness_StreamContextsComplete_8_contextHalt : strState (strWit 9 0) 9 = 1 := by decide
theorem witness_StreamContextsComplete_9_contextHalted : let s := (strWit 9 0).onCtx 9 (fun x => { x with halting := true }); (s.ctx 9).halting = true ∧ (s.ctx 9).outq = [] := by decide
theorem witness_StreamContextsComplete_12_contextSave : strState (wst (strWit 9 0) [(strStatState 9, 5)]) 9 = 5 := by decide
theorem witness_RuleArithmeticCompletes_0_ruleNop : RuleReady 5 (engWit 5 0) 0 ∧ ruleOp 0 = 0 := by decide
theorem witness_RuleArithmeticCompletes_1_vadd : RuleReady 5 (engWit 5 1) 1 ∧ ruleOp 1 = 1 := by decide
theorem witness_RuleArithmeticCompletes_2_vsub : RuleReady 5 (engWit 5 2) 2 ∧ ruleOp 2 = 2 := by decide
theorem witness_RuleArithmeticCompletes_3_vmul : RuleReady 5 (engWit 5 3) 3 ∧ ruleOp 3 = 3 := by decide
theorem witness_RuleArithmeticCompletes_4_vfma : RuleReady 5 (engWit 5 4) 4 ∧ ruleOp 4 = 4 := by decide
theorem witness_RuleArithmeticCompletes_5_vfnma : RuleReady 5 (engWit 5 5) 5 ∧ ruleOp 5 = 5 := by decide
theorem witness_RuleArithmeticCompletes_6_vmax : RuleReady 5 (engWit 5 6) 6 ∧ ruleOp 6 = 6 := by decide
theorem witness_RuleArithmeticCompletes_7_vmin : RuleReady 5 (engWit 5 7) 7 ∧ ruleOp 7 = 7 := by decide
theorem witness_RuleArithmeticCompletes_8_vabs : RuleReady 5 (engWit 5 8) 8 ∧ ruleOp 8 = 8 := by decide
theorem witness_RuleArithmeticCompletes_9_vneg : RuleReady 5 (engWit 5 9) 9 ∧ ruleOp 9 = 9 := by decide
theorem witness_RuleArithmeticCompletes_10_vsign : RuleReady 5 (engWit 5 10) 10 ∧ ruleOp 10 = 10 := by decide
theorem witness_RuleArithmeticCompletes_11_vsel : RuleReady 5 (engWit 5 11) 11 ∧ ruleOp 11 = 11 := by decide
theorem witness_RuleArithmeticCompletes_12_vcmplt : RuleReady 5 (engWit 5 12) 12 ∧ ruleOp 12 = 12 := by decide
theorem witness_RuleArithmeticCompletes_13_vrcp : RuleReady 5 (engWit 5 16) 16 ∧ ruleOp 16 = 16 := by decide
theorem witness_RuleArithmeticCompletes_14_vsqrt : RuleReady 5 (engWit 5 17) 17 ∧ ruleOp 17 = 17 := by decide
theorem witness_RuleArithmeticCompletes_15_vrsqrt : RuleReady 5 (engWit 5 18) 18 ∧ ruleOp 18 = 18 := by decide
theorem witness_RuleArithmeticCompletes_16_vdiv : RuleReady 5 (engWit 5 19) 19 ∧ ruleOp 19 = 19 := by decide
theorem witness_RuleMastersComplete_0_vrnd : RuleReady 5 (engWit 5 24) 24 ∧ ruleOp 24 = 24 := by decide
theorem witness_RuleMastersComplete_1_emset : RuleReady 5 (engWit 5 32) 32 ∧ ruleOp 32 = 32 := by decide
theorem witness_RuleMastersComplete_2_emadd : RuleReady 5 (engWit 5 33) 33 ∧ ruleOp 33 = 33 := by decide
theorem witness_RuleMastersComplete_3_emupd : RuleReady 5 (engWit 5 34) 34 ∧ ruleOp 34 = 34 := by decide
theorem witness_RuleMastersComplete_4_emrnd : RuleReady 5 (engWit 5 35) 35 ∧ ruleOp 35 = 35 := by decide
theorem witness_RuleMastersComplete_5_srbf : RuleReady 5 (engWit 5 36) 36 ∧ ruleOp 36 = 36 := by decide
theorem witness_RuleMastersComplete_6_rnbf : RuleReady 5 (engWit 5 37) 37 ∧ ruleOp 37 = 37 := by decide
theorem witness_RuleMastersComplete_11_qstat : RuleReady 5 (engWit 5 48) 48 ∧ ruleOp 48 = 48 := by decide
theorem witness_RuleMastersComplete_12_ruleEnd : RuleReady 5 (engWit 5 63) 63 ∧ ruleOp 63 = 63 := by decide
theorem witness_EnginesComplete_1_engineSubmit : bitOf (0x8000000000000000 : BitVec 64).toNat 63 = true ∧ borrowed (State.reset.set (upeSubmitAddr 5) 0) 5 = false ∧ engState (State.reset.set (upeSubmitAddr 5) 0) 5 = 0 ∧ engState ((engWit 5 0).set (upeSubmitAddr 5) 0) 5 ≠ 0 ∧ borrowed ((engWit 5 0).set (upeSubmitAddr 5) 0) 5 = false := by decide
theorem witness_EnginesComplete_4_engineHalt : ((engWit 5 0).eng 5).active = true ∧ engState (engWit 5 0) 5 = 3 := by decide
theorem witness_EnginesComplete_5_engineSave : engState (wst State.reset [(upeStatState 5, 5)]) 5 = 5 := by decide
theorem witness_EnginesComplete_6_engineRestore : let s := engSaved; let r := useRead 0 (s.get (upeSaveAddrAddr 0)) 17472 0 0 s; engState s 0 = 0 ∧ r.2.1 = false ∧ r.2.2.1 = false ∧ leAt r.1 0 4 = 0x55504358 := by decide +kernel
theorem witness_EnginesComplete_7_ruleStoreWrite : ruleHeld State.reset 5 7 = false ∧ ruleHeld (engWit 5 0) 5 0 = true := by decide
theorem witness_MatrixAndRandomComplete_1_mxaSubmit : bitOf (0x8000000000000000 : BitVec 64).toNat 63 = true ∧ (State.reset.set mxaSubmitAddr 0).flag tickStatusBankEmpty = true ∧ (State.reset.set mxaSubmitAddr 0).mxa = none ∧ ((wst State.reset [(tickStatusBankEmpty, 0)]).set mxaSubmitAddr 0).flag tickStatusBankEmpty = false := by decide
theorem witness_MatrixAndRandomComplete_3_matrixJobComplete : let s : State := { State.reset with mxa := some ⟨[], 2, 0, 0, [], 0⟩ }; s.mxa = some ⟨[], 2, 0, 0, [], 0⟩ ∧ mxaTotal [] ≤ 0 := by decide
theorem witness_MatrixAndRandomComplete_4_rngSeedRead : let s := (wst State.reset [(rngStatusReady, 1)]).onRng (fun g => { g with words := [5] }); s.flag rngStatusReady = true ∧ s.rng.words = [5] ∧ State.reset.rng.words = [] := by decide
theorem witness_MatrixAndRandomComplete_5_retest : (wst State.reset [(rngCtlSourceEn, 1)]).flag rngCtlSourceEn = true := by decide
theorem witness_MatrixAndRandomComplete_6_startupTestDone : testing.rng.testing = true ∧ (samples 1024).length = 1024 ∧ (healthAll ((samples 1024).map (fun x => x.val)) testing).1 = false := by decide +kernel
theorem witness_MatrixAndRandomComplete_7_noiseBlock : noisy.flag rngCtlSourceEn = true ∧ noisy.flag rngStatusReady = true ∧ noisy.rng.testing = false ∧ (samples 256).length = 256 ∧ (healthAll ((samples 256).map (fun x => x.val)) noisy).1 = false := by decide +kernel
theorem witness_MatrixAndRandomComplete_8_lfsrSeed : State.reset.flag rngStatusSeeding = false ∧ bitOf (1 : BitVec 32).toNat 0 = true ∧ bitOf (1 : BitVec 32).toNat 1 = false := by decide
theorem witness_MatrixAndRandomComplete_9_seedDone : let s := wst State.reset [(rngStatusSeeding, 1)]; s.flag rngStatusSeeding = true ∧ s.rng.lanes = [] := by decide
theorem witness_KvServiceCompletes_0_poolLoad : let s := poolWit; let x := useRead 577 (s.get (kvsPoolDescAddr 0)) 256 0 0 s; x.2.1 = false ∧ x.2.2.1 = false ∧ poolReason x.2.2.2 0 x.1 false = 0 := by decide +kernel
theorem witness_KvServiceCompletes_1_poolUnload : winOf State.reset 0 = none := by decide
theorem witness_KvServiceCompletes_5_kvWindowEnd : winOf (kvWit 6) 0 ≠ none := by decide
theorem witness_CacheGrantsComplete_0_dataS : let s : State := { State.reset with coh := { CohState.reset with l1 := [(3, ⟨[], [], [⟨1, 5, 0, 0, []⟩], 0⟩)], net := [⟨.dataS, 3, sliceOf 5, 1, 5, [], 0⟩], txns := [⟨6, ⟨0, 0, 0, 0, [], 0, 0, none, 0, 0, false, 0⟩, 1⟩] } }; nextMsg s .dataS 3 (sliceOf (5 : BitVec 41).toNat) 1 (5 : BitVec 41).toNat = some ⟨.dataS, 3, sliceOf 5, 1, 5, [], 0⟩ ∧ (s.l1 3).reqs.find? (fun q => q.tag == 1 && q.line == (5 : BitVec 41).toNat) = some ⟨1, 5, 0, 0, []⟩ ∧ txnOf s 5 = none ∧ (txnOf s 6).isSome = true := by decide
theorem witness_CacheGrantsComplete_1_dataE : let s : State := { State.reset with coh := { CohState.reset with l1 := [(3, ⟨[], [], [⟨1, 5, 0, 0, []⟩], 0⟩)], net := [⟨.dataE, 3, sliceOf 5, 1, 5, [], 0⟩], txns := [⟨6, ⟨0, 0, 0, 0, [], 0, 0, none, 0, 0, false, 0⟩, 1⟩] } }; nextMsg s .dataE 3 (sliceOf (5 : BitVec 41).toNat) 1 (5 : BitVec 41).toNat = some ⟨.dataE, 3, sliceOf 5, 1, 5, [], 0⟩ ∧ (s.l1 3).reqs.find? (fun q => q.tag == 1 && q.line == (5 : BitVec 41).toNat) = some ⟨1, 5, 0, 0, []⟩ ∧ txnOf s 5 = none ∧ (txnOf s 6).isSome = true := by decide
theorem witness_CacheGrantsComplete_2_dataX : let s : State := { State.reset with coh := { CohState.reset with l1 := [(3, ⟨[], [], [⟨1, 5, 0, 0, []⟩], 0⟩)], net := [⟨.dataX, 3, sliceOf 5, 1, 5, [], 0⟩], txns := [⟨6, ⟨0, 0, 0, 0, [], 0, 0, none, 0, 0, false, 0⟩, 1⟩] } }; nextMsg s .dataX 3 (sliceOf (5 : BitVec 41).toNat) 1 (5 : BitVec 41).toNat = some ⟨.dataX, 3, sliceOf 5, 1, 5, [], 0⟩ ∧ (s.l1 3).reqs.find? (fun q => q.tag == 1 && q.line == (5 : BitVec 41).toNat) = some ⟨1, 5, 0, 0, []⟩ ∧ txnOf s 5 = none ∧ (txnOf s 6).isSome = true := by decide
theorem witness_CacheGrantsComplete_3_upgAck : let s : State := { State.reset with coh := { CohState.reset with l1 := [(3, ⟨[(5, ⟨.s, [], 0, 0⟩)], [], [⟨1, 5, 0, 0, []⟩], 0⟩)], net := [⟨.upgAck, 3, sliceOf 5, 1, 5, [], 0⟩], txns := [⟨6, ⟨0, 0, 0, 0, [], 0, 0, none, 0, 0, false, 0⟩, 1⟩] } }; nextMsg s .upgAck 3 (sliceOf (5 : BitVec 41).toNat) 1 (5 : BitVec 41).toNat = some ⟨.upgAck, 3, sliceOf 5, 1, 5, [], 0⟩ ∧ (s.l1 3).reqs.find? (fun q => q.tag == 1 && q.line == (5 : BitVec 41).toNat) = some ⟨1, 5, 0, 0, []⟩ ∧ l1Line s 3 (5 : BitVec 41).toNat = some ⟨.s, [], 0, 0⟩ ∧ txnOf s 5 = none ∧ (txnOf s 6).isSome = true := by decide
theorem witness_CacheGrantsComplete_4_evictAck : let s : State := { State.reset with coh := { CohState.reset with net := [⟨.evictAck, 3, sliceOf 5, 1, 5, [], 0⟩] } }; nextMsg s .evictAck 3 (sliceOf (5 : BitVec 41).toNat) 1 (5 : BitVec 41).toNat = some ⟨.evictAck, 3, sliceOf 5, 1, 5, [], 0⟩ := by decide
theorem witness_CacheGrantsComplete_5_wbAck : let s : State := { State.reset with coh := { CohState.reset with net := [⟨.wbAck, 3, sliceOf 5, 1, 5, [], 0⟩] } }; nextMsg s .wbAck 3 (sliceOf (5 : BitVec 41).toNat) 1 (5 : BitVec 41).toNat = some ⟨.wbAck, 3, sliceOf 5, 1, 5, [], 0⟩ := by decide
theorem witness_CacheGrantsComplete_6_wbSuperseded : let s : State := { State.reset with coh := { CohState.reset with net := [⟨.wbSuperseded, 3, sliceOf 5, 1, 5, [], 0⟩] } }; nextMsg s .wbSuperseded 3 (sliceOf (5 : BitVec 41).toNat) 1 (5 : BitVec 41).toNat = some ⟨.wbSuperseded, 3, sliceOf 5, 1, 5, [], 0⟩ := by decide
theorem witness_SnoopsComplete_8_snoopTimeout : let s : State := { State.reset with coh := { CohState.reset with snoops := [⟨2, 1, 3, 5, true, 0⟩] } }; snoopOf s 2 1 = some ⟨2, 1, 3, 5, true, 0⟩ := by decide
theorem witness_FencesComplete_0_engineFenceWb : State.reset.flag cohFenceBusy = false ∧ (wst State.reset [(cohFenceBusy, 1)]).flag cohFenceBusy = true := by decide
theorem witness_FencesComplete_1_engineFenceWbinv : State.reset.flag cohFenceBusy = false ∧ (wst State.reset [(cohFenceBusy, 1)]).flag cohFenceBusy = true := by decide
theorem witness_FencesComplete_2_fabricFence : State.reset.flag cohFenceBusy = false ∧ (wst State.reset [(cohFenceBusy, 1)]).flag cohFenceBusy = true := by decide
theorem witness_FencesComplete_3_engineFenceComplete : let s := { wst State.reset [(cohFenceBusy, 1)] with coh := { CohState.reset with fenceEngines := 5 } }; s.flag cohFenceBusy = true ∧ s.get cohFenceKind < 2 ∧ enginesOf s.coh.fenceEngines = [0, 2] ∧ (s.l1 0).wb = [] ∧ s.get (upeStatState 0) ≠ 3 ∧ (s.l1 2).wb = [] ∧ s.get (upeStatState 2) ≠ 3 := by decide
theorem witness_FencesComplete_4_fabricFenceComplete : let s := wst State.reset [(cohFenceBusy, 1), (cohFenceKind, 2)]; s.flag cohFenceBusy = true ∧ s.get cohFenceKind = 2 ∧ s.fab.reqs = [] := by decide
theorem witness_ModulePowerCompletes_0_presenceDebounce : let s := { State.reset with mod := ({ ModState.reset with seq := 0, tripped := true }) }; s.mod.seq = 0 ∧ s.mod.tripped = true ∧ { s with mod := ({ ModState.reset with seq := 0, tripped := false }) }.mod.tripped = false := by decide
theorem witness_ModulePowerCompletes_2_rampComplete : { State.reset with mod := ({ ModState.reset with seq := 1 }) }.mod.seq = 1 := by decide
theorem witness_ModulePowerCompletes_3_railPowerGood : { State.reset with mod := ({ ModState.reset with seq := 2 }) }.mod.seq = 2 ∧ { State.reset with mod := ({ ModState.reset with seq := 3 }) }.mod.seq = 3 ∧ { State.reset with mod := ({ ModState.reset with seq := 7 }) }.mod.seq < 8 := by decide
theorem witness_ModulePowerCompletes_4_trip : State.reset.mod.seq ≠ 0 := by decide
theorem witness_ModulePowerCompletes_5_vinLow : (4100 : BitVec 16).toNat < 4200 := by decide
theorem witness_ModuleEventsComplete_6_lossOfSignal : let s := wst State.reset [(elvStatState 3, 7)]; s.get (elvStatState 3) = 7 := by decide
theorem witness_StartCompletes_0_dieResetRelease : State.reset.rst.held = true ∧ State.reset.mod.seq = 8 := by decide
theorem witness_StartCompletes_1_imageSlotVerify : let s := wst State.reset [(idBootStatPhase, 2)]; s.get idBootStatPhase = 2 ∧ s.boot.slot = none ∧ nextSlot s = some 0 := by decide +kernel
theorem witness_StartCompletes_2_coreReady : let s : State := { wst State.reset [(idBootStatPhase, 2)] with boot := { BootState.reset with slot := some 0, ready := 7 } }; s.boot.slot = some 0 ∧ s.get idBootStatPhase = 2 ∧ Nat.lor s.boot.ready (2 ^ (3 : Fin 4).val) = 15 ∧ Nat.lor s.boot.ready (2 ^ (0 : Fin 4).val) ≠ 15 := by decide
theorem witness_StartCompletes_3_coreReadyTimeout : let s : State := { wst State.reset [(idBootStatPhase, 2)] with boot := { BootState.reset with slot := some 0, ready := 7 } }; s.boot.slot = some 0 ∧ s.get idBootStatPhase = 2 ∧ bitOf s.boot.ready 3 = false := by decide
theorem witness_StartCompletes_5_channelZeroed : let s : State := { State.reset with mem := { MemState.reset with zeroing := [(5, true)] } }; Tab.get false s.mem.zeroing 5 = true ∧ Tab.set false s.mem.zeroing 5 false = [] := by decide
theorem witness_StartCompletes_6_domainStart : let s := wst State.reset [(tickRankRank, 0), (fabNodeIdValid, 1), (idBootStatPhase, 3)]; s.get tickRankRank ≤ 7 ∧ s.tick.heard = false ∧ s.get tickStatusLock = 0 ∧ s.flag fabNodeIdValid = true ∧ s.get idBootStatPhase = 3 := by decide
theorem witness_StartCompletes_7_readyForPlan : let s : State := { wst State.reset [(idBootStatPhase, 4), (memStatusReady, 1), (tickStatusLock, 2)] with boot := { BootState.reset with ready := 15 } }; s.get idBootStatPhase = 4 ∧ s.flag memStatusReady = true ∧ s.get tickStatusLock = 2 ∧ s.boot.ready = 15 := by decide
theorem witness_StartCompletes_8_bootLate : let s := wst State.reset [(idBootStatPhase, 4)]; s.get idBootStatPhase ≠ 5 ∧ s.get idBootStatPhase ≠ 0 ∧ s.flag idBootStatLate = false := by decide
theorem witness_PowerCompletes_1_tempRead : let s : State := { State.reset with care := { CareState.reset with silent := [(4, 2)] } }; 3 = Tab.get 0 s.care.silent 4 + 1 ∧ 1 = Tab.get 0 s.care.silent 5 + 1 := by decide
theorem witness_PowerCompletes_2_stackSelfRefresh : let s := wst State.reset [(hbmTempClass 3, 3)]; s.get (hbmTempClass 3) = 3 ∧ s.get fumStatusState < 2 := by decide
theorem witness_PowerCompletes_3_selfRefreshExit : let s := wst State.reset [(fumStatusOut, 1)]; s.get (hbmTempClass 3) < 2 ∧ s.flag fumStatusOut = true ∧ s.get fumStatusState < 2 := by decide
theorem witness_PowerCompletes_4_throttleUpdate : 10 ≤ 10 * appliedBudget (wst State.reset [(fumBudgetWatts, 450)]) := by decide
theorem witness_PowerCompletes_5_overcurrentThrottle : State.reset.get fumStatusLevel ≠ 15 := by decide
theorem witness_PowerCompletes_6_dieHotThrottle : State.reset.get fumStatusLevel ≠ 15 := by decide
theorem witness_PowerCompletes_8_telemetryInterval : State.reset.get tickStatusLock < 2 := by decide
theorem witness_PowerCompletes_10_p1Exit : let s := wst State.reset [(fumStatusState, 2)]; s.get fumStatusState = 2 ∧ s.fum.transition = 0 := by decide
theorem witness_PowerCompletes_11_pstateDone : ({ State.reset with fum := { FumState.reset with transition := 1 } } : State).fum.transition = 1 ∧ ({ State.reset with fum := { FumState.reset with transition := 2 } } : State).fum.transition = 2 := by decide
theorem witness_PowerCompletes_12_clusterGate : let s := wst State.reset [(fumStatusState, 1)]; s.get fumStatusState = 1 ∧ unitIdle s (gateUnit (some 3)) = true ∧ unitIdle s (gateUnit none) = true := by decide
theorem witness_ResetsComplete_0_moduleReset : let s := wst { State.reset with rst := { RstState.reset with held := false }, host := { HostState.reset with answers := true } } [(idBootStatWindow, 0), (idBootStatPhase, 5)]; rstAllowed false s = true ∧ s.flag idBootStatWindow = false ∧ s.get fumStatusState ≠ 3 ∧ (0 : BitVec 16) ≠ 0x5253 := by decide
theorem witness_ResetsComplete_1_computeReset : let s := wst { State.reset with rst := { RstState.reset with held := false }, host := { HostState.reset with answers := true } } [(idBootStatWindow, 0), (idBootStatPhase, 5)]; rstAllowed false s = true ∧ s.flag idBootStatWindow = false ∧ s.get fumStatusState ≠ 3 ∧ (0 : BitVec 16) ≠ 0x5253 := by decide
theorem witness_ResetsComplete_2_planReset : let s := wst { State.reset with rst := { RstState.reset with held := false }, host := { HostState.reset with answers := true } } [(idBootStatWindow, 0), (idBootStatPhase, 5)]; rstAllowed false s = true ∧ s.flag idBootStatWindow = false ∧ s.get fumStatusState ≠ 3 ∧ (0 : BitVec 16) ≠ 0x5253 := by decide
theorem witness_ResetsComplete_3_planResetHalted : let s : State := { State.reset with rst := { RstState.reset with kind := 5 } }; s.rst.kind = 5 ∧ halting s = false := by decide
theorem witness_ResetsComplete_4_resetForced : let s (k : Nat) : State := { State.reset with rst := { RstState.reset with held := false, kind := k, late := 5 } }; ((s 2).reach 0).rst.held = false ∧ ((s 2).reach 0).rst.kind = 2 ∧ ((s 4).reach 0).rst.kind = 4 ∧ ((s 4).reach 0).rst.late ≠ 0 ∧ ((s 3).reach 0).rst.kind = 3 := by decide
theorem witness_ResetsComplete_5_perst : State.reset.mod.tripped = false ∧ State.reset.mod.seq = 8 ∧ (let s : State := { State.reset with mod := { ModState.reset with tripped := true, seq := 0 } }; s.mod.tripped = true ∧ (s.reach 10000000000000).mod.tripAt + 10000000000000 ≤ (s.reach 10000000000000).now) := by decide
theorem witness_MailboxCompletes_0_flashRead : let s := wst { State.reset with rst := { RstState.reset with held := false }, host := { HostState.reset with answers := true } } [(idFlashLenBytes, 16)]; let u := s.set idFlashCtlOp 1; idAnswers s = true ∧ mboxReason u 1 0 = 0 ∧ mboxReason (wst u [(idFlashLenBytes, 0)]) 1 0 = 3 + 1 := by decide
theorem witness_MailboxCompletes_1_flashProgram : let s := wst { State.reset with rst := { RstState.reset with held := false }, host := { HostState.reset with answers := true } } [(idBootStatPhase, 5), (idFlashAddrOffset, 0x4000000), (idFlashLenBytes, 256)]; let u := s.set idFlashCtlOp 2; idAnswers s = true ∧ mboxReason u 2 17996 = 0 ∧ mboxReason (wst u [(idFlashAddrOffset, 0)]) 2 17996 = 1 + 1 := by decide
theorem witness_MailboxCompletes_2_flashErase : let s := wst { State.reset with rst := { RstState.reset with held := false }, host := { HostState.reset with answers := true } } [(idBootStatPhase, 5), (idFlashAddrOffset, 0x4000000)]; let u := s.set idFlashCtlOp 3; idAnswers s = true ∧ mboxReason u 3 17996 = 0 ∧ mboxReason (wst u [(idFlashAddrOffset, 0)]) 3 17996 = 1 + 1 := by decide
theorem witness_MailboxCompletes_3_fuseKeyHash : let s := wst { State.reset with rst := { RstState.reset with held := false }, host := { HostState.reset with answers := true } } [(idBootStatPhase, 5)]; let u := s.set idFlashCtlOp 4; idAnswers s = true ∧ mboxReason u 4 17996 = 0 ∧ mboxReason (wst u [(idBootStatPhase, 4)]) 4 17996 = 0 + 1 ∧ s.get idFuseArgFuseOp = 0 := by decide
theorem witness_MailboxCompletes_4_fuseRevoke : let s := wst { State.reset with rst := { RstState.reset with held := false }, host := { HostState.reset with answers := true }, boot := { BootState.reset with keyHash := [(0, 7)] } } [(idBootStatPhase, 5), (idFuseArgFuseOp, 1), (idFuseArgSlot, 1)]; let u := s.set idFlashCtlOp 4; idAnswers s = true ∧ mboxReason u 4 17996 = 0 ∧ mboxReason (wst u [(idFuseArgSlot, 0)]) 4 17996 = 7 + 1 ∧ s.get idFuseArgFuseOp = 1 := by decide
theorem witness_MailboxCompletes_5_fuseSvn : let s := wst { State.reset with rst := { RstState.reset with held := false }, host := { HostState.reset with answers := true } } [(idBootStatPhase, 5), (idFuseArgFuseOp, 2), (idFuseArgSvn, 3), (idImageSvnImage, 4)]; let u := s.set idFlashCtlOp 4; idAnswers s = true ∧ mboxReason u 4 17996 = 0 ∧ mboxReason (wst u [(idFuseArgSvn, 0)]) 4 17996 = 7 + 1 ∧ s.get idFuseArgFuseOp = 2 := by decide
theorem witness_MailboxCompletes_6_flashOpDone : let s (op r : Nat) : State := { State.reset with host := { HostState.reset with mbox := some (op, 0, 16, r) } }; (s 1 0).host.mbox = some (1, 0, 16, 0) ∧ (s 2 7).host.mbox = some (2, 0, 16, 7) ∧ (s 4 0).host.mbox = some (4, 0, 16, 0) := by decide
theorem witness_ManagementPortCompletes_0_identity : let s := wst { State.reset with rst := { RstState.reset with held := false }, host := { HostState.reset with answers := true } } [(idBootStatWindow, 0), (idBootStatPhase, 5)]; idAnswers s = true ∧ s.host.pecErr = false := by decide
theorem witness_ManagementPortCompletes_1_status : idAnswers (wst { State.reset with rst := { RstState.reset with held := false }, host := { HostState.reset with answers := true } } [(idBootStatWindow, 0), (idBootStatPhase, 5)]) = true := by decide
theorem witness_ManagementPortCompletes_2_regRead : let s := wst { State.reset with rst := { RstState.reset with held := false }, host := { HostState.reset with answers := true } } [(idBootStatWindow, 0), (idBootStatPhase, 5)]; idAnswers s = true ∧ mgmtForm (0x100004 : BitVec 32).toNat (0 : Byte).toNat = true ∧ regOpen s (0x100004 : BitVec 32).toNat = true ∧ mgmtForm (0x100008 : BitVec 32).toNat (1 : Byte).toNat = true := by decide
theorem witness_ManagementPortCompletes_3_regWrite : let s := wst { State.reset with rst := { RstState.reset with held := false }, host := { HostState.reset with answers := true } } [(idBootStatWindow, 0), (idBootStatPhase, 5)]; idAnswers s = true ∧ mgmtForm (0x100004 : BitVec 32).toNat (0 : Byte).toNat = true ∧ regOpen s (0x100004 : BitVec 32).toNat = true := by decide
theorem witness_ManagementPortCompletes_4_mgtTelemetry : let s := wst { State.reset with rst := { RstState.reset with held := false }, host := { HostState.reset with answers := true } } [(idBootStatWindow, 0), (idBootStatPhase, 5)]; idAnswers s = true ∧ s.host.pecErr = false ∧ mgmtWindow s = false ∧ (15 : Byte).toNat < 16 := by decide
theorem witness_ManagementPortCompletes_5_fault : let s := wst { State.reset with rst := { RstState.reset with held := false }, host := { HostState.reset with answers := true } } [(idBootStatWindow, 0), (idBootStatPhase, 5)]; idAnswers s = true ∧ s.host.pecErr = false ∧ (15 : Byte).toNat < 16 ∧ (1 : Byte).toNat < 2 := by decide
theorem witness_ManagementPortCompletes_6_flashBuf : let s := wst { State.reset with rst := { RstState.reset with held := false }, host := { HostState.reset with answers := true } } [(idBootStatWindow, 0), (idBootStatPhase, 5)]; idAnswers s = true ∧ s.host.pecErr = false ∧ (4080 : BitVec 16).toNat % 16 = 0 ∧ (4080 : BitVec 16).toNat < 4096 := by decide
theorem witness_ManagementPortCompletes_7_flashCmd : let s := wst { State.reset with rst := { RstState.reset with held := false }, host := { HostState.reset with answers := true } } [(idBootStatWindow, 0), (idBootStatPhase, 5)]; idAnswers s = true ∧ s.host.mbox = none := by decide
theorem witness_ManagementPortCompletes_8_reset : idAnswers (wst { State.reset with rst := { RstState.reset with held := false }, host := { HostState.reset with answers := true } } [(idBootStatWindow, 0), (idBootStatPhase, 5)]) = true := by decide
theorem witness_ManagementPortCompletes_9_locate : let s := wst { State.reset with rst := { RstState.reset with held := false }, host := { HostState.reset with answers := true } } [(idBootStatWindow, 0), (idBootStatPhase, 5)]; idAnswers s = true ∧ s.host.pecErr = false ∧ (1 : Byte).toNat < 2 := by decide
theorem witness_ManagementPortCompletes_10_alert : let s := wst { State.reset with rst := { RstState.reset with held := false }, host := { HostState.reset with answers := true } } [(idBootStatWindow, 0), (idBootStatPhase, 5)]; idAnswers s = true ∧ s.host.pecErr = false := by decide
theorem witness_ManagementPortCompletes_11_alert : idAnswers (wst { State.reset with rst := { RstState.reset with held := false }, host := { HostState.reset with answers := true } } [(idBootStatWindow, 0), (idBootStatPhase, 5)]) = true := by decide
theorem witness_ManagementPortCompletes_12_alertResponse : let s : State := { State.reset with rst := { RstState.reset with held := false }, host := { HostState.reset with answers := true, alertLow := true } }; idAnswers s = true ∧ s.host.alertLow = true := by decide
theorem witness_HostQueuesComplete_0_queueNop : let c : List Byte := leBytes 4 0 ++ leBytes 4 0 ++ leBytes 8 0 ++ leBytes 8 0 ++ leBytes 8 0 ++ leBytes 8 0 ++ leBytes 24 0; let s := wst { State.reset with host := { HostState.reset with queues := [(3, { qEmpty with running := some c, step := 0 })] } } []; runs 3 0 s = some c ∧ cmdBad c = 0 ∧ (s.queue 3).err = 0 ∧ (s.queue 3).need = 0 := by decide
theorem witness_HostQueuesComplete_1_planLoad : let c : List Byte := leBytes 4 1 ++ leBytes 4 64 ++ leBytes 8 0 ++ leBytes 8 0 ++ leBytes 8 0 ++ leBytes 8 0 ++ leBytes 24 0; let s := wst { State.reset with host := { HostState.reset with queues := [(3, { qEmpty with running := some c, step := 0 })] } } []; runs 3 1 s = some c ∧ cmdBad c = 0 ∧ (s.queue 3).err = 0 ∧ (s.queue 3).need = 0 ∧ cmdLen c = 64 + 32 * leAt (gotBytes (s.queue 3)) 6 2 := by decide
theorem witness_HostQueuesComplete_2_routeLoad : let c : List Byte := leBytes 4 2 ++ leBytes 4 8320 ++ leBytes 8 0 ++ leBytes 8 0 ++ leBytes 8 0 ++ leBytes 8 0 ++ leBytes 24 0; let s := wst { State.reset with host := { HostState.reset with queues := [(3, { qEmpty with running := some c, step := 0 })] } } []; runs 3 2 s = some c ∧ cmdBad c = 0 ∧ (s.queue 3).err = 0 ∧ (s.queue 3).need = 0 := by decide
theorem witness_HostQueuesComplete_3_ruleLoad : let c : List Byte := leBytes 4 3 ++ leBytes 4 8 ++ leBytes 8 0 ++ leBytes 8 0 ++ leBytes 8 6 ++ leBytes 8 5 ++ leBytes 24 0; let s := wst { State.reset with host := { HostState.reset with queues := [(3, { qEmpty with running := some c, step := 0 })] } } []; runs 3 3 s = some c ∧ cmdBad c = 0 ∧ (s.queue 3).err = 0 ∧ (s.queue 3).need = 0 ∧ ((maskEngines (cmdArg0 c)).all (fun e => (List.range (cmdLen c / 4)).all (fun i => !ruleHeld s e (bits (cmdArg1 c) 0 10 + i)))) = true := by decide
theorem witness_HostQueuesComplete_6_queueArm : let c : List Byte := leBytes 4 6 ++ leBytes 4 0 ++ leBytes 8 0 ++ leBytes 8 0 ++ leBytes 8 0 ++ leBytes 8 0 ++ leBytes 24 0; let s := wst { State.reset with host := { HostState.reset with queues := [(3, { qEmpty with running := some c, step := 0 })] } } []; runs 3 6 s = some c ∧ cmdBad c = 0 ∧ (s.queue 3).err = 0 ∧ (s.queue 3).need = 0 := by decide
theorem witness_HostQueuesComplete_7_queueDisarm : let c : List Byte := leBytes 4 7 ++ leBytes 4 0 ++ leBytes 8 0 ++ leBytes 8 0 ++ leBytes 8 0 ++ leBytes 8 0 ++ leBytes 24 0; let s := wst { State.reset with host := { HostState.reset with queues := [(3, { qEmpty with running := some c, step := 0 })] } } []; runs 3 7 s = some c ∧ cmdBad c = 0 ∧ (s.queue 3).err = 0 ∧ (s.queue 3).need = 0 := by decide
theorem witness_HostQueuesComplete_8_queueDetach : let c : List Byte := leBytes 4 8 ++ leBytes 4 0 ++ leBytes 8 0 ++ leBytes 8 0 ++ leBytes 8 9 ++ leBytes 8 0 ++ leBytes 24 0; let s := wst { State.reset with host := { HostState.reset with queues := [(3, { qEmpty with running := some c, step := 0 })] } } []; runs 3 8 s = some c ∧ cmdBad c = 0 ∧ (s.queue 3).err = 0 ∧ (s.queue 3).need = 0 ∧ (s.queue 3).step = 0 ∧ s.get tickCountCount < cmdArg0 c := by decide
theorem witness_HostQueuesComplete_9_fence : let c : List Byte := leBytes 4 9 ++ leBytes 4 0 ++ leBytes 8 0 ++ leBytes 8 0 ++ leBytes 8 0 ++ leBytes 8 6 ++ leBytes 24 0; let s := wst { State.reset with host := { HostState.reset with queues := [(3, { qEmpty with running := some c, step := 0 })] } } []; runs 3 9 s = some c ∧ cmdBad c = 0 ∧ (s.queue 3).err = 0 ∧ (s.queue 3).need = 0 ∧ bits (cmdArg0 c) 0 2 < 2 ∧ (s.queue 3).step = 0 ∧ s.flag cohFenceBusy = false := by decide
theorem witness_HostQueuesComplete_10_fence : let c : List Byte := leBytes 4 9 ++ leBytes 4 0 ++ leBytes 8 0 ++ leBytes 8 0 ++ leBytes 8 2 ++ leBytes 8 0 ++ leBytes 24 0; let s := wst { State.reset with host := { HostState.reset with queues := [(3, { qEmpty with running := some c, step := 1 })] } } []; runs 3 9 s = some c ∧ cmdBad c = 0 ∧ (s.queue 3).err = 0 ∧ (s.queue 3).need = 0 ∧ bits (cmdArg0 c) 0 2 ≠ 3 ∧ (s.queue 3).step ≠ 0 ∧ s.flag cohFenceBusy = false := by decide
theorem witness_HostQueuesComplete_11_writeReg : let c : List Byte := leBytes 4 10 ++ leBytes 4 4 ++ leBytes 8 0 ++ leBytes 8 0 ++ leBytes 8 0 ++ leBytes 8 0 ++ leBytes 24 0; let s := wst { State.reset with host := { HostState.reset with queues := [(3, { qEmpty with running := some c, step := 0 })] } } []; runs 3 10 s = some c ∧ cmdBad c = 0 ∧ (s.queue 3).err = 0 ∧ (s.queue 3).need = 0 := by decide
theorem witness_HostQueuesComplete_12_readReg : let c : List Byte := leBytes 4 11 ++ leBytes 4 4 ++ leBytes 8 0 ++ leBytes 8 0 ++ leBytes 8 0 ++ leBytes 8 0 ++ leBytes 24 0; let s := wst { State.reset with host := { HostState.reset with queues := [(3, { qEmpty with running := some c, step := 0 })] } } []; runs 3 11 s = some c ∧ cmdBad c = 0 ∧ (s.queue 3).err = 0 ∧ (s.queue 3).need = 0 ∧ (barRead (cmdLocal c % 2 ^ 28) (cmdLen c) s).1 = some 0 := by decide
theorem witness_HostPortCompletes_0_queueEnable : let s := wst { State.reset with rst := { RstState.reset with held := false }, host := { HostState.reset with answers := true } } [(idBootStatWindow, 0), (idBootStatPhase, 5)]; barReach s = true := by decide
theorem witness_HostPortCompletes_1_sqDoorbell : let s := wst { State.reset with rst := { RstState.reset with held := false }, host := { HostState.reset with answers := true } } [(idBootStatWindow, 0), (idBootStatPhase, 5)]; barReach s = true := by decide
theorem witness_HostPortCompletes_2_cqHeadWrite : let s := wst { State.reset with rst := { RstState.reset with held := false }, host := { HostState.reset with answers := true } } [(idBootStatWindow, 0), (idBootStatPhase, 5)]; barReach s = true := by decide
theorem witness_HostPortCompletes_3_hostReadCompletion : let s : State := { State.reset with host := { HostState.reset with reads := [(200, 3, 0, 5, 64)] } }; readOf s (200 : Fin 1024).val = some (200, 3, 0, 5, 64) ∧ (1 : Fin 4) ≠ 0 := by decide
theorem witness_HostPortCompletes_4_hostReadTimeout : let s : State := { State.reset with host := { HostState.reset with reads := [(200, 3, 0, 5, 64)] } }; readOf s (200 : Fin 1024).val = some (200, 3, 0, 5, 64) := by decide
theorem witness_HostPortCompletes_7_configRequest : idAnswers State.reset = false ∧ idAnswers (wst { State.reset with rst := { RstState.reset with held := false }, host := { HostState.reset with answers := true } } [(idBootStatWindow, 0), (idBootStatPhase, 5)]) = true := by decide
theorem witness_HostPortCompletes_8_d3hot : idAnswers (wst { State.reset with rst := { RstState.reset with held := false }, host := { HostState.reset with answers := true } } [(idBootStatWindow, 0), (idBootStatPhase, 5)]) = true := by decide
theorem witness_HostPortCompletes_9_hostLinkUp : State.reset.mod.seq = 8 := by decide
theorem witness_HostPortCompletes_10_linkDown : (wst State.reset [(hstStatusUp, 1)]).flag hstStatusUp = true := by decide
theorem witness_HostPortCompletes_11_hotReset : let s := wst { State.reset with rst := { RstState.reset with held := false }, host := { HostState.reset with answers := true } } [(idBootStatWindow, 0), (idBootStatPhase, 5)]; idAnswers s = true ∧ 0x1a00000 ≤ hstCtlHint.reg ∧ hstCtlHint.reg + 8 ≤ 0x1b00000 ∧ hstCtlHint.lsb < 64 := by decide
theorem witness_RegisterAccessesComplete_0_registerWrite : let s := wst { State.reset with rst := { RstState.reset with held := false }, host := { HostState.reset with answers := true } } [(idBootStatWindow, 0), (idBootStatPhase, 5)]; barReach s = true := by decide
theorem witness_RegisterAccessesComplete_2_rcRead : let s := wst { State.reset with rst := { RstState.reset with held := false }, host := { HostState.reset with answers := true } } [(idBootStatWindow, 0), (idBootStatPhase, 5)]; barReach s = true := by decide
theorem witness_RegisterAccessesComplete_3_rcRead : let s := wst { State.reset with rst := { RstState.reset with held := false }, host := { HostState.reset with answers := true } } [(idBootStatWindow, 0), (idBootStatPhase, 5)]; barReach s = true ∧ (regAt (0x1700014 % 2 ^ 28)).map (fun r => r.flds.filter (fun f => f.acc == .rc && f != rngSeedWord)) = some [cohNcHitCount] := by decide
theorem witness_RegisterAccessesComplete_4_latchedLowWordRead : let s := wst { State.reset with rst := { RstState.reset with held := false }, host := { HostState.reset with answers := true } } [(idBootStatWindow, 0), (idBootStatPhase, 5)]; barReach s = true := by decide
theorem witness_TickBeaconsComplete_0_tickEdge : let s := { State.reset with tick := { TickState.reset with running := true } }; s.tick.running = true := by decide
theorem witness_TickBeaconsComplete_1_beaconReceive : let s := wst { State.reset with tick := { TickState.reset with heard := true, acqPort := some 3 } } [(tickStatusLock, 2)]; let msg : List Byte := List.replicate 48 0; let u := consumeCtrl 3 1 msg (s.reach 7); bKind msg = 0 ∧ ownBeacon u msg = false ∧ beaconPortOk u 3 (bRank msg) = true ∧ sourceOk u msg = true ∧ u.get tickStatusLock = 2 ∧ freshSource u msg = false := by decide
theorem witness_TickBeaconsComplete_3_lockLost : let s := wst State.reset [(tickStatusLock, 3), (tickStatusMissed, 16)]; s.flag tickStatusTk = false ∧ s.get tickStatusLock = 3 ∧ 16 ≤ s.get tickStatusMissed := by decide
theorem witness_TickBeaconsComplete_4_takeover : let s := wst State.reset [(tickStatusLock, 3), (tickRankRank, 1), (tickStatusMissed, 3)]; s.flag tickStatusTk = false ∧ s.get tickStatusLock = 3 ∧ 1 ≤ s.get tickRankRank ∧ s.get tickRankRank ≤ 7 ∧ 2 + s.get tickRankRank ≤ s.get tickStatusMissed ∧ s.now = s.tick.edge := by decide
theorem witness_HoldsComplete_0_holdRequestSend : let s := wst { State.reset with tick := { TickState.reset with slots := [(5, .running)] } } [(tickStatusTk, 1), (tickStatusLock, 2), (tickHoldCtlAuto, 1), (tickPeriodCycles, 3200)]; let u := s.reach (roundDeadline s - execHoldRequestSend.holdReachOf s); inLock u = true ∧ u.tick.ext = 0 ∧ u.tick.asked = 0 ∧ u.flag tickHoldCtlAuto = true ∧ u.get fumStatusHot = 0 ∧ slotState u 5 = .running ∧ onlyClaimed u 5 = false ∧ pendingEdge u < 3000000 ∧ 0 < unitsFor u 3000000 := by decide
theorem witness_HoldsComplete_1_holdRequest : let s := wst State.reset [(tickStatusLock, 2), (tickBeaconPortDown, 8)]; let msg : List Byte := List.replicate 16 0; let u := consumeCtrl 3 2 msg (s.reach 7); leAt msg 10 1 = 0 ∧ bitOf (u.get tickBeaconPortDown) 3 = true ∧ leAt msg 0 8 = u.get tickCountCount := by decide
theorem witness_HoldsComplete_2_lateNotice : let s := wst State.reset [(tickStatusLock, 2), (tickBeaconPortDown, 8)]; let msg : List Byte := List.replicate 10 0 ++ [1] ++ List.replicate 5 0; let u := consumeCtrl 3 2 msg (s.reach 7); leAt msg 10 1 = 1 ∧ bitOf (u.get tickBeaconPortDown) 3 = true := by decide
theorem witness_HoldsComplete_3_holdRoundDeadline : let s := wst { State.reset with tick := { TickState.reset with running := true, arrived := 2 } } [(tickStatusTk, 1)]; s.flag tickStatusTk = true ∧ s.tick.running = true ∧ s.tick.roundsOver = false ∧ s.tick.tookOver = none ∧ earlierEpoch s = false ∧ s.tick.ext < min 4 s.tick.arrived ∧ min 4 s.tick.arrived ≠ 4 := by decide
theorem witness_HoldsComplete_4_holdGrant : let s := wst { State.reset with tick := { TickState.reset with heard := true, acqPort := some 3 } } [(tickStatusLock, 2)]; let msg : List Byte := List.replicate 17 0 ++ [1] ++ List.replicate 30 0; let u := consumeCtrl 3 1 msg (s.reach 7); let v := forwardBeacon 3 msg (min 9 24000) (acceptBeacon 3 msg u); beaconTaken u 3 1 msg = true ∧ bTick msg = v.get tickCountCount := by decide
theorem witness_HoldsComplete_5_verdictAccept : let s := wst { State.reset with tick := { TickState.reset with heard := true, acqPort := some 3 } } [(tickStatusLock, 2)]; let msg : List Byte := List.replicate 17 0 ++ [2] ++ List.replicate 30 0; beaconTaken (consumeCtrl 3 1 msg (s.reach 7)) 3 2 msg = true := by decide
theorem witness_HoldsComplete_6_planBankWrite : let s := State.reset; (1 : Fin 2).val ≠ activeBank s ∧ s.flag tickSwitchCtlArmed = false ∧ 0 + (List.replicate 4 (0 : Byte)).length ≤ 60 := by decide
theorem witness_HoldsComplete_7_arm : let s := wst { State.reset with tick := { TickState.reset with ok := [(1, true)] } } [(tickSwitchAtAt, 3)]; armOk true (s.set tickSwitchCtlForce 1) = true := by decide
theorem witness_NegotiationCompletes_1_capabilityPage : let u := (wst State.reset [(elvStatState 3, 2)]).reach 7; u.get (elvStatState 3) = 2 ∧ (BitVec.ofNat 16 (crc16 (leBytes 8 5))).toNat = crc16 (leBytes 8 (5 : BitVec 64).toNat) := by decide +kernel
theorem witness_NegotiationCompletes_2_capabilityPage : let u := (wst State.reset [(elvStatState 3, 3)]).reach 7; let b : BitVec 64 := 0x0100000000000000; 3 ≤ u.get (elvStatState 3) ∧ u.get (elvStatState 3) ≤ 6 ∧ (BitVec.ofNat 16 (crc16 (leBytes 8 b.toNat))).toNat = crc16 (leBytes 8 b.toNat) ∧ bits b.toNat 56 8 = (u.get (elvStatAttempt 3) + 1) % 256 := by decide +kernel
theorem witness_NegotiationCompletes_3_exchangeTimeout : let s := wst State.reset [(elvStatState 3, 2)]; s.get (elvStatState 3) = 2 := by decide
theorem witness_NegotiationCompletes_7_alignDone : let s := wst State.reset [(elvStatState 3, 4)]; s.get (elvStatState 3) = 4 := by decide
theorem witness_NegotiationCompletes_8_delayProbe : let s := wst State.reset [(elvStatState 3, 5)]; 5 ≤ s.get (elvStatState 3) ∧ s.get (elvStatState 3) ≠ 10 := by decide
theorem witness_NegotiationCompletes_9_delayReply : let s := wst State.reset [(elvStatState 3, 5)]; s.get (elvStatState 3) = 5 := by decide
theorem witness_NegotiationCompletes_10_delayReply : let s := wst State.reset [(elvStatState 3, 8)]; s.get (elvStatState 3) = 8 := by decide
theorem witness_LinkTrafficCompletes_0_flitReceive : let u := (wst State.reset [(elvStatState 3, 7)]).reach 7; let f := slice (List.replicate 252 (0 : Byte) ++ leBytes 4 (crc32c (List.replicate 252 0))) 0 256; flitsOpen u 3 = true ∧ leAt f 252 4 = crc32c (f.take 252) ∧ bits (leAt f 0 2) 12 3 < 3 := by decide +kernel
theorem witness_LinkTrafficCompletes_1_nakRepeat : let s := (wst State.reset [(elvStatState 3, 7)]).onPort 3 (fun q => { q with nakC := true }); portLive s 3 = true ∧ (s.port 3).nakC = true := by decide
theorem witness_LinkTrafficCompletes_2_nakRepeat : let s := (wst State.reset [(elvStatState 3, 7)]).onPort 3 (fun q => { q with nakD := true }); portLive s 3 = true ∧ (s.port 3).nakD = true := by decide
theorem witness_LinkTrafficCompletes_3_ackIdleSend : let s := (wst State.reset [(elvStatState 3, 7)]).onPort 3 (fun q => { q with owed := 1 }); portLive s 3 = true ∧ (s.port 3).owed ≠ 0 := by decide
theorem witness_LinkTrafficCompletes_4_ackTimeout : let s := ((wst State.reset [(elvStatState 3, 9)]).onPort 3 (fun q => { q with bufC := [[]] })).reach 7; portUp s 3 = false ∧ portLive s 3 = true ∧ (s.port 3).buf true ≠ [] ∧ portUp (((wst State.reset [(elvStatState 3, 7)]).onPort 3 (fun q => { q with bufD := [[]] })).reach 7) 3 = true := by decide
theorem witness_LinkTrafficCompletes_7_retrainDone : let s := (wst State.reset [(elvStatState 3, 8)]).onPort 3 (fun q => { q with probes := 8, rttCount := 8, rttSum := 800 }); let line : LineCheck := ⟨false, 0, 65536, false⟩; s.get (elvStatState 3) = 8 ∧ 8 ≤ (s.port 3).probes ∧ (s.port 3).rttCount ≠ 0 ∧ (s.port 3).rtt ≤ 320000 ∧ linePasses (s.flag (elvStatFec 3)) line.uncorrectable line.corrected line.received line.crcError = true := by decide
theorem witness_FabricPacketsComplete_2_readData : let s := (wst State.reset [(fabNodeIdValid, 1), (fabReqTimeoutUs, 200)]).onFab (fun f => { f with reqs := [⟨9, 1, 5, 0, 3, 0, false⟩] }); let pkt := mkPkt 0 2 5 0 0x81 0 0 9 0 []; let u := take 3 pkt s; forUs s pkt = true ∧ pktOp pkt = 0x81 ∧ u.fab.reqs.find? (fun x => x.tag == pktTag pkt && responseOp x.op == 0x81 && !reqExpired u x) = some ⟨9, 1, 5, 0, 3, 0, false⟩ := by decide
theorem witness_FabricPacketsComplete_3_writeAck : let s := (wst State.reset [(fabNodeIdValid, 1), (fabReqTimeoutUs, 200)]).onFab (fun f => { f with reqs := [⟨9, 2, 5, 0, 3, 0, false⟩] }); let pkt := mkPkt 0 2 5 0 0x82 0 0 9 0 []; let u := take 3 pkt s; forUs s pkt = true ∧ pktOp pkt = 0x82 ∧ u.fab.reqs.find? (fun x => x.tag == pktTag pkt && responseOp x.op == 0x82 && !reqExpired u x) = some ⟨9, 2, 5, 0, 3, 0, false⟩ := by decide
theorem witness_FabricPacketsComplete_4_atomicAck : let s := (wst State.reset [(fabNodeIdValid, 1), (fabReqTimeoutUs, 200)]).onFab (fun f => { f with reqs := [⟨9, 4, 5, 0, 3, 0, false⟩] }); let pkt := mkPkt 0 2 5 0 0x83 0 0 9 0 []; let u := take 3 pkt s; forUs s pkt = true ∧ pktOp pkt = 0x83 ∧ u.fab.reqs.find? (fun x => x.tag == pktTag pkt && responseOp x.op == 0x83 && !reqExpired u x) = some ⟨9, 4, 5, 0, 3, 0, false⟩ := by decide
theorem witness_MembershipCompletes_2_joinAccept : let s := wst State.reset [(fabNodeIdValid, 1), (fabStatusJoin, 1)]; let pkt := mkPkt 0 3 5 0 0x42 1 0 0 0 (List.replicate 16 1); forUs s pkt = true ∧ pktOp pkt = 0x42 ∧ (consumeAny pkt s).get fabStatusJoin < 2 := by decide
theorem witness_MembershipCompletes_3_joinRefuse : let s := wst State.reset [(fabNodeIdValid, 1), (fabStatusJoin, 2)]; let pkt := mkPkt 0 3 5 0 0x43 1 0 0 0 (List.replicate 16 1); forUs s pkt = true ∧ pktOp pkt = 0x43 := by decide
theorem witness_MembershipCompletes_9_planSeg : let s := wst State.reset [(fabNodeIdValid, 1), (fabStatusRoutes, 1)]; let pkt := mkPkt 0 3 5 0 0x47 1 0 0 0 (List.replicate 16 1); fabricOn s = true ∧ s.flag fabStatusRoutes = true ∧ pktOp pkt = 0x47 ∧ leAt pkt 16 1 = 1 := by decide
theorem witness_MembershipCompletes_11_adoptNow : let s := (wst State.reset [(fabStatusJoin, 2)]).onFab (fun f => { f with ok := [(1, true)] }); s.flag tickStatusBankEmpty = true ∧ routeOk s (standbyRoute s) = true := by decide
theorem witness_RemoteServiceCompletes_0_read : let s := wst State.reset [(fabNodeIdValid, 1), (fabStatusJoin, 5), (fabRemoteCtlMemEn, 1)]; let s := s.onFab (fun f => { f with windows := 15 }); let pkt := mkPkt 0 1 5 0 1 1 0 9 0 []; forUs s pkt = true ∧ pktOp pkt = 1 ∧ requestStatus (take 3 pkt s) pkt = 0 ∧ Served s (let r := doRead pkt (take 3 pkt s); respond (some 3) (pktSrc pkt) 0x81 (pktTag pkt) r.1 r.2.1 r.2.2) := by decide +kernel
theorem witness_RemoteServiceCompletes_1_write : let s := memberWit; let pkt := mkPkt 0 1 5 0 2 1 0 9 0 (List.replicate 16 7); forUs s pkt = true ∧ pktOp pkt = 2 ∧ requestStatus (take 3 pkt s) pkt = 0 ∧ Served s (let r := doWrite pkt (take 3 pkt s); respond (some 3) (pktSrc pkt) 0x82 (pktTag pkt) r.1 r.2.1 r.2.2) := by decide +kernel
theorem witness_RemoteServiceCompletes_2_atomicAdd : let s := memberWit; let pkt := mkPkt 0 1 5 0 3 1 0 9 0 (List.replicate 16 7); forUs s pkt = true ∧ pktOp pkt = 3 ∧ requestStatus (take 3 pkt s) pkt = 0 ∧ Served s (let r := doAtomic pkt (take 3 pkt s); respond (some 3) (pktSrc pkt) 0x83 (pktTag pkt) r.1 r.2.1 r.2.2) := by decide +kernel
theorem witness_RemoteServiceCompletes_3_fetchAdd : let s := memberWit; let pkt := mkPkt 0 1 5 0 4 1 3 9 0 (List.replicate 16 7); forUs s pkt = true ∧ pktOp pkt = 4 ∧ requestStatus (take 3 pkt s) pkt = 0 ∧ Served s (let r := doAtomic pkt (take 3 pkt s); respond (some 3) (pktSrc pkt) 0x83 (pktTag pkt) r.1 r.2.1 r.2.2) := by decide +kernel
theorem witness_CollectivesComplete_0_collectiveSlotStart : let s := calWit .sched; let u := touchDesc 0 (startSlot 0 s); let b := (slotRead u 0).1; let g := (slotRead u 0).2.1; startable s 0 0 = true ∧ s.flag calStatusOut = false ∧ slotRead u 0 = (b, g, 0) ∧ Served s (slotBegin 0 ((u.set calStatusDescReason 0).onCal (fun c => { c with descs := Tab.set [] c.descs 0 b, segs := Tab.set [] c.segs 0 g }))) := by decide +kernel
theorem witness_MemoryCompletes_0_memoryAccess : min (List.replicate 4 (0 : Byte)).length (128 - (0 : BitVec 48).toNat % 128) ≠ 0 ∧ min 4 (128 - (0 : BitVec 48).toNat % 128) ≠ 0 ∧ refusal frameWit (0 : BitVec 48).toNat = 0 := by decide
theorem witness_MemoryCompletes_1_memoryAccess : 4 ≠ 0 ∧ 4 ≤ 128 - (0 : BitVec 48).toNat % 128 ∧ refusal State.reset (0 : BitVec 48).toNat ≠ 0 := by decide
theorem witness_MemoryCompletes_2_atomicRequest : (5 : Fin 8).val < 6 ∧ atomicOk 5 (1 : BitVec 128).toNat = true ∧ refusal frameWit (0 : BitVec 48).toNat = 0 ∧ (0 : BitVec 48).toNat % atomicSize 5 = 0 := by decide
theorem witness_MemoryCompletes_3_missGrant : let s := setQueue 3 [⟨9, 0, 0, 4, [], 0, 0, none, 7, 0, false, 0⟩] (wst State.reset [(memPartCfgArb 3, 1)]); s.flag (memPartCfgArb 3) = true ∧ earliest s 3 (eligible (Tab.get [] s.mem.queue 3) []) = some ⟨9, 0, 0, 4, [], 0, 0, none, 7, 0, false, 0⟩ := by decide
theorem witness_MemoryCompletes_4_missGrant : let s := setQueue 3 [⟨9, 0, 0, 4, [], 0, 0, none, 7, 0, false, 0⟩] (wst State.reset [(memPartSplitReadPct 3, 60)]); let el := eligible (Tab.get [] s.mem.queue 3) []; s.flag (memPartCfgArb 3) = false ∧ pickClass ([0, 1, 2].filter (fun k => el.any (fun r => classOfReq r == k))) (Tab.get (0, 0, 0) s.mem.credit 3) (pctOf s 3) = some (0, (59, 0, 0)) ∧ el.find? (fun r => classOfReq r == 0) = some ⟨9, 0, 0, 4, [], 0, 0, none, 7, 0, false, 0⟩ := by decide
theorem witness_MemoryCompletes_5_regulatorIssue : let r : MReq := ⟨9, 0, 0, 4, [], 1, 0, none, 7, 0, false, 0⟩; let s := setBucket 0 8192 (setGranted 0 [r] (wst frameWit [(memPartCfgMode 0, 1)])); (Tab.get [] s.mem.granted 0).find? (fun r => channelServes s r.addr) = some r ∧ levelOk (stallCount 0 s) 0 r = true ∧ endsAtIssue r = false := by decide
theorem witness_MemoryCompletes_6_lineFillDone : let s : State := { State.reset with mem := { MemState.reset with busy := [(5, [⟨9, 0, 640, 4, [], 1, 0, none, 7, 0, false, 0⟩])], flying := [5] } }; Tab.get [] s.mem.busy (5 : BitVec 41).toNat = [⟨9, 0, 640, 4, [], 1, 0, none, 7, 0, false, 0⟩] ∧ s.mem.flying.contains (5 : BitVec 41).toNat = true ∧ onTurn s ((5 : BitVec 41).toNat * 128) [] = true := by decide
theorem witness_MemoryCompletes_7_lineFillDone : let s : State := { State.reset with mem := { MemState.reset with busy := [(5, [⟨9, 3, 640, 128, [], 1, 0, none, 7, 0, false, 0⟩])], flying := [5] } }; Tab.get [] s.mem.busy (5 : BitVec 41).toNat = [⟨9, 3, 640, 128, [], 1, 0, none, 7, 0, false, 0⟩] ∧ s.mem.flying.contains (5 : BitVec 41).toNat = true ∧ onTurn s ((5 : BitVec 41).toNat * 128) [] = true := by decide
theorem witness_MemoryCompletes_8_adderComplete : let s : State := { State.reset with mem := { MemState.reset with busy := [(5, [⟨9, 2, 640, 4, [], 1, 0, none, 7, 0, false, 0⟩])], flying := [5] } }; Tab.get [] s.mem.busy (5 : BitVec 41).toNat = [⟨9, 2, 640, 4, [], 1, 0, none, 7, 0, false, 0⟩] ∧ s.mem.flying.contains (5 : BitVec 41).toNat = true ∧ onTurn s ((5 : BitVec 41).toNat * 128) [] = true := by decide
theorem witness_MemoryCompletes_11_flushDone : let s := wst State.reset [(memPartCfgDraining 0, 1)]; s.flag (memPartCfgDraining 0) = true ∧ partBusy s 0 = false ∧ rlgUses s 0 = false := by decide
theorem witness_MemoryCareCompletes_0_scrubRead : let s := wst State.reset [(hbmCtlScrubEn 0, 1)]; s.flag (tierFld 3 hbmCtlScrubEn dtcCtlScrubEn) = true ∧ scrubStopped s 3 = false ∧ chanWaits s 3 = false := by decide
theorem witness_MemoryCareCompletes_3_remapReq : bitOf (0x2000000 : BitVec 32).toNat 25 = true := by decide
theorem witness_MemoryCareCompletes_6_tgStop : let s := wst State.reset [(hbmTgCtlBusy 0 3, 1)]; s.flag (tgCtl 3).1 = true := by decide
theorem witness_MemoryCareCompletes_7_tgDone : let s := wst State.reset [(hbmTgCtlBusy 0 3, 1)]; s.flag (tgCtl 3).1 = true := by decide
theorem witness_RowCommandsComplete_1_copy : RowNext 2 (rowWit 1) ⟨0, [leBytes 16 1], [(1, 1)], 0, false, true, 0⟩ (leBytes 16 1) ∧ rlOp (leBytes 16 1) = 1 := by decide
theorem witness_RowCommandsComplete_2_not : RowNext 2 (rowWit 2) ⟨0, [leBytes 16 2], [(1, 1)], 0, false, true, 0⟩ (leBytes 16 2) ∧ rlOp (leBytes 16 2) = 2 := by decide
theorem witness_RowCommandsComplete_3_and : RowNext 2 (rowWit 3) ⟨0, [leBytes 16 3], [(1, 1)], 0, false, true, 0⟩ (leBytes 16 3) ∧ rlOp (leBytes 16 3) = 3 := by decide
theorem witness_RowCommandsComplete_4_or : RowNext 2 (rowWit 4) ⟨0, [leBytes 16 4], [(1, 1)], 0, false, true, 0⟩ (leBytes 16 4) ∧ rlOp (leBytes 16 4) = 4 := by decide
theorem witness_RowCommandsComplete_5_xor : RowNext 2 (rowWit 5) ⟨0, [leBytes 16 5], [(1, 1)], 0, false, true, 0⟩ (leBytes 16 5) ∧ rlOp (leBytes 16 5) = 5 := by decide
theorem witness_RowCommandsComplete_6_maj : RowNext 2 (rowWit 6) ⟨0, [leBytes 16 6], [(1, 1)], 0, false, true, 0⟩ (leBytes 16 6) ∧ rlOp (leBytes 16 6) = 6 := by decide
theorem witness_RowCommandsComplete_8_accLoad : RowNext 2 (rowWit 17) ⟨0, [leBytes 16 17], [(1, 1)], 0, false, true, 0⟩ (leBytes 16 17) ∧ rlOp (leBytes 16 17) = 17 := by decide
theorem witness_RowCommandsComplete_9_accAdd : RowNext 2 (rowWit 18) ⟨0, [leBytes 16 18], [(1, 1)], 0, false, true, 0⟩ (leBytes 16 18) ∧ rlOp (leBytes 16 18) = 18 := by decide
theorem witness_RowBatchesComplete_0_rowlogicBatchStart : let s := slotWit 3; pickSlot s 3 0 = 0 ∧ startable s 3 0 = true ∧ rlBatch s ((slotOf s 0).unit % 8) = none ∧ Served s (rlAdmit (slotOf s 0).unit (slotOf s 0).desc (some 0) (startSlot 0 s)) := by decide +kernel
theorem witness_StreamProgramCompletes_8_ld64 : let s := strWit 9 6; let r := useRead (64 + 9) (insnAddr s 9 6) 8 0 0 s; InsnReady 9 s 6 ∧ insnOp 6 = 6 ∧ insnAddr s 9 6 % 8 = 0 ∧ (s.ctx 9).xlate = false ∧ r.2.1 = false ∧ Served s (strSync (strNext 9 (setA 9 (insnD 6) (leNat r.1) r.2.2.2))) := by decide +kernel
theorem witness_StreamProgramCompletes_9_emit : let s := strWit 9 16; InsnReady 9 s 16 ∧ insnOp 16 = 16 ∧ (s.ctx 9).inq.length ≤ (s.ctx 9).depth ∧ insnAddr s 9 16 % 256 = 0 ∧ (s.ctx 9).xlate = false ∧ slotsFor s 9 (reservedOnly (s.ctx 9)) true = some (0, 1) := by decide
theorem witness_StreamProgramCompletes_10_emitw : let s := wst (strWit 9 17) [(strFloorFloor 9, 2)]; InsnReady 9 s 17 ∧ insnOp 17 = 17 ∧ insnAddr s 9 17 % 256 = 0 ∧ (s.ctx 9).xlate = false ∧ (s.ctx 9).outq.length < (s.ctx 9).wdepth ∧ slotsFor s 9 true false = some (1, 0) := by decide
theorem witness_StreamContextsComplete_0_streamBatchStart : let s := memWit 0x100 strDesc (slotWit 2); let f := strFetch 0 0x100 (startSlot 0 s); pickSlot s 2 0 = 0 ∧ startable s 2 0 = true ∧ (slotOf s 0).unit = 0 ∧ (slotOf s 0).desc = 0x100 ∧ f = (f.1, false, some [31], f.2.2.2) ∧ strReason f.2.2.2 0 0x100 f.1 false (some [31]) = 0 ∧ Served s (strAdmit 0 0 0x100 f.1 [31] f.2.2.2) := by decide +kernel
theorem witness_StreamContextsComplete_2_tileReady : let t : InTile := ⟨0x400, 0, 0, 1, 0, false, [], [], false⟩; let s := (strWit 9 16).onCtx 9 (fun x => { x with inq := [t] }); let x := s.ctx 9; let r := readLines 9 x.inHint x.uses (tileDeadline s 9 0) (lineAddrs [(x.tileBytes, t.base)]) s; x.inq.findIdx? (fun t => t.held && !t.ready) = some 0 ∧ x.inq[0]? = some t ∧ t.drop = false ∧ x.xlate = false ∧ Served s (strSync (r.2.2.2.onCtx 9 (fun y => { y with refused := match r.2.2.1 with | some a => some a | none => y.refused, inq := y.inq.modify 0 (fun t => { t with ready := true, data := r.1 ++ List.replicate (x.tileBytes - r.1.length) 0xFF, poison := r.2.1 }) }))) := by decide +kernel
theorem witness_StreamContextsComplete_3_outputTileCommit : let t : OutTile := ⟨0x400, 1, [7], [], true, 0⟩; let s := (strWit 9 16).onCtx 9 (fun x => { x with outq := [t] }); let r := (lineAddrs [((s.ctx 9).tileBytes, t.base)]).zipIdx.foldl (fun acc a => let w := usePut (64 + 9) a.1 ((t.data.drop (128 * a.2)).take 128) (s.ctx 9).outHint 0 (some (outDeadline (s.ctx 9) t)) acc.2; (if w.1 ∧ acc.1.isNone then some a.1 else acc.1, (List.range 4).foldl (fun s k => if t.poison.contains (4 * a.2 + k) then nodePoisonWrite (a.1 + 32 * k) 32 s else s) w.2.2)) ((none : Option Nat), s); (s.ctx 9).outq.find? (fun t => t.full) = some t ∧ (s.ctx 9).xlate = false ∧ Served s (strSync (r.2.onCtx 9 (fun y => { y with outq := y.outq.erase t, refused := match r.1 with | some a => some a | none => y.refused }))) := by decide +kernel
theorem witness_StreamContextsComplete_5_groupDrain : let s := wst (strWit 9 24) [(strStatState 9, 3)]; membersOf s 0 ≠ [] ∧ (membersOf s 0).all (arrived s) = true := by decide
/-- A context stopped at a page that is not present, its table in three nodes and a frame in the ring at 0x500. -/
def migrateWit (n : Nat) : State :=
  memWit 0x500 [0, 0, 0x40] (memWit 0x400 [3] (memWit 0x300 [1, 4] (memWit 0x200 [1, 3] (memWit 0x100 [1, 2] (memWit 0 [1, 1, 0, 0, 0, 0, 0, 0]
    (wst (strWit 9 16) [(strStatState 9, 4), (strFaultKind 9, 3), (mmuRootAddr, 0), (strMigBaseAddr, 0x500), (strMigCtlEntries, n), (strMigHeadIndex, 1)]))))))
theorem witness_StreamContextsComplete_6_pageMigration : let s := migrateWit 1; strState s 9 = 4 ∧ s.get (strFaultKind 9) = 3 ∧ s.get (strFaultVaAddr 9) = 0 ∧ (s.ctx 9).asid = 0 ∧ pteAddr s 0 4 1 (bits (nodeNat s (s.get mmuRootAddr + 8 * 0) 8) 8 40 * 256) = some (4, 0x400) ∧ 0x500 = s.get strMigBaseAddr + 8 * (s.get strMigTailIndex % s.get strMigCtlEntries) ∧ s.get strMigCtlEntries ≠ 0 ∧ s.get strMigTailIndex ≠ s.get strMigHeadIndex ∧ bits (nodeNat s 0x500 8) 0 2 = 0 ∧ s.get strMigCtlSize = 0 := by decide +kernel
theorem witness_StreamContextsComplete_7_pageMigration : let s := migrateWit 0; pteAddr s (s.get (strFaultVaAddr 9)) 4 1 (bits (nodeNat s (s.get mmuRootAddr + 8 * (s.ctx 9).asid) 8) 8 40 * 256) = some (4, 0x400) ∧ strState s 9 = 4 ∧ s.get (strFaultKind 9) = 3 ∧ s.get strMigCtlEntries = 0 ∧ Served s (fault .stream 5 9 (s.get (strFaultVaAddr 9)) 7 none (raise (strEvtFault 9) ((s.set (strFaultKind 9) 5).set (strEvtFault 9) 0))) := by decide +kernel
theorem witness_StreamContextsComplete_10_streamResume : let s := wst (strWit 9 0) [(strStatState 9, 4)]; strState s 9 = 4 ∧ (s.ctx 9).desc ≠ [] := by decide
theorem witness_StreamContextsComplete_11_streamResume : let s := memWit 0x100 strDesc (wst { frameWit with str := { StrState.reset with ctx := [(9, { ctxEmpty with at_ := 0x100 })] } } [(strStatState 9, 5)]); let r := useRead (64 + 9) (s.ctx 9).at_ 96 0 0 s; strState s 9 = 5 ∧ (s.ctx 9).desc = [] ∧ r.2.1 = false ∧ r.2.2.1 = false ∧ leAt r.1 0 4 = 0x53545242 := by decide +kernel
theorem witness_StreamContextsComplete_13_contextRestore : let s := memWit 0 (leBytes 4 0x53544358) frameWit; let r := useRead (64 + 9) (s.get (strSaveAddrAddr 9)) 192 0 0 s; strState s 9 = 0 ∧ r.2.1 = false ∧ r.2.2.1 = false ∧ leAt r.1 0 4 = 0x53544358 := by decide +kernel
theorem witness_StreamContextsComplete_14_floorWrite : let u := State.reset; strState u 9 = 0 ∧ u.get gldStatusFloorSum + bits (5 : BitVec 32).toNat 0 13 - u.get (strFloorFloor 9) ≤ 4096 ∧ bits (5 : BitVec 32).toNat 16 13 ≤ 4096 ∧ strState (strWit 9 0) 9 ≠ 0 := by decide
/-- A context that waits for itself, with two tiles in its queue, the second holding `n` shared slots. -/
def waitWit (n : Nat) : State :=
  (wst (strWit 9 0) [(strStatState 9, 2), (strWaitforValid 9, 1), (strWaitforCtx 9, 9)]).onCtx 9 (fun x => { x with
    inq := [⟨0, 0, 1, 0, 0, true, [], [], false⟩, ⟨256, 0, 0, n, 0, true, [], [], false⟩] })
theorem witness_StreamContextsComplete_15_waitforTrace : let f := fun (s : State) => (s.reach ((s.ctx 9).since + ((s.ctx 9).traces + 1) * (if s.get gldCtlWatch = 0 then s.get tickPeriodCycles * 2 / 100 else s.get gldCtlWatch) * 625)).onCtx 9 (fun y => { y with traces := y.traces + 1 }); let z := wst (strWit 9 0) [(strStatState 9, 2)]; (strWaits z 9 = true ∧ cycleOf [] (chainFrom (f z) 513 9) = []) ∧ (strWaits (waitWit 3) 9 = true ∧ cycleOf [] (chainFrom (f (waitWit 3)) 513 9) = [9] ∧ surplus (f (waitWit 3)) 9 ≠ 0) ∧ (strWaits (waitWit 0) 9 = true ∧ cycleOf [] (chainFrom (f (waitWit 0)) 513 9) = [9] ∧ surplus (f (waitWit 0)) 9 = 0) := by decide
theorem witness_RuleMastersComplete_7_vld : RuleReady 5 (engWit 5 40) 40 ∧ ruleOp 40 = 40 ∧ Served (engWit 5 40) (ruleIssue 5 40 (fun b t => vldBeat 5 40 b t) (engWit 5 40)) := by decide +kernel
theorem witness_RuleMastersComplete_8_vst : RuleReady 5 (engWit 5 41) 41 ∧ ruleOp 41 = 41 ∧ Served (engWit 5 41) (ruleIssue 5 41 (fun b t => vstBeat 5 41 b t) (engWit 5 41)) := by decide +kernel
theorem witness_RuleMastersComplete_9_vacc : RuleReady 5 (engWit 5 42) 42 ∧ ruleOp 42 = 42 ∧ Served (engWit 5 42) (ruleIssue 5 42 (fun b t => vaccBeat 5 42 b t) (engWit 5 42)) := by decide +kernel
theorem witness_RuleMastersComplete_10_vrsum : RuleReady 5 (engWit 5 43) 43 ∧ ruleOp 43 = 43 ∧ Served (engWit 5 43) (ruleIssue 5 43 (fun b t => vrsumBeat 5 43 b t) (engWit 5 43)) := by decide +kernel
theorem witness_EnginesComplete_0_engineBatchStart : let s := slotWit 1; let x := slotOf s 0; let u := startSlot 0 s; pickSlot s 1 0 = 0 ∧ startable s 1 0 = true ∧ x.unit < 64 ∧ (s.eng x.unit).active = false ∧ borrowed s x.unit = false ∧ Served s (engAdmit x.unit x.desc (some 0) (if clusterShares s 0 then u.reach (u.tick.edge + (x.start + x.unit % 8 * 8) * 625) else u)) := by decide +kernel
theorem witness_EnginesComplete_2_engineFetch : let s := (wst (engWit 5 0) [(upeStatState 5, 2)]).onEng 5 (fun x => { x with desc := x.desc.set 9 4, pend := true }); let u := setEng 5 2 (s.bump (upeFetchCycCount 5) (fetchCycles (fetchBytes s 5 true true))); (s.eng 5).active = true ∧ engState s 5 = 2 ∧ bitOf s.coh.fenceEngines 5 = false ∧ (s.eng 5).pend = true ∧ (s.eng 5).halting = false ∧ s.get (upeQuadsCount 5) + 1 < (s.eng 5).quads ∧ unready s 5 true = none ∧ Served s (strSync (noStall 5 (readQuad 5 (writeQuad 5 u)))) := by decide +kernel
theorem witness_EnginesComplete_3_engineBatchComplete : let s := wst (engWit 5 0) [(upeStatState 5, 2), (upeQuadsCount 5, 1)]; (s.eng 5).active = true ∧ engState s 5 = 2 ∧ (s.eng 5).pend = false ∧ s.get (upeQuadsCount 5) = (s.eng 5).quads ∧ (s.eng 5).flag 2 = false ∧ (s.eng 5).flag 1 = false ∧ (s.eng 5).halting = false := by decide
theorem witness_EnginesComplete_8_derivePass : let s := deriveWit; let r : DeriveRec := ⟨0x5000, 0x6000, 0x4000, 1, 0, 0, 0, 1, 0⟩; let u := raise (upeEvtDerive 0) (deriveRun 0 r s); deriveDue s 0 = some r ∧ (s.eng 0).active = false ∧ waitingRepeats s ≠ [] ∧ Served s (if (List.range 64).any (fun k => (deriveDue u k).isSome) then u else resumeRepeats (waitingRepeats s) u) := by decide +kernel
theorem witness_MatrixAndRandomComplete_0_matrixJobStart : let s := slotWit 4; pickSlot s 4 0 = 0 ∧ startable s 4 0 = true ∧ s.mxa = none ∧ (slotOf s 0).unit = 0 ∧ Served s (mxaAdmit 0 (slotOf s 0).desc (some 0) (startSlot 0 s)) := by decide +kernel
theorem witness_MatrixAndRandomComplete_2_matrixPass : let d : List Byte := List.replicate 10 0 ++ [1, 0, 1, 0, 0, 0, 1, 0, 0, 0, 1] ++ List.replicate 107 0; let s : State := { frameWit with mxa := some ⟨d, 0, 0, 0, [], 0⟩ }; let k := passAt d 0; let a := if k.first then mxaStart d k s else ([], s); let w := mxaWeights d k a.2; let x := mxaLoads ((List.range k.rows).map (fun m => addrA d k.item (k.m0 + m) k.k0)) k.ks (mxaSize (mxaA d)) (mxaHint d 0) (mxaUses d) w.2; let acc := mxaSum d k x.1 w.1 a.1; let u := if k.last then mxaWrite d k acc x.2 else x.2; 0 < mxaTotal d ∧ Served s ((({ u with mxa := some ⟨d, 0, 0, 1, if k.last then [] else acc, 0⟩ } : State).set mxaProgressPasses 1).bump mxaMacsCount (k.rows * k.cols * k.ks)) := by decide +kernel
theorem witness_CacheRequestsComplete_0_rdS : l1Line frameWit 3 (5 : BitVec 41).toNat = none ∧ l1Room (frameWit.l1 3) (5 : BitVec 41).toNat = true ∧ engineFree frameWit 3 = true ∧ (frameWit.l1 3).reqs = [] ∧ refusal frameWit ((5 : BitVec 41).toNat * 128) = 0 := by decide
theorem witness_CacheRequestsComplete_1_rdX : l1Line frameWit 3 (5 : BitVec 41).toNat = none ∧ l1Room (frameWit.l1 3) (5 : BitVec 41).toNat = true ∧ engineFree frameWit 3 = true ∧ (frameWit.l1 3).reqs = [] ∧ refusal frameWit ((5 : BitVec 41).toNat * 128) = 0 := by decide
theorem witness_CacheRequestsComplete_2_upg : let s := wst { State.reset with coh := { CohState.reset with l1 := [(3, ⟨[(5, ⟨.s, [], 0, 0⟩)], [], [], 0⟩)] } } [(memPartCfgEnable 0, 1), (memPartRangeFrames 0, 1)]; l1Line s 3 (5 : BitVec 41).toNat = some ⟨.s, [], 0, 0⟩ ∧ engineFree s 3 = true ∧ (s.l1 3).reqs = [] ∧ refusal s ((5 : BitVec 41).toNat * 128) = 0 := by decide
theorem witness_CacheRequestsComplete_3_evict : let f := fun (n : Nat) => ({ State.reset with coh := { CohState.reset with l1 := [(3, ⟨[(5, ⟨.e, [], 0, 0⟩)], [], [], 0⟩)], snoops := [⟨5, 0, 3, n, false, 0⟩] } } : State); let g := fun (s : State) => sendMsg ⟨.evictAck, 3, sliceOf 5, 1, 5, [], 0⟩ (clearHolder 3 5 (l1Open 3 ⟨1, 5, 3, 0, []⟩ (l1Remove 3 5 s))); l1Line (f 5) 3 (5 : BitVec 41).toNat = some ⟨.e, [], 0, 0⟩ ∧ ((f 5).l1 3).reqs = [] ∧ openSnoop (g (f 5)) 3 5 = some ⟨5, 0, 3, 5, false, 0⟩ ∧ l1Line (f 6) 3 (5 : BitVec 41).toNat = some ⟨.e, [], 0, 0⟩ ∧ ((f 6).l1 3).reqs = [] ∧ openSnoop (g (f 6)) 3 5 = none := by decide
theorem witness_CacheRequestsComplete_4_wb : let f := fun (n : Nat) => l1Check 3 5 ({ State.reset with coh := { CohState.reset with l1 := [(3, ⟨[(5, ⟨.m, [], 0, 0⟩)], [], [], 0⟩)], snoops := [⟨5, 0, 3, n, false, 0⟩] } } : State); let g := fun (r : State) => let u := l1Open 3 ⟨1, 5, 4, 0, []⟩ (l1Remove 3 5 r); u.setL1 3 { u.l1 3 with wb := (u.l1 3).wb ++ [(5, [], 0)] }; l1Line (f 5) 3 (5 : BitVec 41).toNat = some ⟨.m, [], 0, 0⟩ ∧ ((f 5).l1 3).reqs = [] ∧ ((f 5).l1 3).wb.length < 8 ∧ openSnoop (g (f 5)) 3 5 = some ⟨5, 0, 3, 5, false, 0⟩ ∧ l1Line (f 6) 3 (5 : BitVec 41).toNat = some ⟨.m, [], 0, 0⟩ ∧ ((f 6).l1 3).reqs = [] ∧ ((f 6).l1 3).wb.length < 8 ∧ openSnoop (g (f 6)) 3 5 = none := by decide
/-- An L1 that holds line 5 in M, line 6 in E, line 7 in its write-back buffer and line 8 nowhere, and a snoop for line `n`. -/
def snoopWit (k : MsgKind) (n : Nat) : State :=
  { State.reset with coh := { CohState.reset with l1 := [(3, ⟨[(5, ⟨.m, [], 0, 0⟩), (6, ⟨.e, [], 0, 0⟩)], [(7, [], 0)], [], 0⟩)], net := [⟨k, 3, 2, 1, n, [], 0⟩] } }
/-- The four outcomes of a snoop: what is asked of each. -/
abbrev SnoopAsked (k : MsgKind) : Prop :=
  (∀ n ∈ [5, 6, 7, 8], nextMsg (snoopWit k n) k 3 2 1 n = some ⟨k, 3, 2, 1, n, [], 0⟩) ∧
    let u := fun n => l1Check 3 n (takeMsg ⟨k, 3, 2, 1, n, [], 0⟩ (snoopWit k n))
    l1Line (u 5) 3 5 = some ⟨.m, [], 0, 0⟩ ∧ l1Line (u 6) 3 6 = some ⟨.e, [], 0, 0⟩ ∧
      (l1Line (u 7) 3 7 = none ∧ ((u 7).l1 3).wb.find? (fun w => w.1 == 7) = some (7, [], 0)) ∧
      l1Line (u 8) 3 8 = none ∧ ((u 8).l1 3).wb.find? (fun w => w.1 == 8) = none
theorem witness_SnoopsComplete_0_snpShare : SnoopAsked .snpShare := by decide
theorem witness_SnoopsComplete_1_snpInv : SnoopAsked .snpInv := by decide
theorem witness_SnoopsComplete_2_snpDiscard : SnoopAsked .snpDiscard := by decide
theorem witness_SnoopsComplete_3_rspGone : let s : State := { State.reset with coh := { CohState.reset with net := [⟨.rspGone, 3, 2, 1, 5, [], 0⟩], snoops := [⟨2, 1, 3, 5, true, 0⟩] } }; snoopOf s 2 1 = some ⟨2, 1, 3, 5, true, 0⟩ ∧ nextMsg s .rspGone 3 2 1 (5 : BitVec 41).toNat = some ⟨.rspGone, 3, 2, 1, 5, [], 0⟩ := by decide
theorem witness_SnoopsComplete_4_rspInv : let s : State := { State.reset with coh := { CohState.reset with net := [⟨.rspInv, 3, 2, 1, 5, [], 0⟩], snoops := [⟨2, 1, 3, 5, true, 0⟩] } }; snoopOf s 2 1 = some ⟨2, 1, 3, 5, true, 0⟩ ∧ nextMsg s .rspInv 3 2 1 (5 : BitVec 41).toNat = some ⟨.rspInv, 3, 2, 1, 5, [], 0⟩ := by decide
theorem witness_SnoopsComplete_5_rspInvS : let s : State := { State.reset with coh := { CohState.reset with net := [⟨.rspInvS, 3, 2, 1, 5, [], 0⟩], snoops := [⟨2, 1, 3, 5, true, 0⟩] } }; snoopOf s 2 1 = some ⟨2, 1, 3, 5, true, 0⟩ ∧ nextMsg s .rspInvS 3 2 1 (5 : BitVec 41).toNat = some ⟨.rspInvS, 3, 2, 1, 5, [], 0⟩ := by decide
theorem witness_SnoopsComplete_6_rspData : let s : State := { State.reset with coh := { CohState.reset with net := [⟨.rspData, 3, 2, 1, 5, [], 0⟩], snoops := [⟨2, 1, 3, 5, true, 0⟩] } }; snoopOf s 2 1 = some ⟨2, 1, 3, 5, true, 0⟩ ∧ nextMsg s .rspData 3 2 1 (5 : BitVec 41).toNat = some ⟨.rspData, 3, 2, 1, 5, [], 0⟩ := by decide
theorem witness_SnoopsComplete_7_rspDataS : let s : State := { State.reset with coh := { CohState.reset with net := [⟨.rspDataS, 3, 2, 1, 5, [], 0⟩], snoops := [⟨2, 1, 3, 5, true, 0⟩] } }; snoopOf s 2 1 = some ⟨2, 1, 3, 5, true, 0⟩ ∧ nextMsg s .rspDataS 3 2 1 (5 : BitVec 41).toNat = some ⟨.rspDataS, 3, 2, 1, 5, [], 0⟩ := by decide
theorem witness_StartCompletes_4_memoryReady : let s := wst State.reset [(idBootStatPhase, 3)]; s.get idBootStatPhase = 3 ∧ s.flag memStatusReady = false := by decide
theorem witness_PowerCompletes_9_p1Entry : let u := State.reset.set fumPstateReq 2; u.flag tickStatusBankEmpty = true ∧ workRuns u = false ∧ u.get fumStatusState < 2 ∧ u.fum.transition = 0 := by decide
/-- The pieces that have come for command `c` of queue 3, written in turn. -/
def copiedIn (c : List Byte) (s : State) : Bool × State :=
  (s.queue 3).got.foldl (fun (a : Bool × State) p => if a.1 then a else
    copyWrite (bits (cmdArg0 c) 0 1) (cmdLocal c + p.1) p.2 a.2) (false, s.onQueue 3 (fun y => { y with got := [] }))
theorem witness_HostQueuesComplete_4_copyIn : let c : List Byte := leBytes 4 4 ++ leBytes 4 64 ++ leBytes 8 0 ++ leBytes 8 0 ++ leBytes 8 0 ++ leBytes 8 0 ++ leBytes 24 0; let s := { frameWit with host := { HostState.reset with queues := [(3, { qEmpty with running := some c, step := 0, got := [(0, List.replicate 8 7)] })] } }; let x := copiedIn c s; runs 3 4 s = some c ∧ cmdBad c = 0 ∧ (s.queue 3).err = 0 ∧ (s.queue 3).need = 0 ∧ Served s (if x.1 = true then ends 3 5 0 x.2 else ends 3 0 0 x.2) := by decide +kernel
theorem witness_HostQueuesComplete_5_copyOut : let c : List Byte := leBytes 4 5 ++ leBytes 4 64 ++ leBytes 8 0 ++ leBytes 8 0 ++ leBytes 8 0 ++ leBytes 8 0 ++ leBytes 24 0; let s := wst { frameWit with host := { HostState.reset with queues := [(3, { qEmpty with running := some c, step := 0 })] } } [(hstStatusUp, 1)]; let x := copyRead (bits (cmdArg0 c) 0 1) (cmdLocal c) (cmdHost c) (cmdLen c) s; runs 3 5 s = some c ∧ cmdBad c = 0 ∧ (s.queue 3).err = 0 ∧ (s.queue 3).need = 0 ∧ hostReach s = true ∧ Served s (ends 3 (if x.1 = true then 5 else if x.2.1 = true then 4 else 0) 0 x.2.2) := by decide +kernel
/-- The same with frame 0 in an enabled partition. -/
def hostWit : State := wst upWit [(memPartCfgEnable 0, 1), (memPartRangeFrames 0, 1)]
theorem witness_HostPortCompletes_5_hostMemoryRequest : barReach hostWit = true ∧ barTwoOpen hostWit = true ∧ Served hostWit (useWrite 583 (0x40 : BitVec 41).toNat [7] (hostWit.get hstCtlHint) 1 hostWit).2 := by decide +kernel
theorem witness_HostPortCompletes_6_hostMemoryRequest : let x := useRead 583 (0x40 : BitVec 41).toNat 8 (hostWit.get hstCtlHint) 1 hostWit; barReach hostWit = true ∧ barTwoOpen hostWit = true ∧ Served hostWit ((if x.2.2.1 = true then x.2.2.2.bump hstErrPoisonTx 1 else x.2.2.2).emit (.hostData x.1 x.2.2.1)) := by decide +kernel
theorem witness_RegisterAccessesComplete_1_registerWrite : barReach upWit = true ∧ sameSets (0x100058 % 2 ^ 28) [0] = [tickEvtLockLost] := by decide +kernel
theorem witness_KvServiceCompletes_3_kvWindowStart : let s := windowWit; let x := slotOf s 0; let y := useRead 577 x.desc 32 0 0 (startSlot 0 s); startable s 5 0 = true ∧ winOf s x.unit = none ∧ y.2.1 = false ∧ y.2.2.1 = false ∧ winReason y.2.2.2 x.unit y.1 false = 0 ∧ Served s (kvBorrow (let v := setWin x.unit (some ⟨0, leAt y.1 4 8, 0, bitOf (leAt y.1 12 1) 0, leAt y.1 13 1, false, []⟩) (y.2.2.2.set (kvsPoolStatWinReason x.unit) 0); v.set kvsStatusWindow (Nat.lor (v.get kvsStatusWindow) (2 ^ x.unit)))) := by decide +kernel
theorem witness_KvServiceCompletes_4_kvRequestAccept : let w : KvWin := ⟨0, 2, 2, false, 4, false, []⟩; let s := wst (setWin 0 (some w) { frameWit with tick := { TickState.reset with banks := [(68, 16)] } }) [(kvsPoolHeadIndex 0, 1)]; let x := useRead 577 (leAt (poolDesc s 0) 112 8 + 64 * (s.get (kvsPoolTailIndex 0) % kvRing (poolDesc s 0))) 64 0 0 s; winOf s 0 = some w ∧ w.ended = false ∧ s.now < winTime s w ∧ w.queue.length < w.accept ∧ s.get (kvsPoolTailIndex 0) ≠ s.get (kvsPoolHeadIndex 0) ∧ Served s ((setWin 0 (some { w with queue := w.queue ++ [x.1] }) x.2.2.2).set (kvsPoolTailIndex 0) (s.get (kvsPoolTailIndex 0) + 1)) := by decide +kernel
theorem witness_KvServiceCompletes_6_kvOpen : let s := kvWit 1; let w := { kvWin with queue := [kvReq 1] }; let r := kvReq 1; KvReady 1 0 s w r ∧ Served s (kvEnd 0 r (kvOpenDo (poolDesc (kvBorrow s) 0) r (kvBegun 0 s w r))) := by decide +kernel
theorem witness_KvServiceCompletes_7_fork : let r := kvAsk 5 0 1; let s := kvAskWit 5 0 1; let w := { kvWin with queue := [r] }; KvReady 5 0 s w r ∧ Served s (kvEnd 0 r (kvForkDo (poolDesc (kvBorrow s) 0) r (kvBegun 0 s w r))) := by decide +kernel
theorem witness_KvServiceCompletes_8_release : let s := kvWit 6; let w := { kvWin with queue := [kvReq 6] }; let r := kvReq 6; KvReady 6 0 s w r ∧ Served s (kvEnd 0 r (kvReleaseDo 0 (poolDesc (kvBorrow s) 0) r (kvBegun 0 s w r))) := by decide +kernel
theorem witness_KvServiceCompletes_9_append : ∀ x ∈ [(0xFFFF, 1), (0, 0)], let s := kvAskWit 2 x.1 x.2; let r := kvAsk 2 x.1 x.2; let w := { kvWin with queue := [r] }; let d := poolDesc (kvBorrow s) 0; let u := (kvPrepare 0 d r (kvBegun 0 s w r)).2; KvReady 2 0 s w r ∧ (kvPrepare 0 d r (kvBegun 0 s w r)).1 = none ∧ Served s (kvEnd 0 r (if rqLayer r = 0xFFFF then (kvOk false false 0, appendMeta d r (prefills (kvBegun 0 s w r) d r) u) else (kvOk (appendLayer 0 d w r u).1 false 0, (appendLayer 0 d w r u).2))) := by decide +kernel
theorem witness_KvServiceCompletes_10_attend : let s := kvAskWit 3 0 0; let r := kvAsk 3 0 0; let w := { kvWin with queue := [r] }; let d := poolDesc (kvBorrow s) 0; let u := firstFault d (rqSeq r) (rqPages (kvBegun 0 s w r) d r) false (kvBegun 0 s w r); KvReady 3 0 s w r ∧ u.1 = none ∧ Served s (kvEnd 0 r (kvAttendDo 0 d w r u.2)) := by decide +kernel
theorem witness_KvServiceCompletes_11_attendBwd : let s := kvAskWit 4 0 0; let r := kvAsk 4 0 0; let w := { kvWin with queue := [r] }; let d := poolDesc (kvBorrow s) 0; let u := firstFault d (rqSeq r) (rqPages (kvBegun 0 s w r) d r) false (kvBegun 0 s w r); KvReady 4 0 s w r ∧ u.1 = none ∧ Served s (kvEnd 0 r (kvBackDo 0 d w r u.2)) := by decide +kernel
theorem witness_KvServiceCompletes_12_kvRead : let s := kvAskWit 7 0 0; let r := kvAsk 7 0 0; let w := { kvWin with queue := [r] }; let d := poolDesc (kvBorrow s) 0; let u := firstFault d (rqSeq r) (rqPages (kvBegun 0 s w r) d r) false (kvBegun 0 s w r); KvReady 7 0 s w r ∧ u.1 = none ∧ Served s (kvEnd 0 r (kvReadDo 0 d w r u.2)) := by decide +kernel

end Sys2Proof.Tests
end

section
/-! PROOF. Host reads and writes of registers by their access codes (R2, R4, R5, R11, R12), and what power-on leaves: O3, O39, O46,
O48, O56. -/

namespace Sys2Proof.Machine

/-! ## Folds over the fields of a register -/

@[simp] theorem each_nil {α : Type} (f : α → State → State) (s : State) : State.each [] f s = s := rfl

/-- A property of states that the applications of a fold keep holds after it. -/
theorem each_keeps_of_mem {α : Type} {P : State → Prop} {f : α → State → State} {l : List α}
    (keep : ∀ b ∈ l, ∀ t, P t → P (f b t)) {s : State} (hs : P s) : P (State.each l f s) := by
  induction l generalizing s with
  | nil => exact hs
  | cons b l ih => exact ih (fun c hc => keep c (.tail b hc)) (keep b (.head l) s hs)

/-- What one application of a fold brings about and every application keeps holds after the fold. -/
theorem each_settles {α : Type} {P : State → Prop} {f : α → State → State} {l : List α} {a : α} (ha : a ∈ l)
    (hit : ∀ t, P (f a t)) (keep : ∀ b ∈ l, ∀ t, P t → P (f b t)) (s : State) : P (State.each l f s) := by
  induction l generalizing s with
  | nil => cases ha
  | cons b l ih =>
    have rest : ∀ c ∈ l, ∀ t, P t → P (f c t) := fun c hc => keep c (.tail b hc)
    rcases List.mem_cons.mp ha with rfl | ha
    · exact each_keeps_of_mem rest (hit s)
    · exact ih ha rest (f b s)

/-- Where each application of a fold writes a field of its own and the fields lie apart, a field of the list is what its own
application makes of the value it had before the fold. -/
theorem each_get_apart {α : Type} {fld : α → Fld} {f : α → State → State}
    (frame : ∀ a t (g : Fld), g.key ≠ (fld a).key → (f a t).get g = t.get g) {l : List α} (hd : (l.map (fun a => (fld a).key)).Nodup)
    {a : α} (ha : a ∈ l) (s : State) :
    ∃ t, t.get (fld a) = s.get (fld a) ∧ (State.each l f s).get (fld a) = (f a t).get (fld a) := by
  induction l generalizing s with
  | nil => cases ha
  | cons b l ih =>
    obtain ⟨hb, hd⟩ := List.nodup_cons.mp hd
    have apart : ∀ c ∈ l, (fld c).key ≠ (fld b).key := fun c hc h => hb (List.mem_map.mpr ⟨c, hc, h⟩)
    rcases List.mem_cons.mp ha with rfl | ha
    · exact ⟨s, rfl, each_keeps_of_mem (P := fun t => t.get (fld a) = (f a s).get (fld a))
        (fun c hc t ht => (frame c t _ (apart c hc).symm).trans ht) rfl⟩
    · obtain ⟨t, ht, he⟩ := ih hd ha (f b s)
      exact ⟨t, ht.trans (frame b s _ (apart a ha)), he⟩

/-- A field written at the place of another of the same reset value is read there, cut to its own width. -/
theorem get_set_same_place {f g : Fld} (v : Nat) (hk : f.key = g.key) (hr : f.reset = g.reset) (s : State) :
    (s.set g v).get f = v % 2 ^ g.width := by
  simp [State.get, State.set, hk, hr]

/-- A write of 0 to a field that resets to 0 keeps every such field that reads 0. -/
theorem get_set_zero {f g : Fld} (hf : f.reset = 0) (hg : g.reset = 0) {s : State} (h : s.get f = 0) : (s.set g 0).get f = 0 := by
  by_cases hk : f.key = g.key
  · rw [get_set_same_place 0 hk (hf.trans hg.symm), Nat.zero_mod]
  · rw [get_set_ne s 0 hk, h]

/-! ## The register map (R616) -/

/-- What the access code of a field says of its shape: an RC field resets to 0, a W1C field is one bit that resets to 0. -/
def Fld.startsClear (f : Fld) : Bool :=
  match f.acc with
  | .rc => f.reset == 0
  | .w1c => f.reset == 0 && f.width == 1
  | .ro | .rw | .wo => true

theorem Fld.reset_of_rc {f : Fld} (h : f.startsClear = true) (ha : f.acc = .rc) : f.reset = 0 := by
  simpa [Fld.startsClear, ha] using h

theorem Fld.bit_of_w1c {f : Fld} (h : f.startsClear = true) (ha : f.acc = .w1c) : f.reset = 0 ∧ f.width = 1 := by
  simpa [Fld.startsClear, ha] using h

/-- Every field of a block's registers has the shape of its access code. -/
def Block.startsClear (b : Block) : Prop := ∀ i, b.spans.all (fun p => (p.flds i).all Fld.startsClear) = true

/-- Block by block (R616): the shape of a field is the same for every register of a span. -/
theorem blockAt_startsClear (o : Nat) : ∀ b ∈ blockAt o, b.startsClear := by
  unfold blockAt
  repeat' refine iteInduction (motive := fun x : Option Block => ∀ b ∈ x, b.startsClear) (fun _ => ?_) (fun _ => ?_)
  all_goals rintro b ⟨⟩ i
  all_goals rfl

theorem regAt_startsClear {o : Nat} {r : Reg} (h : regAt o = some r) {f : Fld} (hf : f ∈ r.flds) : f.startsClear = true := by
  unfold regAt at h
  split at h
  · cases h
  · rename_i b hb
    obtain ⟨p, hp, hr⟩ := List.exists_of_findSome?_eq_some h
    obtain ⟨i, -, rfl⟩ := Option.map_eq_some_iff.mp hr
    exact List.all_eq_true.mp (List.all_eq_true.mp (blockAt_startsClear o b hb i) p hp) f hf

/-! ## Reads of a whole register (R2, R4) -/

/-- A read of `n` bytes at `o` is one access of the whole register `r`, and `r` is not RNG_SEED, whose read takes a seed word. -/
structure ReadsWhole (o n : Nat) (r : Reg) : Prop where
  fits : o < 2 ^ 28
  len : n = 4 ∨ n = 8
  aligned : o % n = 0
  window : windowOf o = none
  reg : regAt o = some r
  off : r.off = o
  size : r.size = n
  seed : o ≠ rngSeedWord.reg

/-- A read that meets no latch answers the register's value and clears its RC fields. -/
theorem regFetch_of_not_latched {r : Reg} {n : Nat} (hl : ¬(latches r = true ∧ n = 4)) (hs : r.off ≠ rngSeedWord.reg) (lo : Nat) (s : State) :
    regFetch r lo n s = (bits (regValue r s) lo (8 * n), clearRead r lo n s) := by
  have h1 : ¬(latches r = true ∧ n = 4 ∧ lo = 32 ∧ Tab.get 0 s.host.latch r.off ≠ 0) := fun h => hl ⟨h.1, h.2.1⟩
  have h2 : ¬(latches r = true ∧ n = 4 ∧ lo = 0) := fun h => hl ⟨h.1, h.2.1⟩
  simp only [regFetch, if_neg h1, if_neg h2, if_neg hs]

theorem regRead_whole {o n : Nat} {r : Reg} (w : ReadsWhole o n r) (s : State) :
    regRead o n s = (regValue r s % 2 ^ (8 * n), clearRead r 0 n s) := by
  obtain ⟨-, len, -, window, reg, rfl, size, seed⟩ := w
  have hl : ¬(latches r = true ∧ n = 4) := by rintro ⟨h, rfl⟩; simp [latches, size] at h
  have fetch : regFetch r 0 n s = (regValue r s % 2 ^ (8 * n), clearRead r 0 n s) := by
    simp [regFetch_of_not_latched hl seed, bits]
  rcases len with rfl | rfl
  · simpa [regRead, wordRead, window, reg] using fetch
  · simpa [regRead, wideAt, reg, size] using fetch

/-- The fields of a register that hardware updates with an RC read. -/
def rcFlds (r : Reg) : List Fld := r.flds.filter (fun f => f.acc == .rc && f != rngSeedWord)

theorem mem_rcFlds {r : Reg} {f : Fld} (h : f ∈ rcFlds r) : f ∈ r.flds ∧ f.acc = .rc := by
  simp only [rcFlds, List.mem_filter, Bool.and_eq_true, beq_iff_eq] at h
  exact ⟨h.1, h.2.1⟩

/-- A host read of a whole register answers its value, clears its RC fields, and then applies the updates of the same cycle. -/
theorem exec_rcRead_whole {o n : Nat} {r : Reg} (w : ReadsWhole o n r) (same : List Nat) {s : State} (hb : barReach s = true)
    (ho : regOpen s o = true) : exec (.rcRead o n same) s = done (State.each ((rcFlds r).zip same) (fun p t => rcUpdate p.1 p.2 t)
      ((clearRead r 0 n s).emit (.value (regValue r s % 2 ^ (8 * n))))) := by
  have hread : barRead o n s = (some (regValue r s % 2 ^ (8 * n)), clearRead r 0 n s) := by
    simp only [barRead, if_pos (And.intro w.len w.aligned), ho, if_true, regRead_whole w]
  simp only [exec_rcRead, execRcRead, hb, if_true, Nat.mod_eq_of_lt w.fits, hread, w.reg]
  rfl

theorem clearRead_sent (r : Reg) (lo n : Nat) (s : State) : (clearRead r lo n s).sent = s.sent :=
  each_keeps (fun t => t.sent = s.sent) _ (fun f t ht => by dsimp only; split <;> exact ht) _ s rfl

/-- Every RC field among the bytes read reads 0 after the read. -/
theorem clearRead_get {o : Nat} {r : Reg} (hr : regAt o = some r) {f : Fld} (hf : f ∈ r.flds) (ha : f.acc = .rc) {lo n : Nat}
    (hm : f.meets lo n = true) (s : State) : (clearRead r lo n s).get f = 0 := by
  have zero : ∀ g ∈ r.flds, g.acc = .rc → g.reset = 0 := fun g hg => Fld.reset_of_rc (regAt_startsClear hr hg)
  refine each_settles (P := fun t => t.get f = 0) (List.mem_filter.mpr ⟨hf, by simp [ha, hm]⟩) (fun t => ?_) (fun g hg t ht => ?_) s
  · rw [get_set_self, Nat.zero_mod]
  · obtain ⟨hg, hrc⟩ := List.mem_filter.mp hg
    refine get_set_zero (zero f hf ha) (zero g hg (beq_iff_eq.mp (Bool.and_eq_true_iff.mp hrc).1)) ?_
    split <;> exact ht

/-! ## Hardware updates of RC fields (R12) -/

/-- What an update leaves in a field that reads 0: a reading itself, or the count. -/
def updated (f : Fld) (v : Nat) : Nat :=
  if (List.range 8).any (fun k => f == hbmTempMax k) = true ∨ f = cohQueueHigh then v % 2 ^ f.width else counted f v % 2 ^ f.width

theorem rcUpdate_get_cleared {f : Fld} (v : Nat) {s : State} (h : s.get f = 0) : (rcUpdate f v s).get f = updated f v := by
  unfold rcUpdate updated
  split
  · rw [get_set_self, h, Nat.zero_max]
  · rw [get_bump_self, h, Nat.zero_add]

theorem rcUpdate_get_ne {f g : Fld} (v : Nat) (h : g.key ≠ f.key) (s : State) : (rcUpdate f v s).get g = s.get g := by
  unfold rcUpdate
  split
  · exact get_set_ne s _ h
  · exact get_bump_ne s _ h

theorem rcUpdate_sent (f : Fld) (v : Nat) (s : State) : (rcUpdate f v s).sent = s.sent := by
  unfold rcUpdate; split <;> rfl

/-- Updates of fields at different places, each of which reads 0, leave each field its own. -/
theorem each_rcUpdate_get {l : List (Fld × Nat)} {s : State} (hd : (l.map (fun p => p.1.key)).Nodup) (h0 : ∀ p ∈ l, s.get p.1 = 0)
    {p : Fld × Nat} (hp : p ∈ l) : (State.each l (fun p t => rcUpdate p.1 p.2 t) s).get p.1 = updated p.1 p.2 := by
  obtain ⟨t, ht, he⟩ := each_get_apart (fun p t _ h => rcUpdate_get_ne p.2 h t) hd hp s
  exact he.trans (rcUpdate_get_cleared p.2 (ht.trans (h0 p hp)))

/-- Settles O56: the read clears every RC field to 0, and the updates, at different places, are applied to that. -/
theorem rcReadMeetsUpdate : Obligations.RcReadMeetsUpdate := by
  rintro o n same r fs s fits len aligned hb ho window reg off size seed (rfl : fs = rcFlds r) hd hlen hfit
  refine ⟨_, exec_rcRead_whole ⟨fits, len, aligned, window, reg, off, size, seed⟩ same hb ho, ?_, ?_⟩
  · exact each_keeps (fun t => t.sent = .value (regValue r s % 2 ^ (8 * n)) :: s.sent) _
      (fun p t ht => (rcUpdate_sent p.1 p.2 t).trans ht) _ _ (by rw [State.emit, clearRead_sent])
  · have places : ((rcFlds r).zip same).map (fun p => p.1.key) = (rcFlds r).map Fld.key :=
      calc ((rcFlds r).zip same).map (fun p => p.1.key)
        _ = (((rcFlds r).zip same).map Prod.fst).map Fld.key := (List.map_map (f := Prod.fst) (g := Fld.key)).symm
        _ = (rcFlds r).map Fld.key := by rw [List.map_fst_zip (Nat.le_of_eq hlen.symm)]
    refine fun p hp => each_rcUpdate_get (places ▸ hd) (fun p hp => ?_) hp
    have hf := (List.of_mem_zip hp).1
    obtain ⟨hmem, hacc⟩ := mem_rcFlds hf
    have hbits := hfit p.1 hf
    exact clearRead_get reg hmem hacc (by simp [Fld.meets]; omega) s

/-! ## W1C bits set in the cycle of a write (R11) -/

theorem sameSets_nil (o : Nat) : sameSets o [] = [] := by
  unfold sameSets; split <;> simp

theorem mem_sameSets {o : Nat} {sets : List Nat} {f : Fld} (h : f ∈ sameSets o sets) : f.reset = 0 ∧ f.width = 1 := by
  unfold sameSets at h
  split at h
  · rename_i r hr
    obtain ⟨hf, hacc⟩ := List.mem_filter.mp h
    simp only [Bool.and_eq_true, beq_iff_eq] at hacc
    exact Fld.bit_of_w1c (regAt_startsClear hr hf) hacc.1
  · cases h

/-- One-bit fields that hardware sets are set, even where two share a place. -/
theorem each_set_one_get {l : List Fld} (hl : ∀ g ∈ l, g.reset = 0 ∧ g.width = 1) {f : Fld} (hf : f ∈ l) (s : State) :
    (State.each l (fun f t => t.set f 1) s).get f = 1 % 2 ^ f.width := by
  refine each_settles (P := fun t => t.get f = 1 % 2 ^ f.width) hf (fun t => get_set_self t f 1) (fun g hg t ht => ?_) s
  by_cases hk : f.key = g.key
  · rw [get_set_same_place 1 hk ((hl f hf).1.trans (hl g hg).1.symm), (hl f hf).2, (hl g hg).2]
  · rw [get_set_ne t 1 hk, ht]

/-! ## Writes of one word (R2, R4) -/

theorem leNat_leBytes (n v : Nat) : leNat (leBytes n v) = v % 256 ^ n := by
  induction n generalizing v with
  | zero => simp [leBytes, leNat, Nat.mod_one]
  | succ n ih => rw [leBytes, leNat, ih, BitVec.toNat_ofNat, Nat.pow_succ' (m := 256), Nat.mod_mul (a := 256)]

/-- The low bits of a word taken out of a number leave none of them. -/
theorem clearBits_low_mod (x : Nat) {k j : Nat} (h : k ≤ j) : clearBits x (2 ^ j - 1) % 2 ^ k = 0 := by
  have hx : Nat.land x (2 ^ j - 1) = x % 2 ^ j := Nat.and_two_pow_sub_one_eq_mod x j
  have hm : x % 2 ^ j % 2 ^ k = x % 2 ^ k := Nat.mod_mod_of_dvd x (Nat.pow_dvd_pow 2 h)
  rw [clearBits, hx]
  exact (Nat.xor_mod_two_pow (a := x) (b := x % 2 ^ j)).trans (by rw [hm, Nat.xor_self])

/-- A bit written 1 clears a one-bit field, a bit written 0 leaves it. -/
theorem clearBits_bit (x v k : Nat) : clearBits x (bits v k 1) % 2 = if bitOf v k then 0 else x % 2 := by
  rcases Nat.mod_two_eq_zero_or_one (v / 2 ^ k) with h | h
  · simp [bits, bitOf, h, clearBits]
  · simpa [bits, bitOf, h] using clearBits_low_mod x (Nat.le_refl 1)

/-- Bytes of one word, outside reset, are one write of that word. -/
theorem wordsWrite_word (src k o : Nat) {v : Nat} {s : State} (hr : s.rst.held = false) (hv : v < 2 ^ 32) :
    wordsWrite src (k + 2) o (leBytes 4 v) s = wordWrite src o v s := by
  have hword : leAt (leBytes 4 v) 0 4 = v := (leNat_leBytes 4 v).trans (Nat.mod_eq_of_lt hv)
  have hgo : ¬((leBytes 4 v).length < 4 ∨ s.rst.held = true) := by simp [leBytes, hr]
  rw [wordsWrite, if_neg hgo]
  exact congrArg (fun x => wordWrite src o x s) hword

/-- A host write of one aligned word outside reset writes that word. -/
theorem exec_registerWrite_word {o v : Nat} {s : State} (hb : barReach s = true) (hr : s.rst.held = false) (hv : v < 2 ^ 32)
    (fits : o < 2 ^ 28) (aligned : o % 4 = 0) (ho : regOpen s o = true) :
    exec (.registerWrite o ⟨leBytes 4 v, []⟩) s = done (wordWrite 3 o v s) := by
  have hlen : (leBytes 4 v).length = 4 := rfl
  have hall : (if o < 0x100000 ∧ !regOpen s 0x100000 then min 4 (0x100000 - o) else 4) = 4 := by split <;> omega
  have hserved : writeServed o 4 = true := by simp [writeServed, aligned]
  have hwrite : barWrite 3 o (leBytes 4 v) s = wordWrite 3 o v s := by
    simp only [barWrite, ho, hlen, hserved, hall, Bool.not_true, Bool.false_eq_true, if_false, Nat.lt_irrefl]
    exact wordsWrite_word 3 30 o hr hv
  simp only [exec_registerWrite, execRegisterWrite, hb, if_true, Nat.mod_eq_of_lt fits, hwrite, sameSets_nil, each_nil]

/-- A word written at the start of a register whose write has no effect of its own stores the register's fields. -/
theorem wordWrite_stores {o : Nat} {r : Reg} (window : windowOf o = none) (reg : regAt o = some r) (off : r.off = o)
    (own : ∀ x s, ownWrite o x s = none) (effect : ∀ x t s, regEffect 3 o x t s = s) (v : Nat) (s : State) :
    wordWrite 3 o v s = storeFlds r 0 4 (mergeReg r 0 4 v s) s := by
  simp [wordWrite, window, reg, regStore, off, own, effect]

theorem sum_map_eq_zero {α : Type} {l : List α} {g : α → Nat} (h : ∀ a ∈ l, g a = 0) : (l.map g).sum = 0 := by
  induction l with
  | nil => rfl
  | cons a l ih => rw [List.map_cons, List.sum_cons, h a (.head l), ih (fun b hb => h b (.tail a hb))]

/-- What a write presents to a register without an RW field is the word written. -/
theorem mergeReg_of_no_rw {r : Reg} (h : ∀ f ∈ r.flds, (f.acc == .rw) = false) {v : Nat} (hv : v < 2 ^ 32) (s : State) :
    mergeReg r 0 4 v s = v := by
  have hcur : (r.flds.map (fun f => if f.acc == .rw then s.get f * 2 ^ f.lsb else 0)).sum = 0 :=
    sum_map_eq_zero (fun f hf => if_neg (Bool.eq_false_iff.mp (h f hf)))
  rw [mergeReg, hcur]
  simpa [clearBits] using hv

/-- The low bits of what a write of a whole word presents are those of the word. -/
theorem mergeReg_mod (r : Reg) (v : Nat) (s : State) {k : Nat} (hk : k ≤ 32) : mergeReg r 0 4 v s % 2 ^ k = v % 2 ^ k := by
  have hd : v % 2 ^ 32 % 2 ^ k = v % 2 ^ k := Nat.mod_mod_of_dvd v (Nat.pow_dvd_pow 2 hk)
  simp only [mergeReg, Nat.pow_zero, Nat.mul_one]
  rw [Nat.add_mod, clearBits_low_mod _ hk, Nat.zero_add, Nat.mod_mod, hd]

/-! ## One register of each access code (R2) -/

/-- ID_BOOT_CTL, an RW register of the identity block. -/
def bootCtlReg : Reg := ⟨0x38, 4, [idBootCtlSlotPref]⟩

/-- TICK_EVT, whose fields are W1C. -/
def tickEvtReg : Reg := ⟨0x100058, 4, [tickEvtLockLost, tickEvtSwitchMismatch, tickEvtTakeover, tickEvtLate]⟩

/-- ID_PART, a 64-bit RO register. -/
def partReg : Reg := ⟨0x10, 8, [idPartCode]⟩

/-- ID_BOOT_DROPS, an RC register. -/
def bootDropsReg : Reg := ⟨0x24, 4, [idBootDropsWrites]⟩

/-- RST_CTL, whose fields are WO. -/
def rstCtlReg : Reg := ⟨0x1900000, 4, [rstCtlModule, rstCtlCompute, rstCtlPlan, rstCtlKey]⟩

theorem storeFlds_bootCtl (x : Nat) (s : State) : storeFlds bootCtlReg 0 4 x s = s.set idBootCtlSlotPref (bits x 0 2) := rfl

theorem storeFlds_tickEvt (x : Nat) (s : State) : storeFlds tickEvtReg 0 4 x s =
    State.each tickEvtReg.flds (fun f t => t.set f (clearBits (t.get f) (bits x f.lsb 1))) s := rfl

theorem clearRead_bootDrops (s : State) : clearRead bootDropsReg 0 4 s = s.set idBootDropsWrites 0 := rfl

theorem clearRead_rstCtl (s : State) : clearRead rstCtlReg 0 4 s = s := rfl

theorem regValue_bootDrops (s : State) : regValue bootDropsReg s = s.get idBootDropsWrites :=
  Nat.mul_one (s.get idBootDropsWrites)

theorem regValue_rstCtl (s : State) : regValue rstCtlReg s = 0 := by
  simp [regValue, rstCtlReg, readFld, rstCtlModule, rstCtlCompute, rstCtlPlan, rstCtlKey]

theorem regOpen_of_id {o : Nat} (h : o < 0x100000) (s : State) : regOpen s o = true := by simp [regOpen, h]

/-- W1C bits at different places: each bit written 1 is cleared, each other one stays. -/
theorem each_w1c_get {l : List Fld} (hd : (l.map Fld.key).Nodup) (x : Nat) {f : Fld} (hf : f ∈ l) (hw : f.width = 1) (s : State) :
    (State.each l (fun f t => t.set f (clearBits (t.get f) (bits x f.lsb 1))) s).get f = if bitOf x f.lsb then 0 else s.get f % 2 := by
  obtain ⟨t, ht, he⟩ := each_get_apart (fld := fun f => f) (f := fun f t => t.set f (clearBits (t.get f) (bits x f.lsb 1)))
    (fun f t _ h => get_set_ne t _ h) hd hf s
  rw [he, get_set_self, hw, ht]
  exact clearBits_bit (s.get f) x f.lsb

theorem bootCtl_write (v : Nat) (s : State) :
    wordWrite 3 0x38 v s = s.set idBootCtlSlotPref (bits (mergeReg bootCtlReg 0 4 v s) 0 2) :=
  (wordWrite_stores (r := bootCtlReg) rfl rfl rfl (fun _ _ => rfl) (fun _ _ _ => rfl) v s).trans (storeFlds_bootCtl _ s)

theorem tickEvt_write {v : Nat} (hv : v < 2 ^ 32) (s : State) : wordWrite 3 0x100058 v s =
    State.each tickEvtReg.flds (fun f t => t.set f (clearBits (t.get f) (bits v f.lsb 1))) s := by
  rw [wordWrite_stores (o := 0x100058) (r := tickEvtReg) rfl rfl rfl (fun _ _ => rfl) (fun _ _ _ => rfl),
    mergeReg_of_no_rw (by decide) hv, storeFlds_tickEvt]

theorem part_write (v : Nat) (s : State) : wordWrite 3 0x10 v s = s :=
  wordWrite_stores (r := partReg) rfl rfl rfl (fun _ _ => rfl) (fun _ _ _ => rfl) v s

/-- Settles O48: the store of each written register and the clear of each read one, access code by access code. -/
theorem accessCodesAct : Obligations.AccessCodesAct := by
  intro s v hb hr hv
  have write {o : Nat} (fits : o < 2 ^ 28) (aligned : o % 4 = 0) (ho : regOpen s o = true) :=
    exec_registerWrite_word hb hr hv fits aligned ho
  refine ⟨?rw, fun ho => ?w1c, ?ro, ?rc, fun ho => ?wo⟩
  case rw =>
    refine ⟨_, write (by decide) rfl (regOpen_of_id (by decide) s), ?_⟩
    rw [bootCtl_write]
    have slot : bits (mergeReg bootCtlReg 0 4 v s) 0 2 % 2 ^ 2 = v % 2 ^ 2 := by
      rw [bits, Nat.pow_zero, Nat.div_one, Nat.mod_mod, mergeReg_mod bootCtlReg v s (by decide)]
    exact ⟨(get_set_self s idBootCtlSlotPref _).trans slot, fun f hf => get_set_ne s _ hf, rfl, rfl, rfl⟩
  case w1c =>
    refine ⟨_, write (by decide) rfl ho, ?_⟩
    rw [tickEvt_write hv]
    have bit : ∀ f ∈ tickEvtReg.flds, f.width = 1 := by decide
    refine ⟨fun f hf => each_w1c_get (by decide) v hf (bit f hf) s, fun f hf => ?_, rfl, rfl, rfl⟩
    rw [settle_get_frame]
    exact each_keeps_of_mem (P := fun t => t.get f = s.get f) (fun g hg t ht => (get_set_ne t _ (hf g hg)).trans ht) rfl
  case ro => rw [write (by decide) rfl (regOpen_of_id (by decide) s), part_write]; rfl
  case rc =>
    have whole : ReadsWhole 0x24 4 bootDropsReg := ⟨by decide, .inl rfl, rfl, rfl, rfl, rfl, rfl, by decide⟩
    refine ⟨_, exec_rcRead_whole whole [] hb (regOpen_of_id (by decide) s), ?_⟩
    rw [List.zip_nil_right, each_nil, clearRead_bootDrops, regValue_bootDrops]
    exact ⟨rfl, get_set_self s _ 0, fun f hf => get_set_ne s 0 hf, rfl, rfl⟩
  case wo =>
    have whole : ReadsWhole 0x1900000 4 rstCtlReg := ⟨by decide, .inl rfl, rfl, rfl, rfl, rfl, rfl, by decide⟩
    refine ⟨_, exec_rcRead_whole whole [] hb ho, ?_⟩
    rw [List.zip_nil_right, each_nil, clearRead_rstCtl, regValue_rstCtl]
    exact ⟨rfl, rfl⟩

/-! ## Every access completes (R2, R4, R5, R11, R12, R585) -/

/-- Settles O39: each access is its meaning's branch for a node that BAR0 reaches, and the bits that hardware sets in the cycle
of a write are set last. -/
theorem registerAccessesComplete : Obligations.RegisterAccessesComplete := by
  refine ⟨fun a d s hb => ?write, ?writeSet, ?read, ?readUpdate, fun a s hb => if_pos hb⟩
  case write =>
    simp only [exec_registerWrite, execRegisterWrite, hb, if_true, sameSets_nil, each_nil]
    rfl
  case writeSet =>
    rintro a w fs s t hb rfl rfl
    exact ⟨if_pos hb, fun f hf => each_set_one_get (fun g hg => mem_sameSets hg) hf _⟩
  case read =>
    rintro a n s u hb rfl
    simp only [exec_rcRead, execRcRead, hb, if_true, List.zip_nil_right, each_nil]
    rfl
  case readUpdate =>
    intro a n v s r f hb hr hf
    simp only [exec_rcRead, execRcRead, hb, if_true, hr, hf]
    rfl

/-! ## The latch of a 64-bit register (R5, R405) -/

/-- A node outside reset and the bring-up window whose noise source is ready and holds the seed word 1. -/
def seedHeld : State :=
  { State.reset with
    regs := [(idBootStatWindow.key, 0), (rngStatusReady.key, 1)]
    rng := { RngState.reset with words := [1] }
    rst := { RstState.reset with held := false }
    host := { HostState.reset with answers := true } }

/-- RNG_SEED, a 64-bit register whose one field is RC. -/
def rngSeedReg : Reg := ⟨0x1600008, 8, [rngSeedWord]⟩

/-- A read of RNG_SEED answers the seed word held (R405), which no register field shows. -/
theorem seedHeld_read : ∃ t, exec (.latchedLowWordRead 0x1600008) seedHeld = .next t ∧ t.sent = [.value 1] := ⟨_, rfl, rfl⟩

theorem regValue_seedHeld : regValue rngSeedReg seedHeld = 0 := rfl

/-- Refutes O46: RNG_SEED is a 64-bit register whose only field is RC, and the read of its low word answers the low half of the
next seed word, here 1, not of the register's value, here 0. -/
theorem not_highWordLatched : ¬ Obligations.HighWordLatched := by
  intro h
  obtain ⟨t, ht, hsent, -⟩ := h 0x1600008 rngSeedReg seedHeld (by decide) rfl rfl rfl rfl rfl rfl rfl rfl rfl
  obtain ⟨u, hu, hseed⟩ := seedHeld_read
  obtain rfl : u = t := by rw [hu] at ht; injection ht
  rw [hseed, regValue_seedHeld] at hsent
  exact absurd hsent (by decide)

/-! ## Power-on (R6, R469, R498, R549) -/

/-- With no line cached and no byte listed, every byte reads 0. -/
theorem nodeByte_reset (a : Nat) : nodeByte State.reset a = 0 := by
  simp [nodeByte, dirtyCopy, cacheByte, cached, tierByte, memDflt, noLine, State.reset, MemState.reset]

/-- Settles O3: the table of fields is empty, so each reads its reset value, and so is that of the bytes. -/
theorem resetLeaves : Obligations.ResetLeaves :=
  ⟨rfl, rfl, rfl, fun _ => rfl, rfl, rfl, rfl, rfl, rfl, rfl, nodeByte_reset⟩

end Sys2Proof.Machine
end

section
/-! PROOF. The fabric tick (chapter 01): the timer and its beacons, holds and verdicts, arming and disarming: O7, O8, O57. -/

namespace Sys2Proof.Machine

/-- Which of two states is settled may be chosen before or after. -/
theorem done_ite (c : Prop) [Decidable c] (s t : State) : done (if c then s else t) = if c then done s else done t := apply_ite done c s t

/-! ## Disarming (R36) -/

theorem disarm_of_not_committed {s : State} (h : s.flag tickSwitchCtlCommitted = false) : disarm s = s.set tickSwitchCtlArmed 0 := by
  simp only [disarm, h, Bool.false_eq_true, if_false]

theorem disarm_of_committed {s : State} (h : s.flag tickSwitchCtlCommitted = true) : disarm s = s := if_pos h

theorem exec_disarm_of_not_committed {s : State} (h : s.flag tickSwitchCtlCommitted = false) :
    exec .disarm s = .next (settle (s.set tickSwitchCtlArmed 0)) := by
  rw [exec_disarm, execDisarm, disarm_of_not_committed h, done_eq]

/-- Settles O57: before the commit DISARM is one write of ARMED, and after it none. -/
theorem disarmUntilCommitted : Obligations.DisarmUntilCommitted := by
  refine fun s => ⟨fun h => ⟨_, exec_disarm_of_not_committed h, ?_, fun f hf => ?_, rfl, rfl⟩, fun h => ?_⟩
  · rw [settle_get_frame, get_set_self, Nat.zero_mod]
  · rw [settle_get_frame, get_set_ne s 0 hf]
  · rw [exec_disarm, execDisarm, disarm_of_committed h, done_eq]

/-! ## Beacons and lock (R19, R21, R24, R25) -/

/-- A source that is not fresh starts no lock at a LOCKED node, so its beacon is accepted, forwarded and timed. -/
theorem exec_beaconReceive_of_locked {s u : State} {p : Fin 16} {msg : List Byte} {at_ : Nat} (fwd : Nat) (replayed : Bool)
    (hu : u = consumeCtrl p.val 1 msg (s.reach at_)) (kind : bKind msg = 0) (own : ownBeacon u msg = false)
    (port : beaconPortOk u p.val (bRank msg) = true) (source : sourceOk u msg = true) (lock : u.get tickStatusLock = 2)
    (fresh : freshSource u msg = false) :
    exec (.beaconReceive p msg at_ fwd replayed) s = .next (settle (forwardBeacon p.val msg (min fwd 24000)
      (tickBeacon msg (at_ - (bAcc msg + u.get (tickLinkDelayPs p.val))) (!replayed) (acceptBeacon p.val msg u)))) := by
  have start : (!replayed && (u.get tickStatusLock == 0 ||
      (freshSource u msg && (u.get tickStatusLock == 1 || u.flag tickStatusBankEmpty)) ||
      (u.get tickStatusLock == 1 && betterPort u p.val (bHops msg)))) = false := by simp [lock, fresh]
  have taken : ¬(bKind msg ≠ 0 ∨ ownBeacon u msg = true ∨ (!beaconPortOk u p.val (bRank msg)) = true ∨ (!sourceOk u msg) = true) := by
    simp [kind, own, port, source]
  have unlocked : ¬ u.get tickStatusLock ≤ 1 := by omega
  simp only [exec_beaconReceive, execBeaconReceive, ← hu, start, if_neg taken, unlocked, false_and, if_false, Bool.false_eq_true,
    Bool.not_false, Bool.and_true, done_eq]

/-- A LOCKED node whose reference needs no relock counts the missed beacon at the next edge and goes to HOLDOVER. -/
theorem exec_beaconMiss_of_locked {s : State} (tk : s.flag tickStatusTk = false) (lock : s.get tickStatusLock = 2)
    (seen : s.tick.seen ≤ s.get tickCountCount) (source : s.get idClkStatSource = 0) :
    exec .beaconMiss s = .next (settle ((((s.reach (pendingEdge s)).set tickStatusMissed (min (s.get tickStatusMissed + 1) 31)).onTick
      (fun t => { t with seen := s.get tickCountCount + 1, inPhase := 0, outPhase := 0 })).set tickStatusLock 3)) := by
  have silent : ¬(s.flag tickStatusTk = true ∨ s.get tickStatusLock = 0 ∨ s.get tickCountCount < s.tick.seen) := by
    simp [tk, lock, seen]
  have steady : ¬(s.get idClkStatSource ≠ 0 ∧ s.get idClkStatSource ≠ 3 ∧ ¬s.flag idClkStatLocked = true) := fun h => h.1 source
  simp only [exec_beaconMiss, execBeaconMiss, if_neg silent, if_neg steady, reach_get_frame, if_pos lock, done_eq]

/-! ## Holds, grants and verdicts (R38 to R43, R157) -/

/-- A round that has gathered more units than are granted, and fewer than the 4 that end the rounds, ends in a grant. -/
theorem exec_holdRoundDeadline_of_grown {s : State} (tk : s.flag tickStatusTk = true) (run : s.tick.running = true)
    (more : s.tick.roundsOver = false) (kept : s.tick.tookOver = none) (epoch : earlierEpoch s = false)
    (grown : s.tick.ext < min 4 s.tick.arrived) (few : min 4 s.tick.arrived ≠ 4) :
    exec .holdRoundDeadline s = .next (settle (launchBeacon 1 0 ((s.reach (roundDeadline s)).onTick (fun x => { x with
      ext := min 4 s.tick.arrived, round := x.round + 1, arrived := max x.arrived x.arrivedNext, arrivedNext := 0 })))) := by
  have same : earlierEpoch (s.reach (roundDeadline s)) = false := epoch
  have fresh : ¬(s.tick.tookOver = some ((s.reach (roundDeadline s)).get tickCountCount) ∨ min 4 s.tick.arrived ≤ s.tick.ext) := by
    rw [kept]
    simpa using grown
  simp only [exec_holdRoundDeadline, execHoldRoundDeadline, tk, run, more, same, reach_tick_frame, if_neg fresh, if_neg few,
    Bool.not_true, Bool.false_eq_true, or_self, if_false, done_eq]

/-- One running item that is late asks for the units it needs, as the first request of the tick, where no stack is hot and Fumarole
adds nothing. -/
theorem exec_holdRequestSend_of_late {s u : State} {i e : Nat} (hu : u = s.reach (roundDeadline s - execHoldRequestSend.holdReachOf s))
    (lock : inLock u = true) (ext : u.tick.ext = 0) (asked : u.tick.asked = 0) (auto : u.flag tickHoldCtlAuto = true)
    (hot : u.get fumStatusHot = 0) (running : slotState u i = .running) (claimed : onlyClaimed u i = false)
    (late : pendingEdge u < e) (units : 0 < unitsFor u e) :
    exec (.holdRequestSend [(i, e)] []) s = .next (settle (
      let v := (u.bump tickHoldStatRequests 1).onTick (fun x => { x with asked := x.ext + 1 })
      if v.flag tickStatusTk then takeTotal (unitsFor u e) v.now v else sendUp (holdMsg v 0 (unitsFor u e)) v)) := by
  have live : [(i, e)].filter (fun x => (slotState u x.1 == .sched || slotState u x.1 == .running) && !onlyClaimed u x.1) = [(i, e)] := by
    simp [running, claimed]
  have last : latest [(i, e)] = e := Nat.zero_max e
  have asks : ¬((!inLock u) = true ∨ 4 ≤ u.tick.ext ∨ u.tick.ext + 1 ≤ u.tick.asked ∨ unitsFor u e ≤ u.tick.ext) := by
    simp only [lock, ext, asked, Bool.not_true, Bool.false_eq_true, false_or]
    omega
  have sequencer : ¬ 0 = unitsFor u e := by omega
  simp only [exec_holdRequestSend, execHoldRequestSend, ← hu, live, last, auto, late, hot, and_self, if_true, ne_eq,
    not_true, false_and, if_false, Nat.max_zero, if_neg asks, if_neg sequencer, ← done_eq, done_ite]

/-- A grant for the current tick moves the pending edge to the larger total. -/
theorem takeGrant_current (s : State) (ext : Nat) :
    takeGrant (s.get tickCountCount) ext s = s.onTick (fun x => { x with ext := max x.ext ext }) := by
  simp only [takeGrant, if_true]

/-! ## Plan banks and arming (R29, R33) -/

/-- Bytes below the last word of the header are stored in the standby bank and start no check, whatever number of slots it names:
the last word of a plan lies no lower. -/
theorem planWrite_of_header {s : State} {b o : Nat} {bs : List Byte} (standby : b ≠ activeBank s)
    (disarmed : s.flag tickSwitchCtlArmed = false) (header : o + bs.length ≤ 60) :
    planWrite b o bs s = s.onTick (fun x => { x with
      banks := bs.zipIdx.foldl (fun m y => if o + y.2 < 65536 then Tab.set 0 m (b * 65536 + o + y.2) y.1 else m) x.banks
      ok := Tab.set false x.ok b false }) := by
  have short (n : Nat) : ¬(o ≤ 60 + 32 * n ∧ 60 + 32 * n < o + bs.length) := by omega
  simp only [planWrite, if_neg standby, disarmed, Bool.false_eq_true, if_false, if_neg (short _)]

/-! ## The tick's commands -/

/-- Settles O7: each command's guards leave one branch of its meaning; a LOCKED node's beacon starts no lock, and the counts of a
missed one fit their fields. -/
theorem tickBeaconsComplete : Obligations.TickBeaconsComplete := by
  refine ⟨fun s tel run => ?tickEdge, fun s u p msg at_ fwd replayed => exec_beaconReceive_of_locked fwd replayed,
    fun s tk lock seen source => ?beaconMiss, fun s tk lock lost => ?lockLost, fun s tk lock low high missed edge => ?takeover⟩
  case tickEdge =>
    simp only [exec_tickEdge, execTickEdge, run, Bool.not_true, Bool.false_eq_true, if_false, done_eq]
  case beaconMiss =>
    refine ⟨_, exec_beaconMiss_of_locked tk lock seen source, ?_, ?_, rfl, rfl⟩
    · exact get_set_self _ tickStatusLock 3
    · rw [settle_get_frame, get_set_ne _ _ (by decide), onTick_get_frame, get_set_self]
      exact Nat.mod_eq_of_lt (Nat.lt_succ_of_le (Nat.min_le_right _ _))
  case lockLost =>
    have hold : (s.get tickStatusLock = 2 ∨ s.get tickStatusLock = 3) ∧ ¬s.flag tickStatusTk = true ∧
        (16 ≤ s.get tickStatusMissed ∨ 4 ≤ s.tick.outPhase) := ⟨.inr lock, by simp [tk], lost⟩
    simp only [exec_lockLost, execLockLost, if_pos hold, done_eq]
  case takeover =>
    have due : ¬(s.flag tickStatusTk = true ∨ (s.get tickStatusLock ≠ 2 ∧ s.get tickStatusLock ≠ 3) ∨ s.get tickRankRank = 0 ∨
        7 < s.get tickRankRank ∨ s.get tickStatusMissed < 2 + s.get tickRankRank ∨ s.now ≠ s.tick.edge) := by
      simp only [tk, Bool.false_eq_true, false_or]
      omega
    simp only [exec_takeover, execTakeover, if_neg due, done_eq]

/-- Settles O8: each command's guards leave one branch of its meaning; the total asked for is the late item's, a grant of the
current tick moves its edge, and bytes of a header start no check. -/
theorem holdsComplete : Obligations.HoldsComplete := by
  refine ⟨fun s u i e => exec_holdRequestSend_of_late, fun s u p msg at_ hu kind down now => ?holdRequest,
    fun s u p msg at_ hu kind down => ?lateNotice, fun s => exec_holdRoundDeadline_of_grown,
    fun s u v p msg at_ fwd hu taken hv now => ?holdGrant, fun s u p msg at_ fwd hu taken => ?verdictAccept,
    fun s b o bs standby disarmed header => ?planBankWrite, fun s ok => ?arm, fun s => exec_disarm_of_not_committed⟩
  case holdRequest =>
    simp only [exec_holdRequest, execHoldRequest, ← hu, kind, down, now, ne_eq, not_true, Bool.not_true, Bool.false_eq_true,
      or_self, if_false, ← done_eq, done_ite]
  case lateNotice =>
    simp only [exec_lateNotice, execLateNotice, ← hu, kind, down, ne_eq, not_true, Bool.not_true, Bool.false_eq_true, or_self,
      if_false, ← done_eq, done_ite]
  case holdGrant =>
    simp only [exec_holdGrant, execHoldGrant, ← hu, taken, Bool.not_true, Bool.false_eq_true, if_false, ← hv, now,
      takeGrant_current, done_eq]
  case verdictAccept =>
    simp only [exec_verdictAccept, execVerdictAccept, ← hu, taken, Bool.not_true, Bool.false_eq_true, if_false, done_eq]
  case planBankWrite => rw [exec_planBankWrite, execPlanBankWrite, planWrite_of_header standby disarmed header, done_eq]
  case arm => exact if_pos ok

end Sys2Proof.Machine
end

section
/-! PROOF. Elvuno links (chapter 02): negotiation, flits and replay, retraining and low power: O9, O10. -/

namespace Sys2Proof.Machine

/-! ## Negotiation (R63 to R69) -/

/-- A good page is taken in EXCHANGE (R63, R64). -/
theorem exec_capabilityPage_of_exchange {p : Fin 16} {l : Fin 8} {b : BitVec 64} {c : BitVec 16} {at_ : Nat} {s u : State}
    (i : Bool) (hu : u = s.reach at_) (st : u.get (elvStatState p.val) = 2) (crc : c.toNat = crc16 (leBytes 8 b.toNat)) :
    exec (.capabilityPage p l i b c at_) s = done (exchangePage p.val l.val b.toNat i u) := by
  simp only [exec_capabilityPage, execCapabilityPage, ← hu, crc, st, ne_eq, not_true, if_false, if_true]

/-- A good page of the next attempt, in a later state of this one, begins the exchange again and is taken in it (R69). -/
theorem exec_capabilityPage_of_next_attempt {p : Fin 16} {l : Fin 8} {b : BitVec 64} {c : BitVec 16} {at_ : Nat} {s u : State}
    (i : Bool) (hu : u = s.reach at_) (low : 3 ≤ u.get (elvStatState p.val)) (high : u.get (elvStatState p.val) ≤ 6)
    (crc : c.toNat = crc16 (leBytes 8 b.toNat)) (next : bits b.toNat 56 8 = (u.get (elvStatAttempt p.val) + 1) % 256) :
    exec (.capabilityPage p l i b c at_) s = done (exchangePage p.val l.val b.toNat i (nextAttempt p.val u)) := by
  have past : u.get (elvStatState p.val) ≠ 2 := by omega
  simp only [exec_capabilityPage, execCapabilityPage, ← hu, crc, past, low, high, next, ne_eq, not_true, if_false, and_self, if_true]

/-- A write of ENABLE leaves the power state alone. -/
theorem get_fumStatusState_set_enable (s : State) (p : Fin 16) (v : Nat) :
    (s.set (elvCfgEnable p.val) v).get fumStatusState = s.get fumStatusState := by
  have apart : fumStatusState.key ≠ (elvCfgEnable p.val).key := by
    have := p.isLt
    simp only [Fld.key, fumStatusState, elvCfgEnable]
    omega
  exact get_set_ne s v apart

/-- With FEC, a line with no uncorrectable codeword passes R68 when the corrected symbols are few enough. -/
theorem linePasses_of_fec {c r : Nat} (few : c * 65536 ≤ r) (uncorrectable crcError : Bool) :
    linePasses true uncorrectable c r crcError = !uncorrectable := by
  simp [linePasses, few]

/-- Settles O9: each command's guards leave one branch of its meaning. A page with no inversion is exchangePage written out, and
in MEASURE the reply is counted before the mean is judged. -/
theorem negotiationCompletes : Obligations.NegotiationCompletes := by
  refine ⟨fun p s st => if_pos st, fun p l b c at_ s u hu st crc => exec_capabilityPage_of_exchange false hu st crc,
    fun p l i b c at_ s u hu low high crc next => exec_capabilityPage_of_next_attempt i hu low high crc next,
    fun p s st => if_pos st, fun p l s st => ?trainingDone, fun p l s st => if_pos st, fun p l s st => if_pos st,
    fun p l s st => ?alignDone, fun p tx turn s low up => ?delayProbe, fun p echo turn ret s u st hu => ?delayReplyMeasure,
    fun p echo turn ret s st => if_pos st, fun p s st => if_pos st, fun p c r e l s st fec few => ?verifyEnd,
    fun p s st on power => ?downBackoff, fun p s st power => ?portEnable⟩
  case trainingDone =>
    have training : ¬s.get (elvStatState p.val) ≠ 3 := not_not_intro st
    exact ⟨if_neg training, if_neg training⟩
  case alignDone => exact if_neg (not_not_intro st)
  case delayProbe =>
    have answers : ¬(false = true ∨ s.get (elvStatState p.val) < 5 ∨ s.get (elvStatState p.val) = 10) := by
      simp only [Bool.false_eq_true, false_or]
      omega
    exact if_neg answers
  case delayReplyMeasure =>
    have notRetrain : s.get (elvStatState p.val) ≠ 8 := by omega
    have measure : ¬s.get (elvStatState p.val) ≠ 5 := not_not_intro st
    simp only [exec_delayReply, execDelayReply, if_neg notRetrain, if_neg measure, ← hu, ← done_eq, done_ite]
  case verifyEnd =>
    have verify : ¬s.get (elvStatState p.val) ≠ 6 := not_not_intro st
    simp only [exec_verifyEnd, execVerifyEnd, if_neg verify, fec, linePasses_of_fec few, Bool.not_false, Bool.not_true,
      Bool.false_eq_true, if_true, if_false, done_eq, and_self]
  case downBackoff =>
    have down : ¬s.get (elvStatState p.val) ≠ 10 := not_not_intro st
    exact (if_neg down).trans (if_pos ⟨on, power⟩)
  case portEnable =>
    have leaves : s.get (elvStatState p.val) = 0 ∧ (s.set (elvCfgEnable p.val) 1).get fumStatusState ≠ 3 := by
      rw [get_fumStatusState_set_enable]
      exact ⟨st, power⟩
    exact if_pos leaves

/-! ## Flits and replay (R71 to R76) -/

/-- A good flit on an open port, in no codeword that needs counting: its header is taken, and its content where it is
sequenced. -/
theorem exec_flitReceive_of_good {p : Fin 16} {flit f : List Byte} {at_ : Nat} {s u : State} (hf : f = slice flit 0 256)
    (hu : u = s.reach at_) (opened : flitsOpen u p.val = true) (crc : leAt f 252 4 = crc32c (f.take 252))
    (typ : bits (leAt f 0 2) 12 3 < 3) :
    exec (.flitReceive p flit [] at_) s = .next (settle (if bits (leAt f 0 2) 12 3 = 0 then takeHeader p.val f u
      else takeSequenced p.val (bits (leAt f 0 2) 12 3 == 2) f (takeHeader p.val f u))) := by
  have known : ¬3 ≤ bits (leAt f 0 2) 12 3 := by omega
  have uncounted : countFec p.val [] u = u := each_nil _ u
  simp only [exec_flitReceive, execFlitReceive, ← hf, ← hu, opened, crc, uncounted, bne_self_eq_false, List.any_nil, Bool.and_false,
    Bool.or_false, Bool.not_true, Bool.false_eq_true, if_false, ite_self, if_neg known, ← done_eq, done_ite]

/-- An episode with flits outstanding exhausts the budget when its window closes (R76). -/
theorem closeEpisode_of_outstanding {p : Nat} {s : State} (out : (s.port p).epOutD ≠ 0 ∨ (s.port p).epOutC ≠ 0) :
    closeEpisode p s = exhaust p s := by
  have left : ¬((s.port p).epOutD = 0 ∧ (s.port p).epOutC = 0) := by omega
  exact if_neg left

/-- An episode whose flits are all acknowledged succeeds when its window closes (R76, R89). -/
theorem closeEpisode_of_acknowledged {p : Nat} {s : State} (data : (s.port p).epOutD = 0) (ctrl : (s.port p).epOutC = 0) :
    closeEpisode p s = lpDelayed p (s.onPort p (fun q => { q with epOpen := false, epReplays := 0 })) :=
  if_pos ⟨data, ctrl⟩

/-- The window of an open episode closes 1,500 ns after its first replay. -/
theorem exec_episodeWindowClose_of_open {p : Fin 16} {s : State} (opened : (s.port p.val).epOpen = true) :
    exec (.episodeWindowClose p) s = done (closeEpisode p.val (s.reach ((s.port p.val).epStart + 1500000))) := by
  simp only [exec_episodeWindowClose, execEpisodeWindowClose, opened, Bool.not_true, Bool.false_eq_true, if_false]

/-! ## Retraining (R78, R79) -/

/-- A port that is not retraining begins to, and with no fault code nothing is reported. -/
theorem claimAndRetrain_unreported {p : Nat} {s : State} (st : s.get (elvStatState p) ≠ 8) (cause : Nat) :
    claimAndRetrain p cause 0 s = enterRetrain p (claimRetraining p cause s) := by
  simp only [claimAndRetrain, if_neg st, if_true]

/-- Settles O10: each command's guards leave one branch of its meaning, once the message it is for is taken off its port or the
clock has moved to its time. -/
theorem linkTrafficCompletes : Obligations.LinkTrafficCompletes := by
  refine ⟨fun p flit f at_ s u => exec_flitReceive_of_good, fun p s live nak => if_pos ⟨live, nak⟩,
    fun p s live nak => if_pos ⟨live, nak⟩, fun p s live owed => if_pos ⟨live, owed⟩,
    fun p c at_ s sends unacked => if_pos ⟨sends, unacked⟩, fun p s opened out => ?windowExhausts,
    fun p s opened data ctrl => ?windowSucceeds, fun p line s st probes counted short passes => ?retrainDone,
    fun p s st => if_neg (not_not_intro st), fun p c r s above => if_pos above, fun p s st => ?retrain, fun p s => rfl,
    fun p s notDisabled notDown on => ?renegotiate, fun p s u hu up closed => ?lpRequest, fun p s u hu up => ?lpAcknowledge,
    fun p s u hu st => ?lpExit, fun p c s u hu notDisabled notDown => ?quit⟩
  case windowExhausts => exact (exec_episodeWindowClose_of_open opened).trans (congrArg done (closeEpisode_of_outstanding out))
  case windowSucceeds => exact (exec_episodeWindowClose_of_open opened).trans (congrArg done (closeEpisode_of_acknowledged data ctrl))
  case retrainDone =>
    have measured : ¬(s.get (elvStatState p.val) ≠ 8 ∨ (s.port p.val).probes < 8 ∨ (s.port p.val).rttCount = 0) := by omega
    have good : ¬(320000 < (s.port p.val).rtt ∨
        (!linePasses (s.flag (elvStatFec p.val)) line.uncorrectable line.corrected line.received line.crcError) = true) := by
      simpa [passes] using short
    exact (if_neg measured).trans (if_neg good)
  case retrain =>
    have up : s.get (elvStatState p.val) ≠ 8 := by omega
    rw [exec_retrain, execRetrain, if_pos (.inl st), claimAndRetrain_unreported up, done_eq]
  case renegotiate =>
    simp only [exec_renegotiate, execRenegotiate, if_neg notDisabled, if_neg notDown, on, if_true, done_eq]
  case lpRequest =>
    simp only [exec_lpRequest, execLpRequest, ← hu, up, closed, Bool.false_eq_true, if_true, if_false, done_eq]
  case lpAcknowledge => simp only [exec_lpAcknowledge, execLpAcknowledge, ← hu, up, if_true, done_eq]
  case lpExit => simp only [exec_lpExit, execLpExit, ← hu, st, if_true, done_eq]
  case quit =>
    have active : ¬(u.get (elvStatState p.val) = 0 ∨ u.get (elvStatState p.val) = 10) := not_or_intro notDisabled notDown
    simp only [exec_quit, execQuit, ← hu, if_neg active, done_eq]

end Sys2Proof.Machine
end

section
/-! PROOF. A write with hint STREAM at the memory-side cache (chapter 05, R437), on which the remote WRITE rests: what the way to
the tier leaves alone, and where the bytes then stand. -/

namespace Sys2Proof.Machine

/-! ## Channels that an address decodes to (R181 to R184) -/

theorem sum_bits_lt {f : Nat → Nat} (h : ∀ i, f i < 2) (n : Nat) : ((List.range n).map (fun i => f i * 2 ^ i)).sum < 2 ^ n := by
  induction n with
  | zero => simp
  | succ n ih =>
    have bit : f n * 2 ^ n ≤ 1 * 2 ^ n := Nat.mul_le_mul_right _ (Nat.le_of_lt_succ (h n))
    simp only [List.range_succ, List.map_append, List.sum_append, List.map_cons, List.map_nil, List.sum_cons, List.sum_nil,
      Nat.pow_succ]
    omega

theorem xorBits_lt (o : Nat) (l : List Nat) : xorBits o l < 2 := Nat.mod_lt _ (by decide)

theorem hashHbm_chan_lt (o : Nat) : (hashHbm o).chan < 256 := by
  have low := sum_bits_lt (fun i => xorBits_lt o [8 + i, 16 + i, 24 + i, 32 + i]) 6
  have b6 := xorBits_lt o [8 + 6, 16 + 6, 24 + 6]
  have b7 := xorBits_lt o [8 + 7, 16 + 7, 24 + 7]
  simp only [hashHbm, List.map_cons, List.map_nil, List.sum_cons, List.sum_nil]
  omega

theorem hashDeep_chan_lt (o : Nat) : (hashDeep o).chan < 32 :=
  sum_bits_lt (fun i => xorBits_lt o [8 + i, 13 + i, 18 + i, 23 + i, 28 + i, 33 + i]) 5

/-- A partition divides its frames evenly over 8 stacks, or groups of deep channels. -/
theorem share_lt {k n o : Nat} (low : k ≤ o / 2 ^ 30) (high : o / 2 ^ 30 < k + n) : (o - k * 2 ^ 30) / (n * 2 ^ 27) < 8 :=
  Nat.div_lt_of_lt_mul (by omega)

theorem contigHbm_chan_lt {k n o : Nat} (low : k ≤ o / 2 ^ 30) (high : o / 2 ^ 30 < k + n) : (contigHbm k n o).chan < 256 := by
  have stack := share_lt low high
  have pc (p : Nat) : bits p 10 5 < 32 := Nat.mod_lt _ (by decide)
  have := pc (o - k * 2 ^ 30 - (o - k * 2 ^ 30) / (n * 2 ^ 27) * n * 2 ^ 27)
  simp only [contigHbm]
  omega

theorem contigDeep_chan_lt {k n o : Nat} (low : k ≤ o / 2 ^ 30) (high : o / 2 ^ 30 < k + n) : (contigDeep k n o).chan < 32 := by
  have group := share_lt low high
  have part (p : Nat) : bits p 8 2 < 4 := Nat.mod_lt _ (by decide)
  have := part (o - k * 2 ^ 30 - (o - k * 2 ^ 30) / (n * 2 ^ 27) * n * 2 ^ 27)
  simp only [contigDeep]
  omega

/-- The partition of an address covers its frame. -/
theorem partOf_covers {s : State} {a t o p : Nat} (tier : tierOf a = some (t, o)) (h : partOf s a = some p) :
    s.get (memPartRangeFirst p) ≤ o / 2 ^ 30 ∧ o / 2 ^ 30 < s.get (memPartRangeFirst p) + s.get (memPartRangeFrames p) := by
  simp only [partOf, tier] at h
  have found := List.find?_some h
  simp only [partCovers, Bool.and_eq_true, decide_eq_true_eq] at found
  exact ⟨found.2.1.2, found.2.2⟩

/-- Channels are numbered below 256 in the HBM tier and below 32 in the deep tier. -/
theorem physChan_lt {p : Phys} (h : p.chan < if p.tier = 0 then 256 else 32) : physChan p < 288 := by
  unfold physChan
  split at h
  · rename_i hbm
    rw [if_pos hbm]
    omega
  · rename_i deep
    rw [if_neg deep]
    omega

theorem physOf_chan_lt {s : State} {a : Nat} {p : Phys} (h : physOf s a = some p) : p.chan < if p.tier = 0 then 256 else 32 := by
  unfold physOf at h
  split at h
  · rename_i t o q tier part
    obtain ⟨low, high⟩ := partOf_covers tier part
    dsimp only at h
    split at h
    · cases h
      by_cases hbm : t = 0
      · rw [if_pos hbm]; exact hashHbm_chan_lt o
      · rw [if_neg hbm]; exact hashDeep_chan_lt o
    · cases h
      by_cases hbm : t = 0
      · rw [if_pos hbm]; exact contigHbm_chan_lt low high
      · rw [if_neg hbm]; exact contigDeep_chan_lt low high
  · cases h

theorem chanOf_lt {s : State} {a c : Nat} (h : chanOf s a = some c) : c < 288 := by
  obtain ⟨p, hp, rfl⟩ := Option.map_eq_some_iff.mp h
  exact physChan_lt (physOf_chan_lt hp)

/-! ## What an access leaves alone (R185 to R190, R193) -/

/-- A register field in which no access of the cache or of a tier counts, and which no wake of P1 writes. -/
structure Steady (g : Fld) : Prop where
  stall : ∀ p, g.key ≠ (memPartStallCycles p).key
  bytes : ∀ p, g.key ≠ (memPartBytesCount p).key
  failed : ∀ c < 288, g.key ≠ (chanFld c hbmPcErrUe dtcChErrUe).key
  wake : g.key ≠ fumPstateBusy.key
  hits : g.key ≠ memCacheHitsCount.key
  misses : g.key ≠ memCacheMissesCount.key
  ncHits : g.key ≠ cohNcHitCount.key
  ncHit : g.key ≠ cohEvtNcHit.key

/-- The counts of failed answers lie at bit 16 of registers that are 64 bytes apart. -/
theorem failedCount_residue (c : Nat) : (chanFld c hbmPcErrUe dtcChErrUe).key % 512 = 16 := by
  unfold chanFld
  split
  · simp only [Fld.key, hbmPcErrUe]; omega
  · simp only [Fld.key, dtcChErrUe]; omega

/-- Bit addresses modulo the 512 bits of a partition's or a channel's registers tell fields apart whatever their index. -/
theorem steady_of_residue_of_failed {g : Fld} (h : g.key % 512 ∉ [67, 128, 160, 192, 256, 320])
    (failed : ∀ c < 288, g.key ≠ (chanFld c hbmPcErrUe dtcChErrUe).key) : Steady g := by
  have apart {f : Fld} (hf : f.key % 512 ∈ [67, 128, 160, 192, 256, 320]) : g.key ≠ f.key := fun e => h (e ▸ hf)
  exact {
    stall := fun p => apart (by simp [Fld.key, memPartStallCycles]; omega)
    bytes := fun p => apart (by simp [Fld.key, memPartBytesCount]; omega)
    failed
    wake := apart (by decide)
    hits := apart (by decide)
    misses := apart (by decide)
    ncHits := apart (by decide)
    ncHit := apart (by decide) }

theorem steady_of_residue {g : Fld} (h : g.key % 512 ∉ [16, 67, 128, 160, 192, 256, 320]) : Steady g :=
  steady_of_residue_of_failed (fun k => h (.tail 16 k)) (fun c _ e => h (by rw [e, failedCount_residue]; exact .head _))

/-- A field of registers 64 bytes apart is steady when that of the first is. -/
theorem steady_of_first (f : Nat → Fld) (i : Nat) (reg : (f i).reg = (f 0).reg + i * 0x40) (bit : (f i).lsb = (f 0).lsb)
    (h : (f 0).key % 512 ∉ [16, 67, 128, 160, 192, 256, 320]) : Steady (f i) :=
  steady_of_residue (by rwa [show (f i).key % 512 = (f 0).key % 512 by simp only [Fld.key, reg, bit]; omega])

theorem steady_selfRefresh : Steady fumStatusSelfRefresh := by
  refine steady_of_residue_of_failed (by decide) (fun c hc => ?_)
  unfold chanFld
  split
  · simp only [Fld.key, hbmPcErrUe, fumStatusSelfRefresh]; omega
  · simp only [Fld.key, dtcChErrUe, fumStatusSelfRefresh]; omega

/-- What an access of a unit at a line leaves alone: every steady register, what is open at lines and channels, and the parts of
the node that hold no memory. -/
structure Accessed (s t : State) : Prop where
  regs : ∀ g, Steady g → t.get g = s.get g := by intros; rfl
  care : t.care = s.care := by rfl
  coh : t.coh = s.coh := by rfl
  rlg : t.rlg = s.rlg := by rfl
  upe : t.upe = s.upe := by rfl
  str : t.str = s.str := by rfl
  busy : t.mem.busy = s.mem.busy := by rfl
  heldUp : t.mem.heldUp = s.mem.heldUp := by rfl
  zeroing : t.mem.zeroing = s.mem.zeroing := by rfl
  epoch : t.mem.epoch = s.mem.epoch := by rfl

theorem Accessed.trans {s t u : State} (h : Accessed s t) (k : Accessed t u) : Accessed s u where
  regs g hg := (k.regs g hg).trans (h.regs g hg)
  care := k.care.trans h.care
  coh := k.coh.trans h.coh
  rlg := k.rlg.trans h.rlg
  upe := k.upe.trans h.upe
  str := k.str.trans h.str
  busy := k.busy.trans h.busy
  heldUp := k.heldUp.trans h.heldUp
  zeroing := k.zeroing.trans h.zeroing
  epoch := k.epoch.trans h.epoch

/-- What the way to the tier leaves alone: the contents of cache and tiers too. -/
structure Passed (s t : State) : Prop extends Accessed s t where
  lines : t.mem.lines = s.mem.lines := by rfl
  cells : t.mem.cells = s.mem.cells := by rfl

theorem Passed.refl (s : State) : Passed s s := {}

theorem Passed.trans {s t u : State} (h : Passed s t) (k : Passed t u) : Passed s u where
  toAccessed := h.toAccessed.trans k.toAccessed
  lines := k.lines.trans h.lines
  cells := k.cells.trans h.cells

section
variable (s : State)

theorem ite_passed {s t u : State} {c : Prop} [Decidable c] (ht : Passed s t) (hu : Passed s u) : Passed s (if c then t else u) :=
  iteInduction (fun _ => ht) (fun _ => hu)

theorem bump_passed {f : Fld} (h : ∀ g, Steady g → g.key ≠ f.key) (n : Nat) : Passed s (s.bump f n) :=
  { regs := fun g hg => get_bump_ne s n (h g hg) }

theorem autowake_passed : Passed s (autowake s) := by
  unfold autowake
  split
  · exact { regs := fun g hg => get_set_ne s 1 hg.wake }
  · exact .refl s

theorem stallCount_passed (p : Nat) : Passed s (stallCount p s) := by
  unfold stallCount
  split
  · exact .refl s
  · exact (ite_passed (.refl s) (bump_passed s (fun g hg => hg.stall p) _)).trans {}

theorem charge_passed (a b : Nat) : Passed s (charge a b s) := by
  unfold charge
  split
  · exact .refl s
  · rename_i p _
    dsimp only
    split
    · exact (bump_passed s (fun g hg => hg.bytes p) b).trans {}
    · exact bump_passed s (fun g hg => hg.bytes p) b

theorem issue_passed (p : Nat) (r : MReq) : Passed s (issue p r s) :=
  ((stallCount_passed s p).trans {}).trans (charge_passed _ r.addr (tierCost r))

theorem waitLevel_passed (p : Nat) (r : MReq) : Passed s (waitLevel p r s) := by
  unfold waitLevel
  dsimp only
  split
  · exact .refl s
  · exact {}

theorem takeTurn_passed (a : Nat) : Passed s (takeTurn a s) := by
  unfold takeTurn
  split
  · exact {}
  · exact .refl s

/-- Whichever request is granted, only queues and credits move. -/
theorem missGrant_passed (p : Nat) : Passed s (missGrant p s) := by
  unfold missGrant
  extract_lets q el granted
  have grants : ∀ r t, Passed t (granted r t) := fun r t => by
    have moved : Passed t (setGranted p (Tab.get [] t.mem.granted p ++ [r]) (setQueue p (q.erase r) t)) := {}
    exact ite_passed (moved.trans {}) moved
  split
  · split
    · exact grants _ s
    · exact .refl s
  · split
    · exact .refl s
    · split
      · exact Passed.trans {} (grants _ _)
      · exact .refl s

theorem grantUntil_passed (p : Nat) (r : MReq) (n : Nat) : Passed s (grantUntil p r n s) := by
  induction n generalizing s with
  | zero => exact .refl s
  | succ n ih =>
    unfold grantUntil
    split
    · exact (missGrant_passed s p).trans (ih (missGrant p s))
    · exact .refl s

theorem issueUntil_passed (p : Nat) (r : MReq) (n : Nat) : Passed s (issueUntil p r n s) := by
  induction n generalizing s with
  | zero => exact .refl s
  | succ n ih =>
    unfold issueUntil
    split
    · exact .refl s
    · rename_i g _
      have issued : Passed s (issue p g (waitLevel p g s)) := (waitLevel_passed s p g).trans (issue_passed _ p g)
      dsimp only
      split
      · exact issued
      · exact (issued.trans {}).trans (ih _)

/-- A transfer whose channel serves is not held up. -/
theorem tierPass_passed {r : MReq} (serves : channelServes s r.addr = true) : Passed s (tierPass r s) := by
  unfold tierPass
  split
  · exact .refl s
  · simp only [serves, if_true]
    have queued : ∀ p l, Passed s (setQueue p l (autowake s)) := fun p l => (autowake_passed s).trans {}
    exact (((queued _ _).trans (grantUntil_passed _ _ _ _)).trans (issueUntil_passed _ _ _ _)).trans (takeTurn_passed _ _)

theorem failedAnswer_passed (a : Nat) : Passed s (failedAnswer a s) := by
  unfold failedAnswer
  split
  · split
    · rename_i c hc
      exact bump_passed s (fun g hg => hg.failed c (chanOf_lt hc)) 1
    · exact .refl s
  · exact .refl s

theorem raise_passed {f : Fld} (h : ∀ g, Steady g → g.key ≠ f.key) : Passed s (raise f s) := by
  have regs : ∀ g, Steady g → (raise f s).get g = s.get g := fun g hg => raise_ne s (h g hg)
  obtain ⟨r, parts⟩ := raise_parts s f
  rw [parts] at regs ⊢
  exact { regs }

theorem ncHit_passed (req line : Nat) : Passed s (ncHit req line s) := by
  unfold ncHit
  split
  · split
    · exact (bump_passed s (fun g hg => hg.ncHits) 1).trans (raise_passed _ (fun g hg => hg.ncHit))
    · exact .refl s
  · exact .refl s

end

/-! ## What depends on steady registers alone -/

section
variable {s t : State}

theorem flag_congr {g : Fld} (h : t.get g = s.get g) : t.flag g = s.flag g := by rw [State.flag, State.flag, h]

theorem Accessed.enable (h : Accessed s t) (p : Nat) : t.get (memPartCfgEnable p) = s.get (memPartCfgEnable p) :=
  h.regs _ (steady_of_first memPartCfgEnable p rfl rfl (by decide))

theorem Accessed.draining (h : Accessed s t) (p : Nat) : t.get (memPartCfgDraining p) = s.get (memPartCfgDraining p) :=
  h.regs _ (steady_of_first memPartCfgDraining p rfl rfl (by decide))

theorem Accessed.tier (h : Accessed s t) (p : Nat) : t.get (memPartCfgTier p) = s.get (memPartCfgTier p) :=
  h.regs _ (steady_of_first memPartCfgTier p rfl rfl (by decide))

theorem Accessed.mode (h : Accessed s t) (p : Nat) : t.get (memPartCfgMode p) = s.get (memPartCfgMode p) :=
  h.regs _ (steady_of_first memPartCfgMode p rfl rfl (by decide))

theorem Accessed.first (h : Accessed s t) (p : Nat) : t.get (memPartRangeFirst p) = s.get (memPartRangeFirst p) :=
  h.regs _ (steady_of_first memPartRangeFirst p rfl rfl (by decide))

theorem Accessed.frames (h : Accessed s t) (p : Nat) : t.get (memPartRangeFrames p) = s.get (memPartRangeFrames p) :=
  h.regs _ (steady_of_first memPartRangeFrames p rfl rfl (by decide))

theorem Accessed.power (h : Accessed s t) : t.get fumStatusState = s.get fumStatusState :=
  h.regs _ (steady_of_residue (by decide))

theorem Accessed.selfRefresh (h : Accessed s t) : t.get fumStatusSelfRefresh = s.get fumStatusSelfRefresh :=
  h.regs _ steady_selfRefresh

theorem Accessed.tempClass (h : Accessed s t) (k : Nat) : t.get (hbmTempClass k) = s.get (hbmTempClass k) :=
  h.regs _ (steady_of_residue (by simp [Fld.key, hbmTempClass]; omega))

theorem Accessed.partOf_eq (h : Accessed s t) (a : Nat) : partOf t a = partOf s a := by
  simp only [partOf, partCovers, flag_congr (h.enable _), flag_congr (h.draining _), h.tier, h.first, h.frames]

theorem Accessed.refusal_eq (h : Accessed s t) (a : Nat) : refusal t a = refusal s a := by
  simp only [refusal, h.partOf_eq, flag_congr (h.draining _)]

theorem Accessed.physOf_eq (h : Accessed s t) (a : Nat) : physOf t a = physOf s a := by
  simp only [physOf, h.partOf_eq, flag_congr (h.mode _), h.first, h.frames]

theorem Accessed.channelServes_eq (h : Accessed s t) (a : Nat) : channelServes t a = channelServes s a := by
  simp only [channelServes, h.physOf_eq, h.power, h.selfRefresh, h.tempClass, h.zeroing, remapHolds, h.care]

theorem Accessed.lineQuiet_eq (h : Accessed s t) (line : Nat) : lineQuiet t line = lineQuiet s line := by
  simp only [lineQuiet, txnOf, lineQueued, h.busy, h.coh]

theorem cached_congr (h : t.mem.lines = s.mem.lines) (line : Nat) : cached t line = cached s line := by
  simp only [cached, h]

theorem memDflt_congr (h : t.mem.epoch = s.mem.epoch) (a : Nat) : memDflt t a = memDflt s a := by
  simp only [memDflt, h]

theorem tierByte_congr (h : t.mem.cells = s.mem.cells) (e : t.mem.epoch = s.mem.epoch) (a : Nat) : tierByte t a = tierByte s a := by
  simp only [tierByte, h, memDflt_congr e]

theorem Passed.cached_eq (h : Passed s t) (line : Nat) : cached t line = cached s line := cached_congr h.lines line

theorem Passed.cacheByte_eq (h : Passed s t) (x : Nat) : cacheByte t x = cacheByte s x := by
  simp only [cacheByte, h.cached_eq, tierByte_congr h.cells h.epoch]

end

/-! ## Where the bytes of a write stand -/

/-- The bytes of `[a, a + n)`, as the memory-side cache holds them, are those of `f`, and every other byte is as before. -/
def Stored (a n : Nat) (f : Nat → Byte) (s t : State) : Prop :=
  ∀ x, cacheByte t x = if a ≤ x ∧ x < a + n then f x else cacheByte s x

theorem stored_zero (a : Nat) (f : Nat → Byte) (s : State) : Stored a 0 f s s :=
  fun _ => (if_neg (by omega)).symm

/-- Bytes stored one range after the next. -/
theorem Stored.append {a m n : Nat} {f : Nat → Byte} {s t u : State} (h : Stored a m f s t) (k : Stored (a + m) n f t u) :
    Stored a (m + n) f s u := by
  intro x
  rw [k x, h x]
  by_cases second : a + m ≤ x ∧ x < a + m + n
  · rw [if_pos second, if_pos (by omega)]
  · rw [if_neg second]
    by_cases first : a ≤ x ∧ x < a + m
    · rw [if_pos first, if_pos (by omega)]
    · rw [if_neg first, if_neg (by omega)]

theorem Stored.congr {a n : Nat} {f g : Nat → Byte} {s t : State} (h : Stored a n f s t)
    (e : ∀ x, a ≤ x → x < a + n → f x = g x) :
    Stored a n g s t := by
  intro x
  rw [h x]
  split
  · rename_i hx
    exact e x hx.1 hx.2
  · rfl

/-- Every cached line holds 128 bytes. -/
def CachedWhole (s : State) : Prop := ∀ line l, cached s line = some l → l.data.length = 128

theorem setLine_lines (line : Nat) (l : CLine) (s : State) : (s.setLine line l).mem.lines = Tab.set noLine s.mem.lines line l := rfl

theorem cached_setLine_self {l : CLine} (h : l.data ≠ []) (line : Nat) (s : State) : cached (s.setLine line l) line = some l := by
  simp only [cached, setLine_lines, Tab.get_set_self, if_neg h]

theorem cached_setLine_ne {line k : Nat} (h : k ≠ line) (l : CLine) (s : State) : cached (s.setLine line l) k = cached s k := by
  simp only [cached, setLine_lines, Tab.get_set_ne noLine s.mem.lines l h]

/-- A line written over a byte list at an offset. -/
theorem patch_getD {bs new : List Byte} {off : Nat} (fits : off + new.length ≤ bs.length) (i : Nat) :
    (patch bs new off).getD i 0 = if off ≤ i ∧ i < off + new.length then new.getD (i - off) 0 else bs.getD i 0 := by
  simp only [patch, List.getD_eq_getElem?_getD, List.getElem?_append, List.getElem?_take, List.getElem?_drop, List.length_append,
    List.length_take]
  have hmin : min off bs.length = off := by omega
  rw [hmin]
  by_cases before : i < off
  · rw [if_pos (by omega), if_pos before, if_pos before, if_neg (by omega)]
  · by_cases inside : i < off + new.length
    · rw [if_pos inside, if_neg before, if_pos (by omega)]
    · rw [if_neg inside, if_neg (by omega)]
      congr 2
      omega

theorem patch_length {bs new : List Byte} {off : Nat} (fits : off + new.length ≤ bs.length) :
    (patch bs new off).length = bs.length := by
  simp only [patch, List.length_append, List.length_take, List.length_drop]
  omega

/-- Bytes put in the tier one after the other. -/
theorem tierByte_puts (a : Nat) (bs : List Byte) (k : Nat) (s : State) (x : Nat) :
    tierByte ((bs.zipIdx k).foldl (fun t p => tierPut (a + p.2) p.1 t) s) x =
      if a + k ≤ x ∧ x < a + k + bs.length then bs.getD (x - (a + k)) 0 else tierByte s x := by
  induction bs generalizing k s with
  | nil => exact (if_neg (by simp only [List.length_nil]; omega)).symm
  | cons b bs ih =>
    rw [List.zipIdx_cons, List.foldl_cons, ih, List.length_cons]
    by_cases here : x = a + k
    · subst here
      rw [if_neg (by omega), if_pos (by omega), tierByte_put_self, Nat.sub_self, List.getD_cons_zero]
    · rw [tierByte_put_ne s b here]
      by_cases later : a + (k + 1) ≤ x ∧ x < a + (k + 1) + bs.length
      · rw [if_pos later, if_pos (by omega), show x - (a + k) = x - (a + (k + 1)) + 1 by omega, List.getD_cons_succ]
      · rw [if_neg later, if_neg (by omega)]

/-- What a byte put in the tier leaves: all but the cells. -/
theorem puts_accessed (a : Nat) (l : List (Byte × Nat)) (s : State) :
    Accessed s (l.foldl (fun t p => tierPut (a + p.2) p.1 t) s) ∧
      (l.foldl (fun t p => tierPut (a + p.2) p.1 t) s).mem.lines = s.mem.lines :=
  foldl_keeps (fun t => Accessed s t ∧ t.mem.lines = s.mem.lines) (fun t p => tierPut (a + p.2) p.1 t)
    (fun _ _ h => ⟨h.1.trans {}, h.2⟩) l s ⟨{}, rfl⟩

/-- Where no error is held, clearing the poison of whole granules changes no contents. -/
theorem clearPoison_passed {a n g : Nat} {s : State} (clean : s.care.latent = []) (l : List Nat) :
    Passed s (l.foldl (fun t i => let b := (a / g + i) * g
      let t := if t.care.latent = [] then t else setLatent b .clean t
      if a ≤ b ∧ b + g ≤ a + n then t.setPoison b false else t) s) := by
  refine foldl_keeps (Passed s) _ (fun t i h => ?_) l s (.refl s)
  have held : t.care.latent = [] := (congrArg CareState.latent h.care).trans clean
  simp only [held, if_true]
  exact ite_passed (h.trans {}) h

theorem tierWrite_accessed {s : State} (clean : s.care.latent = []) (a : Nat) (bs : List Byte) :
    Accessed s (tierWrite a bs s) ∧ (tierWrite a bs s).mem.lines = s.mem.lines ∧
      ∀ x, tierByte (tierWrite a bs s) x = if a ≤ x ∧ x < a + bs.length then bs.getD (x - a) 0 else tierByte s x := by
  obtain ⟨put, lines⟩ := puts_accessed a bs.zipIdx s
  have poison := clearPoison_passed (a := a) (n := bs.length) (g := granule a) ((congrArg CareState.latent put.care).trans clean)
    (List.range ((a + bs.length - 1) / granule a - a / granule a + 1))
  exact ⟨put.trans poison.toAccessed, poison.lines.trans lines,
    fun x => (tierByte_congr poison.cells poison.epoch x).trans (tierByte_puts a bs 0 s x)⟩

/-! ## One line -/

/-- No error is held, no remap is due and no row-logic range is watched. -/
structure Calm (s : State) : Prop where
  cover : s.rlg.cover = []
  latent : s.care.latent = []
  due : s.care.due = []

theorem Accessed.calm {s t : State} (h : Accessed s t) (c : Calm s) : Calm t :=
  ⟨by rw [h.rlg, c.cover], by rw [h.care, c.latent], by rw [h.care, c.due]⟩

theorem Calm.guardKind_eq {s : State} (c : Calm s) (a n : Nat) : guardKind s a n = 0 := by
  simp [guardKind, c.cover]

theorem Calm.guardCount_eq {s : State} (c : Calm s) (a n : Nat) : guardCount a n s = s := if_pos (c.guardKind_eq a n)

theorem Calm.storeBad_eq {s : State} (c : Calm s) (store line : Nat) : storeBad s store line = 0 := if_pos c.latent

theorem Calm.eccLine_eq {s : State} (c : Calm s) (line : Nat) : eccLine line [] s = s := by
  simp [eccLine, decodeAll, startDue, c.latent, c.due]

/-- A STREAM write of a host or fabric requester at a line that the cache does not hold goes to the tier (R193, R197). -/
theorem lineAccess_write_miss {req a n uses : Nat} {data : List Byte} {s : State} (c : Calm s) (outside : 583 ≤ req)
    (miss : cached s (a / 128) = none) :
    (lineAccess req true a n data 0 uses s).2.2 = tierWrite a data (s.bump memCacheMissesCount 1) := by
  have nc : ncHit req (a / 128) s = s := by simp [ncHit, miss]
  simp [lineAccess, c.guardCount_eq, c.guardKind_eq, outside, nc, miss, guarded]

/-- A STREAM write of such a requester at a line that the cache holds goes into the cache's copy (R193, R437). -/
theorem lineAccess_write_hit {req a n uses : Nat} {data : List Byte} {s : State} {l : CLine} (c : Calm s) (outside : 583 ≤ req)
    (hit : cached s (a / 128) = some l) :
    ∃ po, (lineAccess req true a n data 0 uses s).2.2 =
      hitLine (a / 128) 0 { l with data := patch l.data data (a % 128), poison := po, dirty := true }
        ((ncHit req (a / 128) s).bump memCacheHitsCount 1) := by
  have nc := ncHit_passed s req (a / 128)
  have still : cached (ncHit req (a / 128) s) (a / 128) = some l := (nc.cached_eq _).trans hit
  have calm := nc.toAccessed.calm c
  refine ⟨clearBits (Nat.lor l.poison 0) (wholeMask (granule a) (a % 128) n), ?_⟩
  simp [lineAccess, c.guardCount_eq, c.guardKind_eq, outside, still, calm.storeBad_eq, guarded]

theorem hitLine_stream (line : Nat) (l : CLine) (s : State) : ∃ u : State, Passed s u ∧
    hitLine line 0 l s = u.setLine line { l with age := s.mem.clock + 1 } :=
  ⟨{ s with mem := { s.mem with clock := s.mem.clock + 1 } }, {}, by simp [hitLine]⟩

/-- What a write of the bytes `f` at `[a, a + n)` does: the bytes stand there, the lines that the cache holds are the same and
whole, and nothing else is touched. -/
structure Wrote (a n : Nat) (f : Nat → Byte) (s t : State) : Prop extends Accessed s t where
  held : ∀ line, (cached t line).isSome = (cached s line).isSome
  whole : CachedWhole t
  stored : Stored a n f s t

theorem Wrote.append {a m n : Nat} {f : Nat → Byte} {s t u : State} (h : Wrote a m f s t) (k : Wrote (a + m) n f t u) :
    Wrote a (m + n) f s u where
  toAccessed := h.toAccessed.trans k.toAccessed
  held line := (k.held line).trans (h.held line)
  whole := k.whole
  stored := h.stored.append k.stored

theorem CachedWhole.of_lines {s t : State} (h : CachedWhole s) (lines : t.mem.lines = s.mem.lines) : CachedWhole t :=
  fun line l hl => h line l ((cached_congr lines line).symm.trans hl)

/-- What comes before a write leaves what it does. -/
theorem Wrote.of_passed {a n : Nat} {f : Nat → Byte} {s t u : State} (h : Passed s t) (k : Wrote a n f t u) :
    Wrote a n f s u where
  toAccessed := h.toAccessed.trans k.toAccessed
  held line := (k.held line).trans (congrArg Option.isSome (h.cached_eq line))
  whole := k.whole
  stored x := by rw [k.stored x, h.cacheByte_eq]

/-- Bytes written to the tier of a line that the cache does not hold. -/
theorem tierWrite_wrote {a : Nat} {bs : List Byte} {s : State} (clean : s.care.latent = []) (whole : CachedWhole s)
    (fits : a % 128 + bs.length ≤ 128) (miss : cached s (a / 128) = none) :
    Wrote a bs.length (fun x => bs.getD (x - a) 0) s (tierWrite a bs s) := by
  obtain ⟨accessed, lines, tier⟩ := tierWrite_accessed clean a bs
  have same : ∀ line, cached (tierWrite a bs s) line = cached s line := cached_congr lines
  refine ⟨accessed, fun line => congrArg Option.isSome (same line), whole.of_lines lines, fun x => ?_⟩
  unfold cacheByte
  rw [same]
  by_cases inside : a ≤ x ∧ x < a + bs.length
  · have line : x / 128 = a / 128 := by omega
    rw [line, miss, if_pos inside]
    exact (tier x).trans (if_pos inside)
  · rw [if_neg inside]
    split
    · rfl
    · exact (tier x).trans (if_neg inside)

/-- Bytes written over a line that the cache holds. -/
theorem setLine_wrote {a : Nat} {bs : List Byte} {s : State} {l : CLine} (whole : CachedWhole s)
    (fits : a % 128 + bs.length ≤ 128) (hit : cached s (a / 128) = some l) {m : CLine} (data : m.data = patch l.data bs (a % 128)) :
    Wrote a bs.length (fun x => bs.getD (x - a) 0) s (s.setLine (a / 128) m) := by
  have len : l.data.length = 128 := whole _ l hit
  have fits' : a % 128 + bs.length ≤ l.data.length := by omega
  have mlen : m.data.length = 128 := by rw [data, patch_length fits', len]
  have self : cached (s.setLine (a / 128) m) (a / 128) = some m :=
    cached_setLine_self (List.ne_nil_of_length_pos (by omega)) _ s
  have other : ∀ line, line ≠ a / 128 → cached (s.setLine (a / 128) m) line = cached s line :=
    fun line h => cached_setLine_ne h m s
  refine ⟨{}, fun line => ?_, fun line k hk => ?_, fun x => ?_⟩
  · by_cases h : line = a / 128
    · rw [h, self, hit]; rfl
    · rw [other line h]
  · by_cases h : line = a / 128
    · rw [h, self] at hk
      injection hk with hk
      exact hk ▸ mlen
    · exact whole line k ((other line h).symm.trans hk)
  · unfold cacheByte
    by_cases h : x / 128 = a / 128
    · rw [h, self, hit]
      dsimp only
      rw [data, patch_getD fits']
      by_cases inside : a ≤ x ∧ x < a + bs.length
      · rw [if_pos inside, if_pos (by omega), show x % 128 - a % 128 = x - a by omega]
      · rw [if_neg inside, if_neg (by omega)]
    · rw [other _ h, if_neg (by omega)]
      rfl

/-- A line may be written within one step: nothing is open on it, and it is cached or its channel serves. -/
def Writable (s : State) (a : Nat) : Prop :=
  lineQuiet s (a / 128) = true ∧ ((cached s (a / 128)).isSome = true ∨ channelServes s a = true)

theorem Wrote.writable {a n : Nat} {f : Nat → Byte} {s t : State} (h : Wrote a n f s t) {b : Nat} (w : Writable s b) :
    Writable t b := by
  simpa only [Writable, h.lineQuiet_eq, h.held, h.channelServes_eq] using w

/-- A STREAM write of a host or fabric requester within a line that the cache holds (R193, R437). -/
theorem lineUse_wrote_hit {req a uses : Nat} {data : List Byte} {d : Option Nat} {s : State} {l : CLine} (c : Calm s)
    (whole : CachedWhole s) (outside : 583 ≤ req) (fits : a % 128 + data.length ≤ 128) (quiet : lineQuiet s (a / 128) = true)
    (hit : cached s (a / 128) = some l) :
    Wrote a data.length (fun x => data.getD (x - a) 0) s (lineUse req true a data.length data 0 uses d s).2.2 := by
  have settled : settleLine (a / 128) s = s := if_pos quiet
  have use : lineUse req true a data.length data 0 uses d s = lineAccess req true a data.length data 0 uses s := by
    simp [lineUse, settled, hit]
  obtain ⟨po, access⟩ := lineAccess_write_hit (n := data.length) (uses := uses) (data := data) c outside hit
  obtain ⟨u, aged, line⟩ := hitLine_stream (a / 128) { l with data := patch l.data data (a % 128), poison := po, dirty := true }
    ((ncHit req (a / 128) s).bump memCacheHitsCount 1)
  have counted : Passed s u := (ncHit_passed s req (a / 128)).trans ((bump_passed _ (fun g hg => hg.hits) 1).trans aged)
  rw [use, access, line]
  exact .of_passed counted (setLine_wrote (whole.of_lines counted.lines) fits ((counted.cached_eq _).trans hit) rfl)

/-- The same within a line that the cache does not hold, by way of its channel (R185 to R190, R197). -/
theorem lineUse_wrote_miss {req a uses : Nat} {data : List Byte} {d : Option Nat} {s : State} (c : Calm s) (whole : CachedWhole s)
    (outside : 583 ≤ req) (fits : a % 128 + data.length ≤ 128) (quiet : lineQuiet s (a / 128) = true)
    (miss : cached s (a / 128) = none) (serves : channelServes s a = true) :
    Wrote a data.length (fun x => data.getD (x - a) 0) s (lineUse req true a data.length data 0 uses d s).2.2 := by
  have settled : settleLine (a / 128) s = s := if_pos quiet
  generalize hv : failedAnswer a (tierPass (unitReq s req (b2n true) a data.length 0 d) s) = v
  have passed : Passed s v := hv ▸ (tierPass_passed s serves).trans (failedAnswer_passed _ a)
  have calm : Calm v := passed.toAccessed.calm c
  have use : lineUse req true a data.length data 0 uses d s = lineAccess req true a data.length data 0 uses v := by
    simp [lineUse, settled, miss, hv, calm.eccLine_eq]
  have counted : Passed s (v.bump memCacheMissesCount 1) := passed.trans (bump_passed v (fun g hg => hg.misses) 1)
  rw [use, lineAccess_write_miss calm outside ((passed.cached_eq _).trans miss)]
  exact .of_passed counted
    (tierWrite_wrote calm.latent (whole.of_lines counted.lines) fits ((counted.cached_eq _).trans miss))

theorem lineUse_wrote {req a uses : Nat} {data : List Byte} {d : Option Nat} {s : State} (c : Calm s) (whole : CachedWhole s)
    (outside : 583 ≤ req) (fits : a % 128 + data.length ≤ 128) (w : Writable s a) :
    Wrote a data.length (fun x => data.getD (x - a) 0) s (lineUse req true a data.length data 0 uses d s).2.2 := by
  obtain ⟨quiet, way⟩ := w
  cases hit : cached s (a / 128) with
  | some l => exact lineUse_wrote_hit c whole outside fits quiet hit
  | none => exact lineUse_wrote_miss c whole outside fits quiet hit (way.resolve_left (by simp [hit]))

/-! ## A range -/

/-- One piece of a range written by the fabric's requester with hint STREAM, the refusals and the poison met so far carried on. -/
def putPiece (a : Nat) (bs : List Byte) (x : Bool × Bool × State) (p : Nat × Nat) : Bool × Bool × State :=
  if refusal x.2.2 p.1 ≠ 0 then (true, x.2.1, x.2.2)
  else
    let r := lineUse 584 true p.1 p.2 (slice bs (p.1 - a) p.2) 0 1 none x.2.2
    (x.1, x.2.1 || r.2.1, r.2.2)

theorem usePut_eq_foldl (a : Nat) (bs : List Byte) (s : State) :
    usePut 584 a bs 0 1 none s = (pieces a bs.length).foldl (putPiece a bs) (false, false, s) := by
  refine congrArg (fun f => List.foldl f (false, false, s) (pieces a bs.length)) (funext fun x => funext fun p => ?_)
  obtain ⟨rf, po, t⟩ := x
  simp only [putPiece, if_true]

theorem slice_length (bs : List Byte) (o n : Nat) : (slice bs o n).length = n := by simp [slice]

theorem slice_getD (bs : List Byte) (o : Nat) {n i : Nat} (h : i < n) : (slice bs o n).getD i 0 = bs.getD (o + i) 0 := by
  simp [slice, h]

/-- A piece that is not refused is written. -/
theorem putPiece_wrote {a b n : Nat} {bs : List Byte} {x : Bool × Bool × State} (c : Calm x.2.2) (whole : CachedWhole x.2.2)
    (after : a ≤ b) (fits : b % 128 + n ≤ 128) (served : refusal x.2.2 b = 0) (w : Writable x.2.2 b) :
    Wrote b n (fun i => bs.getD (i - a) 0) x.2.2 (putPiece a bs x (b, n)).2.2 := by
  have len := slice_length bs (b - a) n
  have wrote := lineUse_wrote (uses := 1) (d := none) c whole (by decide : 583 ≤ 584) (data := slice bs (b - a) n) (by omega) w
  rw [len] at wrote
  have run : (putPiece a bs x (b, n)).2.2 = (lineUse 584 true b n (slice bs (b - a) n) 0 1 none x.2.2).2.2 := by
    simp [putPiece, served]
  rw [run]
  refine { wrote with stored := wrote.stored.congr fun i low high => ?_ }
  rw [slice_getD bs (b - a) (by omega), show b - a + (i - b) = i - a by omega]

theorem linePieces_zero (k a : Nat) : linePieces k a 0 = [] := by cases k <;> simp [linePieces]

theorem linePieces_succ (k a : Nat) {n : Nat} (h : n ≠ 0) :
    linePieces (k + 1) a n =
      (a, min n (128 - a % 128)) :: linePieces k (a + min n (128 - a % 128)) (n - min n (128 - a % 128)) := by
  simp [linePieces, h]

/-- The pieces of a range, as many as its lines, are written one after the other. -/
theorem putPieces_wrote {a : Nat} {bs : List Byte} (k b n : Nat) (x : Bool × Bool × State) (c : Calm x.2.2)
    (whole : CachedWhole x.2.2) (after : a ≤ b) (lines : n = 0 ∨ b % 128 + n ≤ 128 * k) (served : ∀ i < n, refusal x.2.2 (b + i) = 0)
    (w : ∀ i < n, Writable x.2.2 (b + i)) :
    Wrote b n (fun i => bs.getD (i - a) 0) x.2.2 ((linePieces k b n).foldl (putPiece a bs) x).2.2 := by
  induction k generalizing b n x with
  | zero =>
    obtain rfl : n = 0 := by omega
    exact ⟨{}, fun _ => rfl, whole, stored_zero _ _ _⟩
  | succ k ih =>
    rcases Nat.eq_zero_or_pos n with rfl | pos
    · rw [linePieces_zero]
      exact ⟨{}, fun _ => rfl, whole, stored_zero _ _ _⟩
    · rw [linePieces_succ k b (by omega), List.foldl_cons]
      generalize hm : min n (128 - b % 128) = m
      have first : Wrote b m _ x.2.2 (putPiece a bs x (b, m)).2.2 :=
        putPiece_wrote c whole after (by omega) (served 0 pos) (w 0 pos)
      have rest := ih (b + m) (n - m) (putPiece a bs x (b, m)) (first.toAccessed.calm c) first.whole (by omega) (by omega)
        (fun i hi => by rw [first.refusal_eq, Nat.add_assoc]; exact served _ (by omega))
        (fun i hi => by rw [Nat.add_assoc]; exact first.writable (w _ (by omega)))
      have both := first.append rest
      rwa [show m + (n - m) = n by omega] at both

/-- A STREAM write of the fabric's requester, made whole within a step, of a range none of which is refused. -/
theorem usePut_wrote {a : Nat} {bs : List Byte} {s : State} (c : Calm s) (whole : CachedWhole s)
    (served : ∀ i < bs.length, refusal s (a + i) = 0) (w : ∀ i < bs.length, Writable s (a + i)) :
    Wrote a bs.length (fun i => bs.getD (i - a) 0) s (usePut 584 a bs 0 1 none s).2.2 := by
  rw [usePut_eq_foldl]
  exact putPieces_wrote (bs.length / 128 + 2) a bs.length (false, false, s) c whole (Nat.le_refl a) (by omega) served w

end Sys2Proof.Machine
end

section
/-! PROOF. The fabric (chapter 03): requests served for other nodes, packets of the node's own, and membership: O11, O12, O13,
O42. -/

namespace Sys2Proof.Machine

/-! ## Packets touch no memory -/

/-- What sending a packet leaves alone: memory, the L1s, the engines and the streams. -/
structure Apart (s t : State) : Prop where
  mem : t.mem = s.mem := by rfl
  coh : t.coh = s.coh := by rfl
  upe : t.upe = s.upe := by rfl
  str : t.str = s.str := by rfl

theorem Apart.refl (s : State) : Apart s s := {}

theorem Apart.trans {s t u : State} (h : Apart s t) (k : Apart t u) : Apart s u :=
  ⟨k.mem.trans h.mem, k.coh.trans h.coh, k.upe.trans h.upe, k.str.trans h.str⟩

section
variable (s : State)

theorem each_apart {α : Type} {f : α → State → State} (h : ∀ a t, Apart t (f a t)) (l : List α) :
    Apart s (State.each l f s) :=
  each_keeps (Apart s) f (fun a t k => k.trans (h a t)) l s (.refl s)

theorem sendNew_apart (p : Nat) (ctrl : Bool) (mid : List Byte) : Apart s (sendNew p ctrl mid s) := {}

theorem drainWait_apart (p : Nat) (ctrl : Bool) : Apart s (drainWait p ctrl s) :=
  Apart.trans {} (each_apart _ (fun mid t => sendNew_apart t p ctrl mid) _)

theorem offerFlit_apart (p : Nat) (ctrl : Bool) (mid : List Byte) : Apart s (offerFlit p ctrl mid s) := by
  unfold offerFlit
  dsimp only
  split
  · exact {}
  · split
    · exact {}
    · exact Apart.trans {} (drainWait_apart _ p ctrl)

theorem packet_apart (p : Nat) (pkt : List Byte) : Apart s (State.each (packetMids pkt) (offerFlit p false) s) :=
  each_apart s (fun mid t => offerFlit_apart t p false mid) _

theorem drainVc_apart (p vc : Nat) : Apart s (drainVc p vc s) := by
  unfold drainVc
  generalize hx : (false, s) = x
  have start : Apart s x.2 := hx ▸ .refl s
  clear hx
  induction (s.port p).held.filter (fun k => pktVc k == vc) generalizing x with
  | nil => exact start
  | cons k l ih =>
    rw [List.foldl_cons]
    refine ih _ ?_
    dsimp only
    split
    · exact start
    · exact (start.trans {}).trans (packet_apart _ p k)

theorem sendPacket_apart (p : Nat) (pkt : List Byte) : Apart s (sendPacket p pkt s) := by
  unfold sendPacket
  dsimp only
  split
  · exact packet_apart s p pkt
  · split
    · exact .refl s
    · exact Apart.trans {} (each_apart _ (fun vc t => drainVc_apart t p vc) _)

theorem sendVc_apart (arr : Option Nat) (pkt : List Byte) : Apart s (sendVc arr pkt s) := by
  unfold sendVc
  split
  · exact .refl s
  · split
    · exact {}
    · split
      · exact sendPacket_apart s _ pkt
      · split
        · split
          · exact {}
          · exact sendPacket_apart s _ pkt
        · exact {}

theorem respond_apart (arr : Option Nat) (dst op tag status : Nat) (data : List Byte) :
    Apart s (respond arr dst op tag status data s) := sendVc_apart s arr _

theorem take_apart (p : Nat) (pkt : List Byte) : Apart s (take p pkt s) := by
  unfold take consume
  split
  · exact {}
  · exact {}

end

theorem cacheByte_congr {s t : State} (h : t.mem = s.mem) (x : Nat) : cacheByte t x = cacheByte s x := by
  simp only [cacheByte, cached, tierByte, memDflt, h]

/-! ## Requests performed (R107 to R111) -/

/-- An admitted request of its own operation is performed and answered to its source. -/
theorem serveRequest_of_admitted {op p : Nat} {pkt : List Byte} (f : State → Nat × List Byte × State) {s : State}
    (us : forUs s pkt = true) (h : pktOp pkt = op) (request : isRequest op = true) (ok : requestStatus (take p pkt s) pkt = 0) :
    serveRequest op p pkt f s = respond (some p) (pktSrc pkt) (responseOp op) (pktTag pkt)
      (f (take p pkt s)).1 (f (take p pkt s)).2.1 (f (take p pkt s)).2.2 := by
  subst h
  simp [serveRequest, us, request, ok]

/-- A row that serves a request, all of whose accesses are served, answers the state in which it is answered. -/
theorem whole_serveRequest {op p : Nat} {pkt : List Byte} {f : State → Nat × List Byte × State} {s : State}
    (k : Served s (serveRequest op p pkt f s)) :
    whole (fun s => done (serveRequest op p pkt f s)) s = .next (settle (serveRequest op p pkt f s)) :=
  whole_served rfl k

/-- Addresses of one frame of 1 GiB are refused or served together: the tiers and the partitions are made of frames (R174 to
R178). -/
theorem refusal_of_frame {s : State} {a b : Nat} (h : a / 2 ^ 30 = b / 2 ^ 30) : refusal s a = refusal s b := by
  have part (t o v : Nat) (e : o / 2 ^ 30 = v / 2 ^ 30) (ha : tierOf a = some (t, o)) (hb : tierOf b = some (t, v)) :
      refusal s a = refusal s b := by
    simp only [refusal, partOf, ha, hb, e]
  by_cases hbm : a < hbmBytes
  · have hbm' : b < hbmBytes := by unfold hbmBytes at *; omega
    exact part 0 a b h (if_pos hbm) (if_pos hbm')
  · have hbm' : ¬ b < hbmBytes := by unfold hbmBytes at *; omega
    by_cases deep : deepBase ≤ a ∧ a < deepBase + deepBytes
    · have deep' : deepBase ≤ b ∧ b < deepBase + deepBytes := by unfold deepBase deepBytes at *; omega
      exact part 1 (a - deepBase) (b - deepBase) (by unfold deepBase at *; omega)
        ((if_neg hbm).trans (if_pos deep)) ((if_neg hbm').trans (if_pos deep'))
    · have deep' : ¬ (deepBase ≤ b ∧ b < deepBase + deepBytes) := by unfold deepBase deepBytes at *; omega
      have ha : tierOf a = none := (if_neg hbm).trans (if_neg deep)
      have hb : tierOf b = none := (if_neg hbm').trans (if_neg deep')
      simp only [refusal, ha, hb]

/-- The status that a check earns is not 0. -/
theorem passes_of_ite_eq_zero {c : Prop} [Decidable c] {k x : Nat} (status : k ≠ 0) (h : (if c then k else x) = 0) :
    ¬c ∧ x = 0 := by
  by_cases hc : c
  · exact absurd ((if_pos hc).symm.trans h) status
  · exact ⟨hc, (if_neg hc).symm.trans h⟩

/-- An admitted WRITE carries as many bytes as its length says, and stays in one block of 256 (R107, R109). -/
theorem requestStatus_write {s : State} {pkt : List Byte} (write : pktOp pkt = 2) (ok : requestStatus s pkt = 0) :
    (pktData pkt).length = 16 * pktLen pkt ∧ pktOff pkt % 256 + 16 * pktLen pkt ≤ 256 := by
  unfold requestStatus at ok
  obtain ⟨-, ok⟩ := passes_of_ite_eq_zero (by decide) ok
  obtain ⟨form, ok⟩ := passes_of_ite_eq_zero (by decide) ok
  obtain ⟨-, ok⟩ := passes_of_ite_eq_zero (by decide) ok
  obtain ⟨-, ok⟩ := passes_of_ite_eq_zero (by decide) ok
  obtain ⟨-, ok⟩ := passes_of_ite_eq_zero (by decide) ok
  obtain ⟨-, ok⟩ := passes_of_ite_eq_zero (by decide) ok
  have plain : ¬((pktOp pkt == 3 || pktOp pkt == 4) = true) := by simp [write]
  obtain ⟨block, -⟩ := passes_of_ite_eq_zero (by decide) ((if_neg plain).symm.trans ok)
  have units : pktUnits pkt = pktLen pkt := if_neg (by omega)
  simp only [pktMalformed, Bool.not_eq_true, Bool.or_eq_false_iff, bne_eq_false_iff_eq, units] at form
  obtain ⟨⟨-, len⟩, -⟩ := form
  exact ⟨len, by omega⟩

theorem servedRange_refusal {s : State} {a n i : Nat} (served : servedRange s a n = true) (block : a % 256 + n ≤ 256)
    (h : i < n) : refusal s (a + i) = 0 := by
  have first : refusal s a = 0 := by
    have pos : (n == 0) = false := by simp; omega
    simp only [servedRange, pos, Bool.false_or, Bool.and_eq_true, beq_iff_eq] at served
    exact served.1.1
  exact (refusal_of_frame (by omega)).trans first

/-- A WRITE of a served range of the memory region with hint STREAM is the write of its data. -/
theorem doWrite_stream {pkt : List Byte} {s : State} (region : pktRegion pkt = 0) (hint : pktHint pkt = 0)
    (served : servedRange s (pktOff pkt) (16 * pktLen pkt) = true) :
    (doWrite pkt s).2.2 = (usePut 584 (pktOff pkt) (pktData pkt) 0 1 none s).2.2 := by
  simp [doWrite, region, hint, served]

/-- Settles O42: the range, which lies in one block of 256 bytes, is written line by line; each line is cached or its channel
serves, so nothing is held up, and the answer that follows touches no memory. -/
theorem remoteWriteStores : Obligations.RemoteWriteStores := by
  rintro p pkt s u whole rfl us write ok region hint served cover latent due lines
  obtain ⟨len, block⟩ := requestStatus_write write ok
  have taken := take_apart s p.val pkt
  have cachedWhole : CachedWhole (take p.val pkt s) :=
    CachedWhole.of_lines (fun line l hl => whole.1 line l hl) (congrArg MemState.lines taken.mem)
  have wrote : Wrote (pktOff pkt) (pktData pkt).length (fun i => (pktData pkt).getD (i - pktOff pkt) 0) (take p.val pkt s)
      (doWrite pkt (take p.val pkt s)).2.2 := by
    rw [doWrite_stream region hint served]
    exact usePut_wrote ⟨cover, latent, due⟩ cachedWhole (fun i hi => servedRange_refusal served block (by omega))
      (fun i hi => lines i (by omega))
  have answered := respond_apart (doWrite pkt (take p.val pkt s)).2.2 (some p.val) (pktSrc pkt) (responseOp 2) (pktTag pkt)
    (doWrite pkt (take p.val pkt s)).1 (doWrite pkt (take p.val pkt s)).2.1
  rw [← serveRequest_of_admitted (doWrite pkt) us write rfl ok] at answered
  have unheld : Served s (serveRequest 2 p.val pkt (doWrite pkt) s) := by
    rw [Served, answered.mem, wrote.heldUp, taken.mem]
  have byte : ∀ x, cacheByte (serveRequest 2 p.val pkt (doWrite pkt) s) x =
      if pktOff pkt ≤ x ∧ x < pktOff pkt + (pktData pkt).length then (pktData pkt).getD (x - pktOff pkt) 0 else cacheByte s x :=
    fun x => by rw [cacheByte_congr answered.mem, wrote.stored x, cacheByte_congr taken.mem]
  rw [len] at byte
  refine ⟨_, whole_serveRequest unheld, fun i hi => ?_, fun x hx => ?_, ?_, ?_, ?_⟩
  · exact (byte _).trans ((if_pos (by omega)).trans (by rw [Nat.add_sub_cancel_left]))
  · exact (byte x).trans (if_neg (by omega))
  · exact congrArg CohState.l1 ((answered.coh.trans wrote.coh).trans taken.coh)
  · exact (answered.upe.trans wrote.upe).trans taken.upe
  · exact (answered.str.trans wrote.str).trans taken.str

/-- An admitted request, all of whose accesses are served. -/
theorem whole_serveRequest_of_admitted {op p : Nat} {pkt : List Byte} {f : State → Nat × List Byte × State} {s t : State}
    (us : forUs s pkt = true) (h : pktOp pkt = op) (request : isRequest op = true) (ok : requestStatus (take p pkt s) pkt = 0)
    (ht : t = respond (some p) (pktSrc pkt) (responseOp op) (pktTag pkt)
      (f (take p pkt s)).1 (f (take p pkt s)).2.1 (f (take p pkt s)).2.2) (k : Served s t) :
    whole (fun s => done (serveRequest op p pkt f s)) s = .next (settle t) := by
  rw [← serveRequest_of_admitted f us h request ok] at ht
  subst ht
  exact whole_serveRequest k

/-- Settles O13: an admitted request is performed and answered once its accesses are served; the guards of the two others hold. -/
theorem remoteServiceCompletes : Obligations.RemoteServiceCompletes :=
  ⟨fun _ _ _ _ us op ok ht k => whole_serveRequest_of_admitted us op rfl ok ht k,
    fun _ _ _ _ us op ok ht k => whole_serveRequest_of_admitted us op rfl ok ht k,
    fun _ _ _ _ us op ok ht k => whole_serveRequest_of_admitted us op rfl ok ht k,
    fun _ _ _ _ us op ok ht k => whole_serveRequest_of_admitted us op rfl ok ht k,
    fun _ _ _ id ended => if_pos ⟨id, ended⟩,
    fun c s first => by simp only [exec_coalesceExpiry, execCoalesceExpiry, first, done_eq]⟩

/-! ## Packets of the node's own and of its ports (R94, R104, R112) -/

theorem exec_packetForward_of_port {p : Fin 16} {pkt : List Byte} {s : State} (on : fabricOn s = true) (vc : pktVc pkt ≠ 0)
    (single : pktOp pkt ≠ 0x47) :
    exec (.packetForward (some p) pkt) s = .next (settle (forward (some p.val) pkt (consume p.val pkt s))) := by
  simp [execPacketForward, on, vc, single, done_eq]

theorem exec_packetForward_of_request {pkt : List Byte} {s : State} (on : fabricOn s = true) (vc : pktVc pkt ≠ 0)
    (request : isRequest (pktOp pkt) = true) (room : s.fab.reqs.length < 1024) (tag : tagFree s (pktTag pkt) = true) :
    exec (.packetForward none pkt) s = .next (settle (forward none pkt (reqCount (s.onFab (fun f => { f with
      reqs := f.reqs ++ [⟨pktTag pkt, pktOp pkt, pktDst pkt, pktAddr pkt, (routePort s (pktDst pkt)).getD 16, s.now,
        false⟩] }))))) := by
  have single : pktOp pkt ≠ 0x47 := fun h => by simp [h, isRequest] at request
  have requests : requestPkt pkt = true := by simp [requestPkt, request]
  simp [execPacketForward, on, vc, single, requests, Nat.not_le.mpr room, tag, done_eq]

/-- The response to an outstanding request ends it; poison is a fabric fault at the requester (R109, R112). -/
theorem response_of_match {op p : Nat} {pkt : List Byte} {r : RemReq} {s u : State} (us : forUs s pkt = true) (h : pktOp pkt = op)
    (hu : u = take p pkt s)
    (found : u.fab.reqs.find? (fun x => x.tag == pktTag pkt && responseOp x.op == op && !reqExpired u x) = some r) :
    response op p pkt s =
      (let v := reqCount (u.onFab (fun f => { f with reqs := f.reqs.filter (fun x => x != r) }))
       (if pktStatus pkt = 4 then fault .fabric 3 r.dst r.addr 0 none v else v).emit (.message pkt)) := by
  have taken : ¬((!forUs s pkt) = true ∨ pktOp pkt ≠ op) := by simp [us, h]
  simp only [response, if_neg taken, ← hu, found]

/-- A request that no fence covers ends in TIMEOUT (R112, R576). -/
theorem exec_requestTimeout_of_unfenced {tag : BitVec 16} {r : RemReq} {s u : State}
    (found : s.fab.reqs.find? (fun x => x.tag == tag.toNat) = some r) (plain : r.fenced = false)
    (hu : u = s.reach (r.issued + reqTimeoutPs s)) :
    exec (.requestTimeout tag) s = .next (settle (fault .fabric 2 r.dst r.addr 0 (if r.port < 16 then some r.port else none)
      (raise fabEvtTimeout ((reqCount (u.onFab (fun f => { f with
        reqs := f.reqs.filter (fun x => x != r), retired := f.retired ++ [(r.tag, u.now + 2 * reqTimeoutPs u)] }))).bump
          fabReqStatTimeouts 1)))) := by
  simp only [exec_requestTimeout, execRequestTimeout, found, plain, Bool.false_eq_true, if_false, ← hu, done_eq]

/-- A message of the operation that its row names is handed up. -/
theorem handUp_of_op {op : Nat} {pkt : List Byte} {s : State} (us : forUs s pkt = true) (h : pktOp pkt = op) :
    done (handUp op pkt s) = .next (settle ((consumeAny pkt s).emit (.message pkt))) :=
  congrArg done (if_pos ⟨us, h⟩)

/-- Settles O11: the guards of each row leave one branch of its meaning; a request's operation is none of a broadcast's, and a
response is the end of the request that its tag finds. -/
theorem fabricPacketsComplete : Obligations.FabricPacketsComplete :=
  ⟨fun _ _ _ => exec_packetForward_of_port, fun _ _ => exec_packetForward_of_request,
    fun _ _ _ _ _ us op hu found => congrArg done (response_of_match us op hu found),
    fun _ _ _ _ _ us op hu found => congrArg done (response_of_match us op hu found),
    fun _ _ _ _ _ us op hu found => congrArg done (response_of_match us op hu found),
    fun _ _ _ _ => exec_requestTimeout_of_unfenced, fun _ _ => handUp_of_op, fun _ _ => handUp_of_op, fun _ _ => handUp_of_op,
    fun _ _ => handUp_of_op⟩

/-! ## Membership (R118 to R123, R126) -/

/-- A message of the operation that its row names is not passed over. -/
theorem named_of_op {op : Nat} {pkt : List Byte} {s : State} (us : forUs s pkt = true) (h : pktOp pkt = op) :
    ¬((!forUs s pkt) = true ∨ pktOp pkt ≠ op) := by simp [us, h]

/-- Settles O12: the guards of each row leave one branch of its meaning, once the message that it is for is taken. -/
theorem membershipCompletes : Obligations.MembershipCompletes := by
  refine ⟨fun p pkt s u us op direct hu member => ?announce, fun s join lock due on => if_pos ⟨join, lock, due, on⟩,
    fun pkt s u us op hu early => ?accept, fun pkt s u us op hu => ?refuse, fun pkt s u us op hu admin => ?detach,
    fun s detaching drained => ?drained, fun pkt late ns s u us op hu tk en ready => ?reset, fun t s u hu tk => ?frst,
    fun p pkt s on op => ?bcast, fun pkt s on routes op inner => ?planSeg, fun s => rfl, fun s empty table => ?adopt⟩
  case announce =>
    have from_partner : ¬((!(pktSrc pkt == s.get (elvPartnerNode p.val))) = true) := by simp [direct]
    simp only [exec_joinAnnounce, execJoinAnnounce, if_neg (named_of_op us op), if_neg from_partner, ← hu, if_pos member, done_eq]
  case accept =>
    simp only [exec_joinAccept, execJoinAccept, if_neg (named_of_op us op), ← hu, if_neg (Nat.not_le.mpr early), done_eq]
  case refuse =>
    simp only [exec_joinRefuse, execJoinRefuse, if_neg (named_of_op us op), ← hu, State.takeFree, done_eq]
  case detach =>
    simp only [exec_detach, execDetach, if_neg (named_of_op us op), ← hu, if_pos admin, done_eq]
  case drained =>
    have go : ¬((!s.fab.detaching) = true ∨ s.fab.reqs ≠ []) := by simp [detaching, drained]
    simp only [exec_detachRequestsDrained, execDetachRequestsDrained, if_neg go, done_eq]
  case reset =>
    simp only [exec_fabricReset, execFabricReset, if_neg (named_of_op us op), ← hu, tk, en, ready, and_self, if_true, done_eq]
  case frst => simp only [exec_frstGo, execFrstGo, frstGo, ← hu, tk, if_true, done_eq]
  case bcast =>
    have known : ¬((!fabricOn s) = true ∨ pktOp pkt ≠ 0x47) := by simp [on, op]
    exact if_neg known
  case planSeg =>
    have known : ¬((!fabricOn s) = true ∨ (!s.flag fabStatusRoutes) = true ∨ pktOp pkt ≠ 0x47) := by simp [on, routes, op]
    exact (if_neg known).trans (if_neg (not_not_intro inner))
  case adopt => exact congrArg done (if_pos ⟨empty, table⟩)

end Sys2Proof.Machine
end

section
/-! PROOF. Collectives (chapter 04): slots, VC 0 packets, CAL_RESOLVE and RESUME: O14. -/

namespace Sys2Proof.Machine

/-- The start of a slot whose descriptor passes its check keeps the descriptor and begins the phase (R133, R135, R164). -/
theorem exec_collectiveSlotStart_of_passed {i : Fin 1024} {s u : State} {b g : List Byte} (may : startable s 0 i.val = true)
    (part : s.flag calStatusOut = false) (hu : u = touchDesc i.val (startSlot i.val s)) (passes : slotRead u i.val = (b, g, 0))
    (k : Served s (slotBegin i.val (keepDesc i.val b g (u.set calStatusDescReason 0)))) :
    exec (.collectiveSlotStart i) s = .next (settle (slotBegin i.val (keepDesc i.val b g (u.set calStatusDescReason 0)))) := by
  rw [exec_collectiveSlotStart, execCollectiveSlotStart]
  refine whole_served ?_ k
  simp only [may, part, ← hu, passes, Bool.not_true, Bool.or_self, Bool.false_eq_true, ne_eq, not_true, if_false, done_eq]

/-- A packet of the step and try, for a part of a running slot that nothing has written and that makes no agreement, goes into its
entry when it comes in on an input port of its segment (R139, R140, R141). -/
theorem exec_vc0Packet_of_input {p : Fin 16} {pkt : List Byte} {at_ : Nat} {s u : State} {g : Seg}
    (hu : u = consume p.val pkt (s.reach at_)) (step : vcStep pkt = u.get calStepStep % 4096) (try_ : vcTry pkt = u.get calTryTry)
    (dst : pktDst pkt = ownId u) (slot : vcSlot pkt < planSlots u) (cls : (slotOf u (vcSlot pkt)).cls = 0)
    (running : slotState u (vcSlot pkt) = .running)
    (seg : segOfWindow (slotDesc u (vcSlot pkt)) (slotSegs u (vcSlot pkt)) (vcWindow pkt) = some g)
    (mode : vcMode pkt = (slotDesc u (vcSlot pkt)).mode) (part : vcPart pkt < (slotDesc u (vcSlot pkt)).parts)
    (plain : (slotDesc u (vcSlot pkt)).rmode = 0) (fresh : partWritten u (vcSlot pkt) (vcWindow pkt) (vcPart pkt) = false)
    (input : bitOf g.inPorts p.val = true) :
    exec (.vc0Packet p pkt at_) s =
      .next (settle (takeInput p.val (vcSlot pkt) g (vcWindow pkt) (vcPart pkt) pkt u)) := by
  have current : ¬(vcStep pkt ≠ u.get calStepStep % 4096 ∨ vcTry pkt ≠ u.get calTryTry) := by simp [step, try_]
  have known : ¬(pktDst pkt ≠ ownId u ∨ planSlots u ≤ vcSlot pkt ∨ (slotOf u (vcSlot pkt)).cls ≠ 0 ∨
      slotState u (vcSlot pkt) ≠ .running) := by simp [dst, slot, cls, running]
  have fits : ¬(vcMode pkt ≠ (slotDesc u (vcSlot pkt)).mode ∨ (slotDesc u (vcSlot pkt)).parts ≤ vcPart pkt ∨
      ((slotDesc u (vcSlot pkt)).rmode = 3 ∧ vcWindow pkt % 256 ≠ 0) ∨
      (((slotDesc u (vcSlot pkt)).rmode = 1 ∨ (slotDesc u (vcSlot pkt)).rmode = 2) ∧
        agreed u (slotDesc u (vcSlot pkt)) (vcWindow pkt) ≠ some (vcExp pkt)) ∨
      partWritten u (vcSlot pkt) (vcWindow pkt) (vcPart pkt) = true) := by simp [mode, part, plain, fresh]
  simp only [exec_vc0Packet, execVc0Packet, ← hu, if_neg current, if_neg known, seg, if_neg fits, input, if_true, done_eq]

/-- A write of CAL_RESOLVE on a held node, for the step that it holds at, comes to the verdict it names (R165). -/
theorem exec_calResolve_of_held {v : BitVec 64} {s u : State}
    (hu : u = (s.set calResolveStep (bits v.toNat 0 32)).set calResolveVerdict (bits v.toNat 32 4))
    (go : bitOf v.toNat 63 = true) (held : u.get calStatusState = 3) (step : bits v.toNat 0 32 = u.get calStepStep % 2 ^ 32) :
    (bits v.toNat 32 4 = 0 → exec (.calResolve v) s = .next (settle
      ((acceptCommit false (kindData (u.get calStepStep) (u.get calTryTry) 0 0) u).set calVerdictLast (u.get calVerdictLast)))) ∧
    (bits v.toNat 32 4 = 1 → exec (.calResolve v) s = .next (settle
      ((acceptAbort (kindData (u.get calStepStep) (u.get calTryTry) 1 0) u).set calVerdictLast (u.get calVerdictLast)))) := by
  have applies : ¬((!bitOf v.toNat 63) = true ∨ u.get calStatusState ≠ 3 ∨
      bits v.toNat 0 32 ≠ u.get calStepStep % 2 ^ 32) := by simp [go, held, step]
  simp only [exec_calResolve, execCalResolve, ← hu, if_neg applies]
  refine ⟨fun commit => ?_, fun abort => ?_⟩
  · simp only [commit, if_true, done_eq]
  · simp only [abort, Nat.one_ne_zero, if_false, if_true, done_eq]

/-- Settles O14: the guards of each command leave one branch of its meaning; a slot's start has it whole, where its accesses are
served. -/
theorem collectivesComplete : Obligations.CollectivesComplete := by
  refine ⟨fun i s u t b g may part hu passes ht k => ?start, fun p pkt at_ s u g => exec_vc0Packet_of_input,
    fun v s u => exec_calResolve_of_held, fun s => rfl⟩
  case start =>
    subst ht
    exact exec_collectiveSlotStart_of_passed may part hu passes k

end Sys2Proof.Machine
end

section
/-! PROOF. Memory care and Fumarole's power (chapters 06, 16): scrubbing, remaps, their log and the channel tests; temperature,
throttle, P1 and gating: O16, O33. -/

namespace Sys2Proof.Machine

/-! ## Scrubbing, the remap log and the channel tests (R220, R225, R227, R235) -/

/-- The scrubber of a channel that serves no request reads the granule at its position (R220, R221). -/
theorem exec_scrubRead_of_idle {c : Fin 288} {e : Ecc} {s v : State} {g a u : Nat}
    (on : s.flag (tierFld c.val hbmCtlScrubEn dtcCtlScrubEn) = true) (runs : scrubStopped s c.val = false)
    (free : chanWaits s c.val = false) (hg : g = Tab.get 0 s.care.scrub c.val) (ha : a = granuleAddr s c.val g)
    (hu : u = if c.val < 256 then g / 16 % 16 * 65536 + g / 256 else g / 1024)
    (hv : v = startDue (setLatent a .clean (eccOutcome c.val u a (foundAt s [(a, e)] a) s))) :
    exec (.scrubRead c e) s = .next (settle (
      let g' := (g + 1) % chanGranules c.val
      let w := { v with care := { v.care with scrub := Tab.set 0 v.care.scrub c.val g' } }
      if g' = 0 then scrubPass c.val w else w)) := by
  simp only [exec_scrubRead, execScrubRead, on, runs, free, Bool.not_true, Bool.or_self, Bool.false_eq_true, if_false,
    ← hg, ← ha, ← hu, ← hv, done_eq]

/-- The oldest entry that is not logged goes into the first erased place of the active half: taking it from the list leaves the
flash, so the half and the place are those of the state before (R225). -/
theorem exec_remapLogAppend_of_free {r : Remap} {rest : List Remap} {i : Nat} {s u : State} (oldest : s.care.unlogged = r :: rest)
    (place : logFreeFrom s (logActive s) 16384 0 = some i) (hu : u = { s with care := { s.care with unlogged := rest } }) :
    exec .remapLogAppend s = .next (settle (
      let v := flashProgram (logBase + logActive s * logHalf + 32 * i) (logBytes r s.care.logSeq) u
      { v with care := { v.care with logSeq := s.care.logSeq + 1 } })) := by
  have entry (h k : Nat) : logEntry u h k = logEntry s h k := by rw [hu]; rfl
  have active : logActive u = logActive s := by simp only [logActive, entry]
  have search (n k : Nat) : logFreeFrom u (logActive s) n k = logFreeFrom s (logActive s) n k := by
    induction n generalizing k with
    | zero => rfl
    | succ n ih => simp only [logFreeFrom, entry, ih]
  have seq : (flashProgram (logBase + logActive s * logHalf + 32 * i) (logBytes r s.care.logSeq) u).care.logSeq = s.care.logSeq := by
    rw [hu]; rfl
  simp only [exec_remapLogAppend, execRemapLogAppend, oldest, ← hu, active, search, place, seq, done_eq]

/-- A full active half has none of the 64 free entries that would put the compaction off (R227). -/
theorem exec_logCompaction_of_full {s : State} (ready : isReady s = true) (full : logFreeFrom s (logActive s) 16384 0 = none) :
    exec .logCompaction s = .next (settle (flashErase (logBase + logActive s * logHalf) logHalf
      ((logLive s (logActive s)).zipIdx.foldl
        (fun t p => flashProgram (logBase + (1 - logActive s) * logHalf + 32 * p.2) p.1 t) s))) := by
  have due : ¬((!isReady s || decide (64 ≤ 0)) = true) := by simp [ready]
  simp only [exec_logCompaction, execLogCompaction, full, if_neg due, done_eq]

/-- A running generator stops after a number of its accesses that the spec leaves open (R235). -/
theorem tgAbort_of_busy {c : Nat} {s : State} (busy : s.flag (tgCtl c).1 = true) :
    tgAbort c s = raise (tgCtl c).2.2.2 ((tgRun c ((tgAll s c).take (Config.freeValue s.free % ((tgAll s c).length + 1))) [] []
      { s with free := s.free + 1 }).set (tgCtl c).1 0) := if_pos busy

theorem exec_tgDone_of_busy {c : Fin 288} {s : State} (flips : List (Nat × Nat)) (ecc : List (Nat × Ecc))
    (busy : s.flag (tgCtl c.val).1 = true) :
    exec (.tgDone c flips ecc) s =
      .next (settle (raise (tgCtl c.val).2.1 ((tgRun c.val (tgAll s c.val) flips ecc s).set (tgCtl c.val).1 0))) := by
  simp only [exec_tgDone, execTgDone, busy, Bool.not_true, Bool.false_eq_true, if_false, done_eq]

/-- Settles O16: the guards of each command leave one branch of its meaning; the log's search sees the flash alone, and a full
half is due for compaction. -/
theorem memoryCareCompletes : Obligations.MemoryCareCompletes := by
  refine ⟨fun c e s v g a u => exec_scrubRead_of_idle, fun c r s remap => ?softRemap, fun v s u hu go => ?deepRemap,
    fun st v s u c w hu go hc hw => ?hbmRemap, fun r rest i s u => exec_remapLogAppend_of_free, fun s => exec_logCompaction_of_full,
    fun c s busy => congrArg done (tgAbort_of_busy busy), fun c flips ecc s => exec_tgDone_of_busy flips ecc⟩
  case softRemap => simp only [exec_softRemapDone, execSoftRemapDone, remap, done_eq]
  case deepRemap => simp only [exec_remapReq, execRemapReq, ← hu, go, if_true, done_eq]
  case hbmRemap => simp only [exec_remapReq, execRemapReq, ← hu, ← hc, ← hw, go, if_true, done_eq]

/-! ## Thermal classes and self-refresh (R236, R237, R520, R522) -/

/-- Two fields of one register that start at different bits are apart. -/
theorem Fld.key_ne_of_lsb {f g : Fld} (reg : f.reg = g.reg) (bit : f.lsb ≠ g.lsb) : f.key ≠ g.key := by
  simpa [Fld.key, reg] using bit

/-- A reading's registers lie apart from the class it is judged against (R236). -/
theorem get_hbmTempClass_of_reading (k r m : Nat) (s : State) :
    (((s.set (hbmTempDegC k) r).set (hbmTempMax k) m).set (hbmTempSensorFail k) 0).get (hbmTempClass k) = s.get (hbmTempClass k) := by
  have fail : (hbmTempClass k).key ≠ (hbmTempSensorFail k).key := Fld.key_ne_of_lsb rfl (by simp [hbmTempClass, hbmTempSensorFail])
  have top : (hbmTempClass k).key ≠ (hbmTempMax k).key := Fld.key_ne_of_lsb rfl (by simp [hbmTempClass, hbmTempMax])
  have degC : (hbmTempClass k).key ≠ (hbmTempDegC k).key := Fld.key_ne_of_lsb rfl (by simp [hbmTempClass, hbmTempDegC])
  rw [get_set_ne _ _ fail, get_set_ne _ _ top, get_set_ne _ _ degC]

/-- A read that no sensor answers is counted; the third in a row makes the stack critical (R237). -/
theorem exec_tempRead_of_silence {k : Fin 8} {s u : State} {n : Nat} (hn : n = Tab.get 0 s.care.silent k.val + 1)
    (hu : u = { s with care := { s.care with silent := Tab.set 0 s.care.silent k.val n } }) :
    (n ≠ 3 → exec (.tempRead k none) s = .next (settle u)) ∧
    (n = 3 → exec (.tempRead k none) s = .next (settle (setClass k.val 3 (fault .thermal 2 k.val (s.get (hbmTempDegC k.val)) 9 none
      (u.set (hbmTempSensorFail k.val) 1))))) := by
  have degC : u.get (hbmTempDegC k.val) = s.get (hbmTempDegC k.val) := by rw [hu]; rfl
  rw [exec_tempRead, execTempRead, ← hn, ← hu, ← degC]
  exact ⟨fun few => if_neg few, fun third => if_pos third⟩

theorem exec_stackSelfRefresh_of_critical {k : Fin 8} {s u : State} (critical : s.get (hbmTempClass k.val) = 3)
    (awake : s.get fumStatusState < 2) (hu : u = quiesceChans (stackChan k.val) s) :
    exec (.stackSelfRefresh k) s =
      .next (settle (u.set fumStatusSelfRefresh (Nat.lor (u.get fumStatusSelfRefresh) (2 ^ k.val)))) := by
  have due : ¬(s.get (hbmTempClass k.val) ≠ 3 ∨ 2 ≤ s.get fumStatusState) := by omega
  simp only [exec_stackSelfRefresh, execStackSelfRefresh, if_neg due, ← hu, done_eq]

theorem exec_selfRefreshExit_of_cool {k : Fin 8} {s : State} (cool : s.get (hbmTempClass k.val) < 2)
    (out : s.flag fumStatusOut = true) (awake : s.get fumStatusState < 2) :
    exec (.selfRefreshExit k) s = .next (settle (rejoinReady (rlResume k.val
      (s.set fumStatusSelfRefresh (clearBits (s.get fumStatusSelfRefresh) (2 ^ k.val)))))) := by
  have due : ¬(2 ≤ s.get (hbmTempClass k.val) ∨ (!s.flag fumStatusOut) = true ∨ 2 ≤ s.get fumStatusState) := by
    simp only [out, Bool.not_true, Bool.false_eq_true, false_or]
    omega
  exact if_neg due

/-! ## The throttle (R513) -/

theorem setLevel_get {l : Nat} (fits : l < 16) (s : State) : (setLevel l s).get fumStatusLevel = l := by
  have stored : (s.set fumStatusLevel l).get fumStatusLevel = l := (get_set_self s fumStatusLevel l).trans (Nat.mod_eq_of_lt fits)
  unfold setLevel
  dsimp only
  split
  · rw [raise_ne _ (by decide), stored]
  · exact stored

@[simp] theorem setLevel_fum (l : Nat) (s : State) : (setLevel l s).fum = s.fum := by
  unfold setLevel
  dsimp only
  split
  · rw [raise_fum_frame]; rfl
  · rfl

theorem setLevel_reached {s : State} (below : s.get fumStatusLevel ≠ 15) : (setLevel 15 s).get fumEvtLevel15 = 1 := by
  have reached : setLevel 15 s = raise fumEvtLevel15 (s.set fumStatusLevel 15) := if_pos ⟨rfl, below⟩
  rw [reached, raise_self _ _ (by decide)]

/-- Where the power over 1 s is within the budget, the update sets the level that the holds, the budget and the hottest sensor ask
for, and the count of milliseconds above the budget starts again (R513). -/
theorem exec_throttleUpdate_of_within {a b d i x : Nat} {s u : State} (hx : x = appliedBudget s)
    (hu : u = s.onFum (fun f => { f with ocHold := f.ocHold && decide (3300 ≤ i), dieHold := f.dieHold && decide (210 ≤ d) }))
    (within : b ≤ 10 * x) :
    exec (.throttleUpdate a b d i) s = .next (settle ((setLevel
      (if u.fum.ocHold = true ∨ u.fum.dieHold = true then 15
       else if 10 * x < a ∧ 310 * x < 32 * b then min (s.get fumStatusLevel + 1) 15
       else if 8 * a < 70 * x ∧ 0 < s.get fumStatusLevel ∧ d < 200 then s.get fumStatusLevel - 1
       else s.get fumStatusLevel) u).onFum (fun f => { f with overMs := 0 }))) := by
  have level : u.get fumStatusLevel = s.get fumStatusLevel := by rw [hu, onFum_get_frame]
  simp only [exec_throttleUpdate, execThrottleUpdate, ← hx, ← hu, level, Bool.or_eq_true, if_neg (Nat.not_lt.mpr within), done_eq]

/-- A hold taken sets level 15, with its event where the level was lower (R513). -/
theorem hold_sets_fifteen (hold : FumState → FumState) (s : State) :
    ∃ t, done (setLevel 15 (s.onFum hold)) = .next t ∧ t.get fumStatusLevel = 15 ∧ t.fum = hold s.fum ∧
      (s.get fumStatusLevel ≠ 15 → t.get fumEvtLevel15 = 1) :=
  ⟨_, done_eq _, setLevel_get (by decide) _, setLevel_fum _ _, fun below => setLevel_reached (s := s.onFum hold) below⟩

/-! ## P1 and gating (R526, R527) -/

/-- P1 is entered by a node with an empty bank, no work and no transition under way (R527). -/
theorem exec_p1Entry_of_idle {s u : State} (hu : u = s.set fumPstateReq 2) (empty : u.flag tickStatusBankEmpty = true)
    (idle : workRuns u = false) (awake : u.get fumStatusState < 2) (still : u.fum.transition = 0) :
    exec .p1Entry s = .next (settle (((State.each (List.range 16) lpAsk u).set fumPstateBusy 1).onFum
      (fun f => { f with transition := 1 }))) := by
  have may : ¬((!u.flag tickStatusBankEmpty) = true ∨ workRuns u = true ∨ 2 ≤ u.get fumStatusState ∨ u.fum.transition ≠ 0) := by
    simp [empty, idle, awake, still]
  simp only [exec_p1Entry, execP1Entry, ← hu, if_neg may, done_eq]

theorem exec_p1Exit_of_p1 {s : State} (p1 : s.get fumStatusState = 2) (still : s.fum.transition = 0) :
    exec .p1Exit s = .next (settle (((s.set fumPstateReq 0).set fumPstateBusy 1).onFum (fun f => { f with transition := 2 }))) := by
  have state : (s.set fumPstateReq 0).get fumStatusState = 2 := (get_set_ne s 0 (by decide)).trans p1
  have may : ¬((s.set fumPstateReq 0).get fumStatusState ≠ 2 ∨ (s.set fumPstateReq 0).fum.transition ≠ 0) := by
    rw [state, set_fum_frame, still]
    decide
  exact if_neg may

/-- Settles O33: the guards of each command leave one branch of its meaning; both holds set level 15 by one rule, and a reading is
judged against the class before it. -/
theorem powerCompletes : Obligations.PowerCompletes := by
  refine ⟨fun k r s => ?reading, fun k s u n => exec_tempRead_of_silence, fun k s u => exec_stackSelfRefresh_of_critical,
    fun k s => exec_selfRefreshExit_of_cool, fun a b d i x s u => exec_throttleUpdate_of_within, fun s => ?overcurrent,
    fun s => ?dieHotHold, fun s => ⟨_, rfl, raise_self s fumEvtDieHot (by decide)⟩, fun l s unlocked => if_pos unlocked,
    fun s u => exec_p1Entry_of_idle, fun s => exec_p1Exit_of_p1, fun s => ?pstateDone, fun u s light idle => if_pos ⟨light, idle⟩,
    fun u s => rfl⟩
  case reading =>
    -- The class and the maximum are read past the count of silent reads, which is no register.
    simp only [exec_tempRead, execTempRead, get_hbmTempClass_of_reading, done_eq]
    rfl
  case overcurrent =>
    obtain ⟨t, next, level, fum, event⟩ := hold_sets_fifteen (fun f => { f with ocHold := true }) s
    exact ⟨t, next, level, by rw [fum], event⟩
  case dieHotHold =>
    obtain ⟨t, next, level, fum, event⟩ := hold_sets_fifteen (fun f => { f with dieHold := true }) s
    exact ⟨t, next, level, by rw [fum], event⟩
  case pstateDone =>
    refine ⟨fun entering => ?_, fun leaving => ?_⟩
    · have runs : ¬ s.fum.transition = 0 := by omega
      simp only [exec_pstateDone, execPstateDone, if_neg runs, if_pos entering, done_eq]
    · have runs : ¬ s.fum.transition = 0 := by omega
      have exits : ¬ s.fum.transition = 1 := by omega
      simp only [exec_pstateDone, execPstateDone, if_neg runs, if_neg exits, done_eq]

end Sys2Proof.Machine
end

section
/-! PROOF. Row logic (chapter 07): the commands of a batch, the start and the end of batches, fences and channel tests, and which
bytes of the tiers a command writes: O17, O18, O53. -/

namespace Sys2Proof.Machine

/-! ## The next command of a batch (R250 to R254, R262) -/

section
variable {k : Fin 8} {s : State} {b : RlgBatch} {c : List Byte} {op : Nat} {ecc : List (Nat × Ecc)} {src : List Byte → List Nat}
  {effect : List Byte → List (Nat × Nat) → State → State}

/-- The next command of a batch acts in the banks its mask selects, between the decodes of its sources and the batch's advance. -/
theorem rlRun_of_next (next : RowNext k.val s b c) (code : rlOp c = op) :
    rlRun op k ecc src effect s = rowAfter k.val b (effect c (rowBanks k.val b c) (rowBegin k.val b c (src c) ecc s)) := by
  obtain ⟨batch, cmd, runs, awake⟩ := next
  subst code
  simp only [rlRun, batch, cmd, runs, awake, ne_eq, not_true, Bool.false_eq_true, or_self, if_false]
  rfl

/-- A command of another opcode waits. -/
theorem rlRun_of_other (next : RowNext k.val s b c) (code : rlOp c ≠ op) : rlRun op k ecc src effect s = s := by
  obtain ⟨batch, cmd, -, -⟩ := next
  simp only [rlRun, batch, cmd, ne_eq, code, not_false_eq_true, true_or, if_true]

theorem done_rlRun_of_next (next : RowNext k.val s b c) (code : rlOp c = op) :
    done (rlRun op k ecc src effect s) =
      .next (settle (rowAfter k.val b (effect c (rowBanks k.val b c) (rowBegin k.val b c (src c) ecc s)))) := by
  rw [rlRun_of_next next code, done_eq]

end

/-- Settles O17: each meaning is the run of the next command with the effect that its clause writes out. -/
theorem rowCommandsComplete : Obligations.RowCommandsComplete :=
  ⟨fun _ _ _ _ => done_rlRun_of_next, fun _ _ _ _ _ => done_rlRun_of_next, fun _ _ _ _ _ => done_rlRun_of_next,
    fun _ _ _ _ _ => done_rlRun_of_next, fun _ _ _ _ _ => done_rlRun_of_next, fun _ _ _ _ _ => done_rlRun_of_next,
    fun _ _ _ _ _ => done_rlRun_of_next, fun _ _ _ _ => done_rlRun_of_next, fun _ _ _ _ _ => done_rlRun_of_next,
    fun _ _ _ _ _ => done_rlRun_of_next, fun _ _ _ _ => done_rlRun_of_next, fun _ _ _ _ => done_rlRun_of_next,
    fun _ _ _ _ => done_rlRun_of_next⟩

/-! ## Batches, fences and channel tests (R231 to R233, R259 to R265) -/

/-- A slot that may start takes its batch to the check, on a stack that runs none (R259, R260). -/
theorem exec_rowlogicBatchStart_of_startable {i : Fin 1024} {s : State} {j : Nat} (hj : j = pickSlot s 3 i.val)
    (may : startable s 3 j = true) (idle : rlBatch s ((slotOf s j).unit % 8) = none)
    (k : Served s (rlAdmit (slotOf s j).unit (slotOf s j).desc (some j) (startSlot j s))) :
    exec (.rowlogicBatchStart i) s =
      .next (settle (rlAdmit (slotOf s j).unit (slotOf s j).desc (some j) (startSlot j s))) := by
  rw [exec_rowlogicBatchStart, execRowlogicBatchStart]
  refine whole_served ?_ k
  simp only [← hj, may, idle, Option.isSome_none, Bool.not_true, Bool.or_self, Bool.false_eq_true, if_false, done_eq]

/-- A submission is checked while no plan is active and the stack runs no batch; with a plan active it is refused (R261). -/
theorem exec_rlgSubmit_of_go {k : Fin 8} {v : BitVec 64} {s u : State} (hu : u = s.set (rlgStackSubmitAddr k.val) (bits v.toNat 0 48))
    (go : bitOf v.toNat 63 = true) :
    (u.flag tickStatusBankEmpty = true → rlBatch u k.val = none →
      exec (.rlgSubmit k v) s = .next (settle (rlAdmit k.val (bits v.toNat 0 48) none u))) ∧
    (u.flag tickStatusBankEmpty = false →
      exec (.rlgSubmit k v) s = .next (settle (raise (rlgStackStatSubmitRefused k.val) u))) := by
  simp only [exec_rlgSubmit, execRlgSubmit, ← hu, go, Bool.not_true, Bool.false_eq_true, if_false]
  refine ⟨fun empty idle => ?_, fun plan => ?_⟩
  · simp only [empty, idle, Option.isNone_none, and_self, if_true, done_eq]
  · simp only [plan, Bool.false_eq_true, false_and, if_false, done_eq]

/-- A fence covers the batches that no completed fence has covered; one that covers none is complete at once (R265). -/
theorem exec_rlFenceGo_cases (s : State) :
    (s.rlg.cover = [] → exec .rlFenceGo s = .next (settle (raise rlgEvtFenceDone (s.set rlgFenceDone 1)))) ∧
    (s.rlg.cover ≠ [] → exec .rlFenceGo s = .next (settle (fencePending
      (s.onRlg (fun r => { r with fences := r.fences ++ [⟨s.rlg.cover.map (fun c => c.id), 0, 0⟩] }))))) := by
  simp only [exec_rlFenceGo, execRlFenceGo, fenceIssue, List.isEmpty_iff, List.map_eq_nil_iff]
  refine ⟨fun empty => ?_, fun covers => ?_⟩
  · simp only [empty, if_true, fenceReport, done_eq]
  · simp only [covers, if_false, done_eq]

/-- A write of TG_CTL with START in MODE 0, which destroys nothing, starts a generator that is free (R231, R233). -/
theorem tgStart_of_free {c v : Nat} {names : Bool} {s u : State}
    (hu : u = (((s.set (chanFld c hbmTgCtlMode dtcTgCtlMode) (bits v 6 2)).set (chanFld c hbmTgCtlOrder dtcTgCtlOrder)
      (bits v 8 2)).set (chanFld c hbmTgCtlPattern dtcTgCtlPattern) (bits v 10 2)).set
      (chanFld c hbmTgCtlGap dtcTgCtlGap) (bits v 12 16))
    (free : u.flag (tgCtl c).1 = false) (mode : bits v 6 2 = 0) :
    tgStart c v names s = { u with care := { u.care with tgDone := Tab.set 0 u.care.tgDone c 0 } }.set (tgCtl c).1 1 := by
  subst hu
  exact (if_neg (ne_true_of_eq_false free)).trans (if_pos (.inl mode))

/-- Settles O18: the guards of each command leave one branch of its meaning; a batch's start has it whole, where its accesses are
served. -/
theorem rowBatchesComplete : Obligations.RowBatchesComplete := by
  refine ⟨fun i s t j hj may idle ht k => ?start, fun k v s u => exec_rlgSubmit_of_go, exec_rlFenceGo_cases,
    fun f rest s oldest ready => ?fence, fun c v s u hu free mode => congrArg done (tgStart_of_free hu free mode)⟩
  case start =>
    subst ht
    exact exec_rowlogicBatchStart_of_startable hj may idle k
  case fence =>
    simp only [exec_rlFenceComplete, execRlFenceComplete, oldest, ready, Bool.not_true, Bool.false_eq_true, if_false, done_eq]

/-! ## What a row write leaves alone (R247, R262) -/

/-- A register field by which the bytes of a row are found, or the fault ring's: the partition blocks lie 64 bytes apart, and
residues tell these fields from what a row write counts. -/
abbrev Placing (g : Fld) : Prop := g.key % 512 ∈ [0, 1, 2, 5, 32, 48, 128]

/-- Between `s` and `t` the byte at `a` stays, and so does all that says where the bytes of a row stand. -/
structure RowKept (a : Nat) (s t : State) : Prop where
  place : ∀ g, Placing g → t.get g = s.get g := by intros; rfl
  care : t.care = s.care := by rfl
  rlg : t.rlg = s.rlg := by rfl
  epoch : t.mem.epoch = s.mem.epoch := by rfl
  byte : tierByte t a = tierByte s a := by rfl

theorem RowKept.refl (a : Nat) (s : State) : RowKept a s s := {}

theorem RowKept.trans {a : Nat} {s t u : State} (h : RowKept a s t) (k : RowKept a t u) : RowKept a s u where
  place g hg := (k.place g hg).trans (h.place g hg)
  care := k.care.trans h.care
  rlg := k.rlg.trans h.rlg
  epoch := k.epoch.trans h.epoch
  byte := k.byte.trans h.byte

theorem placing_of_first (f : Nat → Fld) (i : Nat) (reg : (f i).reg = (f 0).reg + i * 0x40) (bit : (f i).lsb = (f 0).lsb)
    (h : Placing (f 0)) : Placing (f i) := by
  rwa [Placing, show (f i).key % 512 = (f 0).key % 512 by simp only [Fld.key, reg, bit]; omega]

section
variable {a : Nat} {s t : State}

theorem RowKept.ring (h : RowKept a s t) (ringless : s.get telFaultRingCtlEntries = 0) : t.get telFaultRingCtlEntries = 0 :=
  (h.place _ (by decide)).trans ringless

theorem RowKept.latent (h : RowKept a s t) (clean : s.care.latent = []) : t.care.latent = [] := h.care ▸ clean

/-- The bytes of a row stand where they stood. -/
theorem RowKept.addrHbm_eq (h : RowKept a s t) (chan bank row byte : Nat) :
    addrHbm t chan bank row byte = addrHbm s chan bank row byte := by
  have enable (p : Nat) := flag_congr (h.place _ (placing_of_first memPartCfgEnable p rfl rfl (by decide)))
  have draining (p : Nat) := flag_congr (h.place _ (placing_of_first memPartCfgDraining p rfl rfl (by decide)))
  have mode (p : Nat) := flag_congr (h.place _ (placing_of_first memPartCfgMode p rfl rfl (by decide)))
  have tier (p : Nat) := h.place _ (placing_of_first memPartCfgTier p rfl rfl (by decide))
  have first (p : Nat) := h.place _ (placing_of_first memPartRangeFirst p rfl rfl (by decide))
  have frames (p : Nat) := h.place _ (placing_of_first memPartRangeFrames p rfl rfl (by decide))
  simp only [addrHbm, partCovers, enable, draining, mode, tier, first, frames]

theorem set_kept {f : Fld} (h : ¬ Placing f) (v : Nat) : RowKept a s (s.set f v) where
  place g hg := get_set_ne s v (fun e => h (by rwa [Placing, ← e]))

theorem bump_kept {f : Fld} (h : ¬ Placing f) (n : Nat) : RowKept a s (s.bump f n) := set_kept h _

theorem raise_kept {f : Fld} (h : ¬ Placing f) : RowKept a s (raise f s) where
  place g hg := raise_ne s (fun e => h (by rwa [Placing, ← e]))
  care := raise_care_frame s f
  rlg := raise_rlg_frame s f
  epoch := by rw [raise_mem_frame]
  byte := tierByte_congr (by rw [raise_mem_frame]) (by rw [raise_mem_frame]) a

theorem onFlt_kept (f : FltState → FltState) : RowKept a s (s.onFlt f) := {}

/-! ### A fault recorded without a ring (R572, R574) -/

theorem writeRecord_kept (ringless : s.get telFaultRingCtlEntries = 0) (cls code unit repeats info action tick : Nat) (claim : Option Nat) :
    RowKept a s (writeRecord cls code unit repeats info action tick claim s) := by
  have counted : RowKept a s (s.set telFaultSeqSeq (s.get telFaultSeqSeq + 1)) := set_kept (by decide) _
  unfold writeRecord
  extract_lets u r base buf w
  have buffered : RowKept a s w := counted.trans (onFlt_kept _)
  rw [show ringWrite r w = w from if_pos (.inl (buffered.ring ringless))]
  exact buffered.trans (raise_kept (by decide))

theorem coalEnd_kept (ringless : s.get telFaultRingCtlEntries = 0) (c : Coal) : RowKept a s (coalEnd c s) := by
  have dropped : RowKept a s (s.onFlt (fun x => { x with coal := x.coal.filter (fun y => y != c) })) := {}
  unfold coalEnd
  dsimp only
  split
  · exact dropped
  · exact dropped.trans (writeRecord_kept (dropped.ring ringless) _ _ _ _ _ _ _ _)

theorem coalExpire_kept (ringless : s.get telFaultRingCtlEntries = 0) : RowKept a s (coalExpire s) :=
  each_keeps (RowKept a s) coalEnd (fun c _ h => h.trans (coalEnd_kept (h.ring ringless) c)) _ s (.refl a s)

theorem faultCore_kept (ringless : s.get telFaultRingCtlEntries = 0) (c : FltClass) (code unit info action : Nat) (claim : Option Nat) :
    RowKept a s (faultCore c code unit info action claim s) := by
  have expired : RowKept a s (coalExpire s) := coalExpire_kept ringless
  unfold faultCore
  dsimp only
  split
  · exact writeRecord_kept ringless _ _ _ _ _ _ _ _
  · split
    · exact (expired.trans (onFlt_kept _)).trans (bump_kept (by decide) 1)
    · refine RowKept.trans ?room (RowKept.trans (writeRecord_kept (RowKept.ring ?room ringless) _ _ _ _ _ _ _ _) (onFlt_kept _))
      split
      · exact expired
      · split
        · exact expired.trans (coalEnd_kept (expired.ring ringless) _)
        · exact expired

theorem fault_kept (ringless : s.get telFaultRingCtlEntries = 0) (c : FltClass) (code unit info action : Nat) (claim : Option Nat) :
    RowKept a s (fault c code unit info action claim s) := by
  rw [show fault c code unit info action claim s = faultCore c code unit info action claim s from if_neg (fun h => h.1 ringless)]
  exact faultCore_kept ringless c code unit info action claim

end

/-! ### The parts of a row write -/

/-- The bytes of a row write. -/
def rowPut (chan bank row : Nat) (bs : List Byte) (s : State) : State :=
  bs.zipIdx.foldl (fun t x => tierPut (addrHbm t chan bank row x.2) x.1 t) s

/-- The check bytes of a row write: its granules hold no error, and the poison it gives them. -/
def rowMark (chan bank row poison : Nat) (s : State) : State :=
  (List.range 16).foldl (fun t g =>
    let a := addrHbm t chan bank row (64 * g)
    (if t.care.latent = [] then t else setLatent a .clean t).setPoison a (bitOf poison g)) s

/-- The report of poison written. -/
def rowReport (chan bank row poison : Nat) (s : State) : State :=
  if popcount 16 poison = 0 then s
  else fault .memory 6 (chan / 32) (addrHbm s chan bank row (64 * (lowestBit 16 poison).getD 0)) 5 none
    (raise rlgEvtPoison (s.bump rlgPoisonPoison (popcount 16 poison)))

theorem rowWrite_eq (chan bank row : Nat) (bs : List Byte) (poison : Nat) (s : State) :
    rowWrite chan bank row bs poison s = if bitOf (s.get (hbmFailedPcMask (chan / 32))) (chan % 32) then s
      else rowReport chan bank row poison (rowMark chan bank row poison (rowPut chan bank row bs s)) := rfl

section
variable {a chan bank row poison : Nat} {s : State}

/-- Each byte of the list goes to its place in the row, and no other byte changes. -/
theorem rowPut_kept {bs : List Byte} (away : ∀ i < bs.length, a ≠ addrHbm s chan bank row i) :
    RowKept a s (rowPut chan bank row bs s) := by
  refine each_keeps_of_mem (f := fun (x : Byte × Nat) t => tierPut (addrHbm t chan bank row x.2) x.1 t) (P := RowKept a s)
    (fun x hx t kept => kept.trans { byte := tierByte_put_ne t x.1 ?_ }) (.refl a s)
  rw [kept.addrHbm_eq]
  exact away x.2 (by simpa using List.snd_lt_of_mem_zipIdx hx)

theorem rowPut_append (bs : List Byte) (v : Byte) :
    rowPut chan bank row (bs ++ [v]) s =
      tierPut (addrHbm (rowPut chan bank row bs s) chan bank row bs.length) v (rowPut chan bank row bs s) := by
  simp [rowPut, List.zipIdx_append]

theorem rowMark_kept (clean : s.care.latent = []) : RowKept a s (rowMark chan bank row poison s) := by
  refine foldl_keeps (RowKept a s) _ (fun t g kept => kept.trans ?_) _ s (.refl a s)
  dsimp only
  rw [if_pos (kept.latent clean)]
  exact {}

theorem rowReport_kept (ringless : s.get telFaultRingCtlEntries = 0) : RowKept a s (rowReport chan bank row poison s) := by
  have counted : RowKept a s (raise rlgEvtPoison (s.bump rlgPoisonPoison (popcount 16 poison))) :=
    (bump_kept (by decide) _).trans (raise_kept (by decide))
  unfold rowReport
  split
  · exact .refl a s
  · exact counted.trans (fault_kept (counted.ring ringless) _ _ _ _ _ _)

/-- What follows the bytes of a row write touches no byte of the tiers. -/
theorem rowFinish_kept (clean : s.care.latent = []) (ringless : s.get telFaultRingCtlEntries = 0) :
    RowKept a s (rowReport chan bank row poison (rowMark chan bank row poison s)) :=
  (rowMark_kept clean).trans (rowReport_kept ((rowMark_kept (a := a) clean).ring ringless))

/-- A row write keeps every byte outside the places of its list in the row. -/
theorem rowWrite_kept {bs : List Byte} (clean : s.care.latent = []) (ringless : s.get telFaultRingCtlEntries = 0)
    (away : ∀ i < bs.length, a ≠ addrHbm s chan bank row i) : RowKept a s (rowWrite chan bank row bs poison s) := by
  have put : RowKept a s (rowPut chan bank row bs s) := rowPut_kept away
  rw [rowWrite_eq]
  split
  · exact .refl a s
  · exact put.trans (rowFinish_kept (put.latent clean) (put.ring ringless))

/-- The last byte of the list stands after a row write where the row would hold it, however long the list is. -/
theorem tierByte_rowWrite_last {bs : List Byte} {v : Byte} (clean : s.care.latent = []) (ringless : s.get telFaultRingCtlEntries = 0)
    (runs : bitOf (s.get (hbmFailedPcMask (chan / 32))) (chan % 32) = false)
    (away : ∀ i < bs.length, addrHbm s chan bank row bs.length ≠ addrHbm s chan bank row i) :
    tierByte (rowWrite chan bank row (bs ++ [v]) poison s) (addrHbm s chan bank row bs.length) = v := by
  have put : RowKept (addrHbm s chan bank row bs.length) s (rowPut chan bank row bs s) := rowPut_kept away
  rw [rowWrite_eq, if_neg (by simp [runs]), (rowFinish_kept _ _).byte, rowPut_append, put.addrHbm_eq, tierByte_put_self]
  · rw [rowPut_append]; exact put.latent clean
  · rw [rowPut_append]; exact put.ring ringless

end

/-! ## Which bytes a command writes (R247, R250, R252, R254) -/

/-- No accumulator holds more than the 1,024 bytes of a row (R247). -/
def AccRows (s : State) : Prop := ∀ k, (Tab.get [] s.rlg.acc k).length ≤ 1024

theorem accRows_reset : AccRows State.reset := fun _ => Nat.zero_le 1024

theorem accBytes_length_le {s : State} (h : AccRows s) (chan bank : Nat) : (accBytes s chan bank).length ≤ 1024 := by
  unfold accBytes
  dsimp only
  split
  · exact Nat.le_of_eq List.length_replicate
  · exact h _

theorem rowMap_length (f : Byte → Byte → Byte → Byte) (s : State) (x : Nat × Nat) (ra rb rc : Nat) :
    (rowMap f (rowBytes s x.1 x.2 ra) (rowBytes s x.1 x.2 rb) (rowBytes s x.1 x.2 rc)).length = 1024 := by
  simp [rowMap, rowBytes]

section
variable {a k : Nat} {s : State}

/-- Row writes of at most 1,024 bytes each keep what stands outside their rows. -/
theorem each_rowWrite_kept {row : Nat} {bytes : Nat × Nat → State → List Byte} {poison : Nat × Nat → State → Nat} {l : List (Nat × Nat)}
    (clean : s.care.latent = []) (ringless : s.get telFaultRingCtlEntries = 0)
    (fits : ∀ x t, RowKept a s t → (bytes x t).length ≤ 1024) (away : ∀ x ∈ l, ∀ i < 1024, a ≠ addrHbm s x.1 x.2 row i) :
    RowKept a s (State.each l (fun x t => rowWrite x.1 x.2 row (bytes x t) (poison x t) t) s) := by
  refine each_keeps_of_mem (P := RowKept a s) (fun x hx t kept => kept.trans ?_) (.refl a s)
  refine rowWrite_kept (kept.latent clean) (kept.ring ringless) (fun i hi => ?_)
  rw [kept.addrHbm_eq]
  exact away x hx i (Nat.lt_of_lt_of_le hi (fits x t kept))

theorem completeSlot_mem (i : Nat) : (completeSlot i s).mem = s.mem := by
  unfold completeSlot finishSlot
  split <;> rfl

theorem fenceReport_mem (f : RlgFence) : (fenceReport f s).mem = s.mem := by
  unfold fenceReport
  split
  · rw [raise_mem_frame, set_mem_frame]
  · split
    · exact completeSlot_mem _
    · split <;> rfl

theorem fenceIssue_mem (by_ who : Nat) : (fenceIssue by_ who s).mem = s.mem := by
  unfold fenceIssue
  dsimp only
  split
  · exact fenceReport_mem _
  · rfl

theorem rlEnd_mem (b : RlgBatch) : (rlEnd k b s).mem = s.mem := by
  unfold rlEnd
  dsimp only
  split
  · exact fenceIssue_mem _ _
  · split
    · rfl
    · exact completeSlot_mem _

/-- The advance of a batch touches no memory when no remap is due. -/
theorem rowAfter_mem (b : RlgBatch) (quiet : s.care.due = []) : (rowAfter k b s).mem = s.mem := by
  have still : startDue s = s := if_pos quiet
  unfold rowAfter
  dsimp only
  rw [still]
  split
  · rw [rlEnd_mem]; rfl
  · rfl

end

theorem tierByte_settle (s : State) (a : Nat) : tierByte (settle s) a = tierByte s a := rfl

/-- The activations of a command counted. -/
def rowCounted (b : RlgBatch) (w : List Byte) (s : State) : State :=
  s.onRlg (fun r => { r with acts := r.acts + rlActs (rlOp w) * (rlSelected (b.masks.getD (rlMask w) (0, 0))).length })

/-- With no error held and none given, nothing but the activations comes before a command's effect. -/
theorem rowBegin_of_clean {s : State} (clean : s.care.latent = []) (k : Nat) (b : RlgBatch) (w : List Byte) (rows : List Nat) :
    rowBegin k b w rows [] s = rowCounted b w s := if_pos ⟨rfl, clean⟩

section
variable {k : Fin 8} {s t : State} {b : RlgBatch} {w : List Byte} {op : Nat} {src : List Byte → List Nat}
  {effect : List Byte → List (Nat × Nat) → State → State} {a : Nat}

/-- A byte that a command's effect keeps, the command keeps; the effect calls for no remap. -/
theorem tierByte_of_rlRun (next : RowNext k.val s b w) (clean : s.care.latent = []) (quiet : s.care.due = [])
    (h : done (rlRun op k [] src effect s) = .next t)
    (keeps : (effect w (rowBanks k.val b w) (rowCounted b w s)).care = s.care ∧
      tierByte (effect w (rowBanks k.val b w) (rowCounted b w s)) a = tierByte s a) : tierByte t a = tierByte s a := by
  obtain ⟨care, byte⟩ := keeps
  by_cases code : rlOp w = op
  · rw [done_rlRun_of_next next code, rowBegin_of_clean clean] at h
    injection h with h
    have mem := rowAfter_mem (k := k.val) b (s := effect w (rowBanks k.val b w) (rowCounted b w s)) (by rw [care, quiet])
    rw [← h, tierByte_settle]
    exact (tierByte_congr (congrArg MemState.cells mem) (congrArg MemState.epoch mem) a).trans byte
  · rw [rlRun_of_other next code, done_eq] at h
    injection h with h
    rw [← h, tierByte_settle]

/-- A bitwise command writes the destination rows of its banks (R250). -/
theorem bitwise_keeps (clean : s.care.latent = []) (ringless : s.get telFaultRingCtlEntries = 0)
    (away : ∀ x ∈ rowBanks k.val b w, ∀ i < 1024, a ≠ addrHbm s x.1 x.2 (rlDst w) i) (f : Byte → Byte → Byte → Byte)
    (rows : List Byte → Nat × Nat × Nat) :
    (bitwise f rows w (rowBanks k.val b w) (rowCounted b w s)).care = s.care ∧
      tierByte (bitwise f rows w (rowBanks k.val b w) (rowCounted b w s)) a = tierByte s a := by
  have kept : RowKept a (rowCounted b w s) (bitwise f rows w (rowBanks k.val b w) (rowCounted b w s)) :=
    each_rowWrite_kept clean ringless (fun x t _ => Nat.le_of_eq (rowMap_length f t x _ _ _)) away
  exact ⟨kept.care, kept.byte⟩

/-- So does a store of accumulators that hold no more than a row (R252). -/
theorem accStore_keeps (clean : s.care.latent = []) (ringless : s.get telFaultRingCtlEntries = 0) (acc : AccRows s)
    (away : ∀ x ∈ rowBanks k.val b w, ∀ i < 1024, a ≠ addrHbm s x.1 x.2 (rlDst w) i) :
    (State.each (rowBanks k.val b w) (fun x t => rowWrite x.1 x.2 (rlDst w) (accBytes t x.1 x.2) (accPoison t x.1 x.2) t)
        (rowCounted b w s)).care = s.care ∧
      tierByte (State.each (rowBanks k.val b w) (fun x t =>
        rowWrite x.1 x.2 (rlDst w) (accBytes t x.1 x.2) (accPoison t x.1 x.2) t) (rowCounted b w s)) a = tierByte s a := by
  have kept := each_rowWrite_kept (s := rowCounted b w s) (bytes := fun x t => accBytes t x.1 x.2)
    (poison := fun x t => accPoison t x.1 x.2) clean ringless
    (fun x t kept => accBytes_length_le (s := t) (by rw [AccRows, kept.rlg]; exact acc) _ _) away
  exact ⟨kept.care, kept.byte⟩

end

theorem accPut_mem (chan bank : Nat) (bs : List Byte) (poison : Nat) (s : State) : (accPut chan bank bs poison s).mem = s.mem := rfl

theorem accPut_care (chan bank : Nat) (bs : List Byte) (poison : Nat) (s : State) : (accPut chan bank bs poison s).care = s.care := rfl

/-- A fold that writes accumulators and counts keeps the tiers. -/
theorem each_acc_keeps {α : Type} {f : α → State → State} (mem : ∀ x t, (f x t).mem = t.mem) (care : ∀ x t, (f x t).care = t.care)
    (l : List α) (s : State) (a : Nat) : (State.each l f s).care = s.care ∧ tierByte (State.each l f s) a = tierByte s a := by
  obtain ⟨m, c⟩ := each_keeps (fun t => t.mem = s.mem ∧ t.care = s.care) f
    (fun x t h => ⟨(mem x t).trans h.1, (care x t).trans h.2⟩) l s ⟨rfl, rfl⟩
  exact ⟨c, tierByte_congr (by rw [m]) (by rw [m]) a⟩

/-- A chain command writes accumulators only (R254). -/
theorem chain_keeps (add : Bool) (w : List Byte) (l : List (Nat × Nat)) (s : State) (a : Nat) :
    (chain add w l s).care = s.care ∧ tierByte (chain add w l s) a = tierByte s a :=
  each_acc_keeps (fun _ _ => by dsimp only; split <;> rfl) (fun _ _ => by dsimp only; split <;> rfl) _ s a

section
variable {k : Fin 8} {s t : State} {b : RlgBatch} {w : List Byte}

/-- The frame of the commands that write rows, where no accumulator holds more than a row (R247, R250, R252). -/
theorem rowWriters_frame (next : RowNext k.val s b w) (ringless : s.get telFaultRingCtlEntries = 0) (clean : s.care.latent = [])
    (quiet : s.care.due = []) (acc : AccRows s) :
    ∀ c ∈ [Instr.copy k [], .not k [], .and k [], .or k [], .xor k [], .maj k [], .accStore k], exec c s = .next t →
      ∀ a, (∀ x ∈ rowBanks k.val b w, ∀ i < 1024, a ≠ addrHbm s x.1 x.2 (rlDst w) i) → tierByte t a = tierByte s a := by
  simp only [List.forall_mem_cons, List.not_mem_nil, false_implies, implies_true, and_true, exec_copy, exec_not, exec_and, exec_or,
    exec_xor, exec_maj, exec_accStore]
  refine ⟨?_, ?_, ?_, ?_, ?_, ?_,
    fun h a away => tierByte_of_rlRun next clean quiet h (accStore_keeps clean ringless acc away)⟩
  all_goals exact fun h a away => tierByte_of_rlRun next clean quiet h (bitwise_keeps clean ringless away _ _)

/-- The frame of NOP and of the commands that write accumulators (R250, R252, R254). -/
theorem rowReaders_frame (next : RowNext k.val s b w) (clean : s.care.latent = []) (quiet : s.care.due = []) :
    ∀ c ∈ [Instr.rlgNop k, .accClear k, .accLoad k [], .accAdd k [], .chainMove k, .chainAdd k], exec c s = .next t →
      ∀ a, tierByte t a = tierByte s a := by
  simp only [List.forall_mem_cons, List.not_mem_nil, false_implies, implies_true, and_true, exec_rlgNop, exec_accClear, exec_accLoad,
    exec_accAdd, exec_chainMove, exec_chainAdd]
  refine ⟨fun h a => tierByte_of_rlRun next clean quiet h ⟨rfl, rfl⟩,
    fun h a => tierByte_of_rlRun next clean quiet h
      (each_acc_keeps (fun _ _ => accPut_mem _ _ _ _ _) (fun _ _ => accPut_care _ _ _ _ _) _ _ a),
    fun h a => tierByte_of_rlRun next clean quiet h
      (each_acc_keeps (fun _ _ => accPut_mem _ _ _ _ _) (fun _ _ => accPut_care _ _ _ _ _) _ _ a),
    fun h a => tierByte_of_rlRun next clean quiet h (each_acc_keeps (fun x t => ?addMem) (fun x t => ?addCare) _ _ a),
    fun h a => tierByte_of_rlRun next clean quiet h (chain_keeps false w _ _ a),
    fun h a => tierByte_of_rlRun next clean quiet h (chain_keeps true w _ _ a)⟩
  -- ACC_ADD writes its accumulator, then counts the NaN results of the sum.
  case addMem => split; exact (bump_mem_frame _ _ _).trans (accPut_mem _ _ _ _ _)
  case addCare => split; exact (bump_care_frame _ _ _).trans (accPut_care _ _ _ _ _)

end

/-! ### A state that holds more than a row in an accumulator -/

/-- A batch of one ACC_STORE into row 0 of bank 0 of pseudo-channel 0. -/
def storeBatch : RlgBatch := ⟨0, [leBytes 16 0x13], [(1, 1)], 0, false, true, 0⟩

/-- A node whose one partition is frame 0, decoded CONTIG. -/
def contigNode : State := (State.reset.set (memPartCfgEnable 0) 1).set (memPartRangeFrames 0) 1

/-- Stack 2 of that node runs the batch, with the bytes of `l` in the accumulator of the bank. -/
def accWit (l : List Byte) : State :=
  contigNode.onRlg (fun r => { r with batches := [(2, some storeBatch)], acc := [(1024, l)] })

theorem rowBanks_storeBatch : rowBanks 2 storeBatch (leBytes 16 0x13) = [(64, 0)] := by decide

theorem rlDst_accStore : rlDst (leBytes 16 0x13) = 0 := by decide

/-- Where a CONTIG partition of `n` frames from frame `k` holds a row, the byte's place in the row is added last (R183). -/
theorem addrHbm_of_partition {s : State} {row p k n : Nat} (chan bank byte : Nat)
    (found : (List.range 16).find? (fun p =>
      (s.flag (memPartCfgEnable p) || s.flag (memPartCfgDraining p)) && partCovers s 0 (row / 256) p &&
        !s.flag (memPartCfgMode p)) = some p)
    (first : s.get (memPartRangeFirst p) = k) (frames : s.get (memPartRangeFrames p) = n) :
    addrHbm s chan bank row byte =
      k * 2 ^ 30 + chan / 32 * (n * 2 ^ 27) + (row - 256 * k) * 2 ^ 19 + bank * 2 ^ 15 + chan % 32 * 2 ^ 10 + byte := by
  subst first frames
  simp only [addrHbm, found]

/-- The bytes of the row follow each other, and the byte after them is the next pseudo-channel's. -/
theorem addrHbm_contigNode (i : Nat) : addrHbm contigNode 64 0 0 i = 0x10000000 + i :=
  have place := addrHbm_of_partition (s := contigNode) (row := 0) (p := 0) (k := 0) (n := 1) 64 0 i (by decide) (by decide) (by decide)
  place.trans (by omega)

section
variable {l : List Byte}

theorem next_accWit : RowNext 2 (accWit l) storeBatch (leBytes 16 0x13) := by
  refine ⟨rfl, rfl, ?_, ?_⟩ <;> rw [accWit, onRlg_get_frame] <;> decide

/-- What ACC_STORE writes: the accumulator of the one bank, into row 0. -/
theorem exec_accStore_accWit (filled : l ≠ []) : exec (.accStore 2) (accWit l) = .next (settle (rowAfter 2 storeBatch
    (rowWrite 64 0 0 l 0 (rowCounted storeBatch (leBytes 16 0x13) (accWit l))))) := by
  refine (done_rlRun_of_next (k := 2) next_accWit (by decide)).trans ?_
  rw [rowBegin_of_clean rfl]
  simp only [show ((2 : Fin 8) : Nat) = 2 from rfl, rowBanks_storeBatch, rlDst_accStore, State.each, List.foldl_cons, List.foldl_nil]
  rw [show accBytes (rowCounted storeBatch (leBytes 16 0x13) (accWit l)) 64 0 = l from if_neg filled]
  rfl

/-- The last byte of a list one longer than the row stands after the row. -/
theorem tierByte_accStore_accWit {v : Byte} (row : l.length = 1024) : tierByte (rowAfter 2 storeBatch
    (rowWrite 64 0 0 (l ++ [v]) 0 (rowCounted storeBatch (leBytes 16 0x13) (accWit (l ++ [v]))))) 0x10000400 = v := by
  generalize hu : rowCounted storeBatch (leBytes 16 0x13) (accWit (l ++ [v])) = u
  have place (i : Nat) : addrHbm u 64 0 0 i = 0x10000000 + i := by rw [← hu]; exact addrHbm_contigNode i
  have reg (f : Fld) : u.get f = contigNode.get f := by rw [← hu]; rfl
  have clean : u.care.latent = [] := by rw [← hu]; rfl
  have ringless : u.get telFaultRingCtlEntries = 0 := by rw [reg]; decide
  have runs : bitOf (u.get (hbmFailedPcMask (64 / 32))) (64 % 32) = false := by rw [reg]; decide
  have care : (rowWrite 64 0 0 (l ++ [v]) 0 u).care = u.care :=
    (rowWrite_kept (a := 0) clean ringless (fun i _ => by rw [place]; omega)).care
  have mem : (rowAfter 2 storeBatch (rowWrite 64 0 0 (l ++ [v]) 0 u)).mem = (rowWrite 64 0 0 (l ++ [v]) 0 u).mem :=
    rowAfter_mem storeBatch (by rw [care, ← hu]; rfl)
  have last := tierByte_rowWrite_last (poison := 0) (bs := l) (v := v) clean ringless runs (fun i hi => by rw [place, place]; omega)
  rw [place, row] at last
  exact (tierByte_congr (congrArg MemState.cells mem) (congrArg MemState.epoch mem) _).trans last

end

/-- Refutes O53: the statement takes a state whose accumulator lists 1,025 bytes, and a store of it (R252) writes the last one past
the row, into the next pseudo-channel's. What it lacks is that no accumulator holds more than a row: `rowWriters_frame`. -/
theorem not_rowCommandsFrame : ¬ Obligations.RowCommandsFrame := by
  intro frame
  obtain ⟨l, row⟩ : ∃ l : List Byte, l.length = 1024 := ⟨List.replicate 1024 0, List.length_replicate⟩
  have kept := (frame 2 (accWit (l ++ [1])) _ storeBatch (leBytes 16 0x13) next_accWit ?ring rfl rfl).1 (.accStore 2) (by simp)
    (exec_accStore_accWit (by simp)) 0x10000400 ?away
  case ring => rw [accWit, onRlg_get_frame]; decide
  case away =>
    intro x hx i hi
    obtain rfl : x = (64, 0) := by simpa [rowBanks_storeBatch] using hx
    have place : addrHbm (accWit (l ++ [1])) 64 0 0 i = 0x10000000 + i := addrHbm_contigNode i
    rw [rlDst_accStore, place]
    omega
  have before : tierByte (accWit (l ++ [1])) 0x10000400 = 0 := by
    rw [show tierByte (accWit (l ++ [1])) 0x10000400 = tierByte contigNode 0x10000400 from rfl]
    decide
  rw [tierByte_settle, tierByte_accStore_accWit row, before] at kept
  exact absurd kept (by decide)

end Sys2Proof.Machine
end

section
/-! PROOF. Streams and Glade (chapter 08): the instructions of a stream program and what they leave alone, batches, tiles, drains,
migration, saves and the wait-for trace: O19, O20, O52. -/

namespace Sys2Proof.Machine

/-! ## The next instruction of a program (R279, R280, R281) -/

section
variable {c : Nat} {s : State} {w op : Nat} {f : Nat → State → State}

/-- The next instruction of a context that nothing keeps has its effect, and the registers that follow from the contexts are
brought up to it. -/
theorem strStep_of_ready (ready : InsnReady c s w) (code : insnOp w = op) : strStep op c f s = strSync (f w s) := by
  obtain ⟨⟨active, more, runs, free⟩, state, unrefused, held, insn⟩ := ready
  have moves : ¬ (strState s c ≠ 1 ∧ strState s c ≠ 2) := by omega
  simp only [strStep, active, more, runs, free, moves, held, unrefused, insn, code, Bool.not_true, Bool.false_eq_true, or_self, false_and,
    if_false, if_true]

theorem done_strStep_of_ready (ready : InsnReady c s w) (code : insnOp w = op) :
    done (strStep op c f s) = .next (settle (strSync (f w s))) := by rw [strStep_of_ready ready code, done_eq]

/-- Where the context has no translation, a range of addresses is one piece at the address itself (R294). -/
theorem strRange_of_untranslated {va n : Nat} (plain : (s.ctx c).xlate = false) (filled : n ≠ 0) (write : Bool) :
    strRange c write va n s = ((0, 0), [(n, va)], s) := by
  simp only [strRange, strPieces, plain, filled, Bool.not_false, if_true, if_false]

theorem StrCtx.tileBytes_ne_zero (x : StrCtx) : x.tileBytes ≠ 0 :=
  Nat.ne_of_gt (Nat.mul_pos (by decide) (Nat.two_pow_pos _))

/-- An address register holds 64 bits of what is written to it (R280). -/
theorem setA_mod (i v : Nat) : setA c i (v % 2 ^ 64) s = setA c i v s := by
  simp only [setA, Nat.mod_mod]

end

/-- LD64 of an aligned, untranslated address that is not refused loads the 8 bytes there (R281, R294). -/
theorem exec_ld64_of_served {c : Fin 512} {s t : State} {w va : Nat} (ready : InsnReady c.val s w) (code : insnOp w = 0x06)
    (hva : va = insnAddr s c.val w) (aligned : va % 8 = 0) (plain : (s.ctx c.val).xlate = false)
    (read : (useRead (64 + c.val) va 8 0 0 s).2.1 = false)
    (ht : t = strSync (strNext c.val (setA c.val (insnD w) (leNat (useRead (64 + c.val) va 8 0 0 s).1)
      (useRead (64 + c.val) va 8 0 0 s).2.2.2))) (k : Served s t) : exec (.ld64 c) s = .next (settle t) := by
  rw [exec_ld64, execLd64]
  refine whole_served ?_ k
  rw [ht]
  refine (done_strStep_of_ready ready code).trans ?_
  simp only [← hva, aligned, strRange_of_untranslated plain (show 8 ≠ 0 by decide), List.head?_cons, Option.map_some,
    Option.getD_some, read, ne_eq, not_true, if_false, Bool.false_eq_true]

/-- EMIT with room in the queue takes the slots it finds for its tile (R283, R288). -/
theorem exec_emit_of_slots {c : Fin 512} {s : State} {w : Nat} {p : Nat × Nat} (ready : InsnReady c.val s w) (code : insnOp w = 0x10)
    (room : (s.ctx c.val).inq.length ≤ (s.ctx c.val).depth) (aligned : insnAddr s c.val w % 256 = 0)
    (plain : (s.ctx c.val).xlate = false) (slots : slotsFor s c.val (reservedOnly (s.ctx c.val)) true = some p) :
    exec (.emit c) s = .next (settle (strSync (strNext c.val (pushTile c.val (insnAddr s c.val w) p.1 p.2 s)))) := by
  rw [exec_emit, execEmit, done_strStep_of_ready ready code]
  simp only [Nat.not_lt.mpr room, aligned, strRange_of_untranslated plain (StrCtx.tileBytes_ne_zero _), slots, ne_eq, not_true, if_false]

/-- EMITW with room in the queue takes the reserved slots it finds for its tile (R287). -/
theorem exec_emitw_of_slots {c : Fin 512} {s : State} {w : Nat} {p : Nat × Nat} (ready : InsnReady c.val s w) (code : insnOp w = 0x11)
    (aligned : insnAddr s c.val w % 256 = 0) (plain : (s.ctx c.val).xlate = false)
    (room : (s.ctx c.val).outq.length < (s.ctx c.val).wdepth) (slots : slotsFor s c.val true false = some p) :
    exec (.emitw c) s = .next (settle (strSync (strNext c.val (s.onCtx c.val (fun y =>
      { y with outq := y.outq ++ [⟨insnAddr s c.val w, p.1, [], [], false, cycleNow s⟩] }))))) := by
  rw [exec_emitw, execEmitw, done_strStep_of_ready ready code]
  simp only [Nat.not_le.mpr room, aligned, strRange_of_untranslated plain (StrCtx.tileBytes_ne_zero _), slots, ne_eq, not_true, if_false]

/-- A fence that covers no batch is complete as soon as a context issues it (R265). -/
theorem fenceIssue_of_uncovered {who : Nat} {s : State} (uncovered : s.rlg.cover = []) : fenceIssue 3 who s = s := by
  simp only [fenceIssue, uncovered, List.map_nil, List.isEmpty_nil, if_true, fenceReport, reduceCtorEq, Nat.reduceEqDiff, if_false]

/-- Settles O19: nothing keeps the context, so each instruction has its effect, whose guards leave the branch of the clause. -/
theorem streamProgramCompletes : Obligations.StreamProgramCompletes := by
  refine ⟨fun c s w => done_strStep_of_ready, fun c s w => done_strStep_of_ready, fun c s w => done_strStep_of_ready, ?addi,
    fun c s w => done_strStep_of_ready, fun c s w => done_strStep_of_ready, fun c s w => done_strStep_of_ready, ?endl,
    fun c s t w va => exec_ld64_of_served, fun c s w p => exec_emit_of_slots, fun c s w p => exec_emitw_of_slots,
    ?layer, ?rlf, fun c s w => done_strStep_of_ready⟩
  case addi =>
    intro c s w ready code
    rw [exec_addi, execAddi, done_strStep_of_ready ready code, insnAddr, setA_mod]
  case endl =>
    intro c s w ready code
    rw [exec_endl, execEndl, done_strStep_of_ready ready code]
    exact ⟨fun more => by simp only [more, if_true], fun last => by simp only [Nat.not_lt.mpr last, if_false]⟩
  case layer =>
    intro c s w ready code
    rw [exec_layer, execLayer, done_strStep_of_ready ready code]
    exact ⟨fun member => by simp only [member, Bool.false_eq_true, if_false], fun ahead => by simp only [ahead, if_true]⟩
  case rlf =>
    intro c s w ready code new uncovered passed
    rw [exec_rlf, execRlf, done_strStep_of_ready ready code]
    simp only [new, if_false, fenceIssue_of_uncovered uncovered, passed, Bool.false_eq_true]

/-! ## Batches, tiles and drains (R278, R279, R287, R288, R291) -/

/-- A slot that may start admits the batch whose descriptor and program are read and pass every check of R278. -/
theorem exec_streamBatchStart_of_sound {i : Fin 1024} {j : Nat} {x : Slot} {u : State × List Byte × List Nat} {s t : State}
    (hj : j = pickSlot s 2 i.val) (may : startable s 2 j = true) (hx : x = slotOf s j) (unit : x.unit < 512)
    (fetch : strFetch x.unit x.desc (startSlot j s) = (u.2.1, false, some u.2.2, u.1))
    (sound : strReason u.1 x.unit x.desc u.2.1 false (some u.2.2) = 0)
    (ht : t = strAdmit x.unit j x.desc u.2.1 u.2.2 u.1) (k : Served s t) : exec (.streamBatchStart i) s = .next (settle t) := by
  rw [exec_streamBatchStart, execStreamBatchStart]
  refine whole_served ?_ k
  simp only [← hj, may, ← hx, Nat.not_le.mpr unit, strStart, fetch, sound, Option.getD_some, Bool.not_true, Bool.false_eq_true, ne_eq,
    not_true, if_false, done_eq, ht]

theorem exec_tileAllocate_of_some {s t : State}
    (found : (allocOrder s).findSome? (fun c => allocWanted ((sharedWaiters s).head? != some c) c s) = some t) :
    exec .tileAllocate s = .next (settle (strSync t)) := by
  simp only [exec_tileAllocate, execTileAllocate, found, done_eq]

/-- A batch whose END is executed and whose queues are empty completes its slot (R279). -/
theorem exec_streamBatchComplete_of_drained {c : Fin 512} {s : State} (active : (s.ctx c.val).active = true)
    (ended : (s.ctx c.val).ended = true) (inq : (s.ctx c.val).inq = []) (outq : (s.ctx c.val).outq = []) (runs : strState s c.val = 1) :
    exec (.streamBatchComplete c) s = .next (settle (strSync (completeSlot (s.ctx c.val).slot
      (raise (strEvtDone c.val) (setStr c.val 0 (s.onCtx c.val (fun y => { y with active := false }))))))) := by
  simp only [exec_streamBatchComplete, execStreamBatchComplete, active, ended, inq, outq, runs, Bool.not_true, Bool.false_eq_true, ne_eq,
    not_true, or_self, if_false, done_eq]

/-- A group whose members have all arrived drains (R291, R292, R305). -/
theorem exec_groupDrain_of_arrived {g : Fin 16} {s : State} (members : membersOf s g.val ≠ [])
    (all : (membersOf s g.val).all (arrived s) = true) :
    exec (.groupDrain g) s = .next (settle (
      let u := State.each (membersOf s g.val) strNext (s.set (gldGroupStatLayer g.val) (layerOf s g.val + 1))
      strSync (State.each (Tab.keys u.str.ctx) (fun c t =>
        if (t.ctx c).group ≠ g.val ∨ (t.ctx c).active = false then t
        else if (t.ctx c).held = true then t.onCtx c (fun y => { y with held := false })
        else if strState t c = 6 then strRun c t else t) u))) := by
  simp only [exec_groupDrain, execGroupDrain, List.isEmpty_eq_false_iff.mpr members, all, Bool.not_true, Bool.or_self, Bool.false_eq_true,
    if_false, Bool.not_eq_true', done_eq]

/-! ## Migration (R296) -/

/-- A row whose meaning answers a state answers one, and that state where its accesses are served. -/
theorem whole_of_next {f : State → Host.Outcome State Fault Refusal} {s t : State} (h : f s = .next (settle t)) :
    ∃ x, whole f s = .next x ∧ (Served s t → x = settle t) := by
  obtain ⟨x, hx⟩ := whole_total h
  exact ⟨x, hx, fun k => Host.Outcome.next.inj (hx.symm.trans (whole_served h k))⟩

/-- A PARKED page without a frame becomes NO_FRAME, and is reported to the driver. -/
theorem exec_pageMigration_of_ringless {c : Fin 512} {s t : State} {p : Nat × Nat} (faulted : strState s c.val = 4)
    (parked : s.get (strFaultKind c.val) = 3) (mapped : pteAddr s (s.get (strFaultVaAddr c.val)) 4 1
      (bits (nodeNat s (s.get mmuRootAddr + 8 * (s.ctx c.val).asid) 8) 8 40 * 256) = some p) (ringless : s.get strMigCtlEntries = 0)
    (ht : t = fault .stream 5 c.val (s.get (strFaultVaAddr c.val)) 7 none
      (raise (strEvtFault c.val) ((s.set (strFaultKind c.val) 5).set (strEvtFault c.val) 0))) (k : Served s t) :
    exec (.pageMigration c) s = .next (settle t) := by
  rw [exec_pageMigration, execPageMigration]
  refine whole_served ?_ k
  simp only [faulted, parked, mapped, ringless, ht, ne_eq, not_true, or_self, if_false, true_or, if_true, done_eq]

/-! ## Halt, resume, save and restore (R297, R298) -/

theorem exec_contextHalt_of_running {c : Fin 512} {s : State} (runs : strState s c.val = 1) :
    exec (.contextHalt c) s = .next (settle (s.onCtx c.val (fun x => { x with halting := true }))) := by
  simp only [exec_contextHalt, execContextHalt, runs, true_or, if_true, done_eq]

/-- A halting context without output tiles is halted. -/
theorem exec_contextHalted_of_committed {c : Fin 512} {s : State} (halting : (s.ctx c.val).halting = true)
    (outq : (s.ctx c.val).outq = []) :
    exec (.contextHalted c) s = .next (settle (strSync (strHalted c.val s))) := by
  simp only [exec_contextHalted, execContextHalted, haltWaits, halting, outq, List.any_nil, Bool.not_true, Bool.false_eq_true, or_self,
    if_false, done_eq]

/-- A context that keeps its descriptor resumes with it; one that was restored reads it again first (R297; assumption 56). -/
theorem exec_streamResume_of_refetched {c : Fin 512} {s u : State} (stands : strState s c.val = 4 ∨ strState s c.val = 5)
    (refetched : strRefetch c.val s = (true, u)) :
    exec (.streamResume c) s = .next (settle (strSync (strRun c.val (u.onCtx c.val (fun x => { x with active := true }))))) := by
  have faulted : ¬ (strState s c.val ≠ 4 ∧ strState s c.val ≠ 5) := by omega
  simp only [exec_streamResume, execStreamResume, faulted, refetched, Bool.not_true, Bool.false_eq_true, if_false, done_eq]

theorem strRefetch_of_kept {c : Nat} {s : State} (kept : (s.ctx c).desc ≠ []) : strRefetch c s = (true, s) := if_pos kept

theorem strRefetch_of_read {c : Nat} {s : State} {r : List Byte × Bool × Bool × State} (lost : (s.ctx c).desc = [])
    (hr : r = useRead (64 + c) (s.ctx c).at_ 96 0 0 s) (granted : r.2.1 = false) (clean : r.2.2.1 = false)
    (magic : leAt r.1 0 4 = 0x53545242) :
    strRefetch c s = (true, r.2.2.2.onCtx c (fun x => { x with
      desc := r.1, past := decide (leAt r.1 24 1 ≤ r.2.2.2.get (strStatPc c)), began := cycleNow r.2.2.2 })) := by
  simp only [strRefetch, lost, ← hr, granted, clean, magic, ne_eq, not_true, Bool.false_eq_true, or_self, if_false]

theorem exec_contextSave_of_halted {c : Fin 512} {s u : State} (halted : strState s c.val = 5) (hu : u = strSync (dropTiles c.val s)) :
    exec (.contextSave c) s = .next (settle (raise (strEvtSaveDone c.val)
      (useWrite (64 + c.val) (u.get (strSaveAddrAddr c.val)) (saveRecord u c.val) 0 0 u).2)) := by
  have stands : ¬ (strState s c.val ≠ 4 ∧ strState s c.val ≠ 5) := by omega
  simp only [exec_contextSave, execContextSave, stands, if_false, ← hu, done_eq]

/-! ## Floors (R289) -/

theorem exec_floorWrite_cases {c : Fin 512} {v : BitVec 32} {s u : State}
    (hu : u = if bitOf v.toNat 31 then s.set (strFloorRefused c.val) 0 else s) :
    (strState u c.val = 0 → u.get gldStatusFloorSum + bits v.toNat 0 13 - u.get (strFloorFloor c.val) ≤ 4096 →
      bits v.toNat 16 13 ≤ 4096 →
      exec (.floorWrite c v) s = .next (settle (strSync (((u.set (strFloorFloor c.val) (bits v.toNat 0 13)).set
        (strFloorShareMax c.val) (bits v.toNat 16 13)).set gldStatusFloorSum
        (u.get gldStatusFloorSum + bits v.toNat 0 13 - u.get (strFloorFloor c.val)))))) ∧
    (strState u c.val ≠ 0 → exec (.floorWrite c v) s = .next (settle (raise (strFloorRefused c.val) u))) := by
  simp only [exec_floorWrite, execFloorWrite, ← hu]
  refine ⟨fun idle sum share => ?_, fun busy => ?_⟩
  · simp only [idle, sum, share, and_self, if_true, done_eq]
  · simp only [busy, false_and, if_false, done_eq]

/-! ## The wait-for trace (R300 to R303) -/

/-- The fold by which the trace finds its victim gives the greatest number of the list (R301). -/
theorem foldl_greatest {v : Nat} {l : List Nat} {b : Option Nat} (below : ∀ m ∈ l, m ≤ v) (start : b.getD 0 ≤ v)
    (found : v ∈ l ∨ b = some v) :
    l.foldl (fun b m => some (max (b.getD 0) m)) b = some v := by
  induction l generalizing b with
  | nil => exact found.resolve_left List.not_mem_nil
  | cons a l ih =>
    have ha : a ≤ v := below a (.head l)
    refine ih (fun m hm => below m (.tail a hm)) (Nat.max_le.mpr ⟨start, ha⟩) ?_
    rcases found with mem | rfl
    · rcases List.mem_cons.mp mem with rfl | mem
      · exact .inr (congrArg some (Nat.max_eq_right start))
      · exact .inl mem
    · exact .inr (congrArg some (Nat.max_eq_left ha))

/-- The victim is the highest member of the cycle that holds surplus (R301). -/
theorem victim_of_surplus {u : State} {cyc : List Nat} {v : Nat} (mem : v ∈ cyc) (holds : surplus u v ≠ 0)
    (greatest : ∀ m ∈ cyc, surplus u m ≠ 0 → m ≤ v) :
    (cyc.filter (fun m => surplus u m != 0)).foldl (fun b m => some (max (b.getD 0) m)) none = some v := by
  refine foldl_greatest (fun m hm => ?_) (Nat.zero_le v) (.inl (List.mem_filter.mpr ⟨mem, bne_iff_ne.mpr holds⟩))
  obtain ⟨member, surplus⟩ := List.mem_filter.mp hm
  exact greatest m member (bne_iff_ne.mp surplus)

theorem no_victim {u : State} {cyc : List Nat} (spent : ∀ v ∈ cyc, surplus u v = 0) :
    (cyc.filter (fun m => surplus u m != 0)).foldl (fun b m => some (max (b.getD 0) m)) none = none := by
  rw [List.filter_eq_nil_iff.mpr (fun v hv => by rw [spent v hv]; decide), List.foldl_nil]

/-- Settles O20: the guards of each command leave one branch of its meaning, and a command that accesses memory has it whole where
its accesses are served. A clause that writes out a `match` may hold another matcher than the meaning, which `rfl` sees through. -/
theorem streamContextsComplete : Obligations.StreamContextsComplete := by
  refine ⟨fun i j x u s t => exec_streamBatchStart_of_sound, fun s t => exec_tileAllocate_of_some, ?ready, ?commit,
    fun c s => exec_streamBatchComplete_of_drained, fun g s => exec_groupDrain_of_arrived, ?migrate,
    fun c s t p => exec_pageMigration_of_ringless, fun c s => exec_contextHalt_of_running, fun c s => exec_contextHalted_of_committed,
    fun c s stands kept => exec_streamResume_of_refetched stands (strRefetch_of_kept kept),
    fun c s r halted lost hr granted clean magic =>
      exec_streamResume_of_refetched (.inr halted) (strRefetch_of_read lost hr granted clean magic),
    fun c s u => exec_contextSave_of_halted, ?restore, fun c v s u => exec_floorWrite_cases, ?trace⟩
  case ready =>
    intro c i s v t oldest tile kept plain hv k
    rw [exec_tileReady, execTileReady]
    refine whole_served ?_ k
    simp only [oldest, tile, kept, strRange_of_untranslated plain (StrCtx.tileBytes_ne_zero _), hv, done_eq, ne_eq, not_true,
      Bool.false_eq_true, if_false, if_true, List.map_nil, List.append_nil] <;> rfl
  case commit =>
    intro c s v t oldest plain hv k
    rw [exec_outputTileCommit, execOutputTileCommit]
    refine whole_served ?_ k
    simp only [oldest, strRange_of_untranslated plain (StrCtx.tileBytes_ne_zero _), hv, done_eq, ne_eq, not_true, if_false] <;> rfl
  case migrate =>
    intro c s t level pte va asid ring size e ent faulted parked hva hasid mapped hsize hring hent he entries frames entry allowed ht
    rw [exec_pageMigration, execPageMigration]
    refine whole_of_next ?_
    have ringful : max (s.get strMigCtlEntries) 1 = s.get strMigCtlEntries := Nat.max_eq_left (Nat.one_le_iff_ne_zero.mpr entries)
    have hasFrame : ¬ (s.get strMigCtlEntries = 0 ∨ s.get strMigTailIndex = s.get strMigHeadIndex ∨
      bits ent 0 2 ≠ (if level = 3 then 1 else 0) ∨ s.get strMigCtlSize ≠ (if level = 3 then 1 else 0)) := by
      simp only [entries, frames, entry, allowed, ne_eq, not_true, or_self, not_false_eq_true]
    simp only [faulted, parked, ← hva, ← hasid, mapped, ringful, ← hring, ← hent, hasFrame, ← he, ← hsize, ne_eq, not_true,
      or_self, if_false, done_eq, ht]
  case restore =>
    intro c s r idle hr granted clean magic
    simp only [exec_contextRestore, execContextRestore, idle, ← hr, granted, clean, magic, ne_eq, not_true, Bool.false_eq_true, or_self,
      if_false, done_eq]
  case trace =>
    intro c s u cyc waits hu hcyc
    simp only [exec_waitforTrace, execWaitforTrace, waits, ← hu, ← hcyc, Bool.not_true, Bool.false_eq_true, if_false]
    refine ⟨fun acyclic => ?_, fun v ms w x mem holds greatest hms hw hx => ?_, fun cycle spent => ?_⟩
    · simp only [acyclic, List.isEmpty_nil, if_true, done_eq]
    · simp only [List.isEmpty_eq_false_iff.mpr (List.ne_nil_of_mem mem), victim_of_surplus mem holds greatest, Bool.false_eq_true,
        if_false, ← hms, ← hw, ← hx, done_eq]
    · simp only [List.isEmpty_eq_false_iff.mpr cycle, no_victim spent, Bool.false_eq_true, if_false, done_eq]

/-! ## What an address or loop instruction leaves alone (R279, R280, R281, R299) -/

theorem Tab.mem_erase {α : Type} {t : Tab α} {k : Nat} {p : Nat × α} (h : p ∈ Tab.erase t k) : p ∈ t := by
  induction t with
  | nil => exact h
  | cons q r ih =>
    rw [Tab.erase] at h
    split at h
    · exact .tail _ (ih h)
    · rcases List.mem_cons.mp h with rfl | h
      · exact .head _
      · exact .tail _ (ih h)

theorem Tab.mem_insert {α : Type} {t : Tab α} {k : Nat} {v : α} {p : Nat × α} (h : p ∈ Tab.insert t k v) :
    p = (k, v) ∨ p ∈ t := by
  induction t with
  | nil => exact .inl (List.mem_singleton.mp h)
  | cons q r ih =>
    rw [Tab.insert] at h
    split at h
    · exact List.mem_cons.mp h
    · split at h
      · exact (List.mem_cons.mp h).imp_right (.tail q)
      · rcases List.mem_cons.mp h with rfl | h
        · exact .inr (.head r)
        · exact (ih h).imp_right (.tail q)

/-- A key that a write lists is the key written or was listed. -/
theorem Tab.fst_of_mem_set {α : Type} [DecidableEq α] {d : α} {t : Tab α} {k : Nat} {v : α} {p : Nat × α}
    (h : p ∈ Tab.set d t k v) : p.1 = k ∨ p ∈ t := by
  unfold Tab.set at h
  split at h
  · exact .inr (Tab.mem_erase h)
  · exact (Tab.mem_insert h).imp_left (congrArg Prod.fst)

/-- A field in the blocks of the stream contexts, of the migration ring or of Glade. -/
abbrev InStreamBlocks (f : Fld) : Prop := 8 * 0xd00000 ≤ f.key ∧ f.key < 8 * 0x1000000

/-- Every context listed is one of the 512. -/
abbrev ContextsListed (s : State) : Prop := ∀ p ∈ s.str.ctx, p.1 < 512

/-- Between `s` and `t` an instruction of context `k` that touches no tile may stand: of the node only the stream blocks change, and of
the contexts only where `k` stands in its program, its address registers, loop counters and wait. -/
structure InsnFrame (k : Nat) (s t : State) : Prop where
  mem : t.mem = s.mem := by rfl
  coh : t.coh = s.coh := by rfl
  upe : t.upe = s.upe := by rfl
  rlg : t.rlg = s.rlg := by rfl
  tlb : t.tlb = s.tlb := by rfl
  sent : t.sent = s.sent := by rfl
  now : t.now = s.now := by rfl
  others : ∀ j, j ≠ k → t.ctx j = s.ctx j := by intros; rfl
  inq : (t.ctx k).inq = (s.ctx k).inq := by rfl
  outq : (t.ctx k).outq = (s.ctx k).outq := by rfl
  regs : ∀ f, ¬ InStreamBlocks f → t.get f = s.get f := by intros; rfl
  listed : ContextsListed s → ContextsListed t := by exact id

section
variable {k c : Nat} {s t u : State}

theorem InsnFrame.refl (k : Nat) (s : State) : InsnFrame k s s := {}

theorem InsnFrame.trans (h : InsnFrame k s t) (i : InsnFrame k t u) : InsnFrame k s u where
  mem := i.mem.trans h.mem
  coh := i.coh.trans h.coh
  upe := i.upe.trans h.upe
  rlg := i.rlg.trans h.rlg
  tlb := i.tlb.trans h.tlb
  sent := i.sent.trans h.sent
  now := i.now.trans h.now
  others j hj := (i.others j hj).trans (h.others j hj)
  inq := i.inq.trans h.inq
  outq := i.outq.trans h.outq
  regs f hf := (i.regs f hf).trans (h.regs f hf)
  listed := i.listed ∘ h.listed

theorem InsnFrame.set (h : InsnFrame k s t) {f : Fld} (inside : InStreamBlocks f) (v : Nat) : InsnFrame k s (t.set f v) :=
  h.trans { regs := fun g hg => get_set_ne t v (fun e => hg (by rwa [InStreamBlocks, e])) }

theorem InsnFrame.onCtx (hk : k < 512) (h : InsnFrame k s t) {f : StrCtx → StrCtx} (inq : ∀ x, (f x).inq = x.inq)
    (outq : ∀ x, (f x).outq = x.outq) : InsnFrame k s (t.onCtx k f) :=
  have self : (t.onCtx k f).ctx k = f (t.ctx k) := Tab.get_set_self ctxEmpty _ k _
  h.trans {
    others := fun j hj => Tab.get_set_ne ctxEmpty _ _ hj
    inq := by rw [self, inq]
    outq := by rw [self, outq]
    listed := fun l p hp => (Tab.fst_of_mem_set hp).elim (fun e => e ▸ hk) (l p) }

/-- The registers of a context lie within the 1 KiB of its block. -/
theorem inStreamBlocks_of_ctx {r l w n : Nat} {a : Acc} {e : Kept} {fb img : Bool} (hc : c < 512)
    (block : (0xd00000 ≤ r ∧ r < 0xd00400) ∧ l < 64) : InStreamBlocks ⟨r + c * 0x400, l, w, a, n, e, fb, img⟩ := by
  simp only [InStreamBlocks, Fld.key]
  omega

theorem InsnFrame.setStr (hk : k < 512) (h : InsnFrame k s t) (v : Nat) : InsnFrame k s (setStr k v t) :=
  h.set (inStreamBlocks_of_ctx hk (by decide)) v

theorem InsnFrame.strRun (hk : k < 512) (h : InsnFrame k s t) : InsnFrame k s (strRun k t) :=
  (h.onCtx hk (f := fun x => { x with wait := 0 }) (fun _ => rfl) (fun _ => rfl)).setStr hk _

theorem InsnFrame.strPc (hk : k < 512) (h : InsnFrame k s t) (n : Nat) : InsnFrame k s (strPc k n t) :=
  (h.set (inStreamBlocks_of_ctx hk (by decide)) n).onCtx hk (f := fun x => { x with past := decide (x.progLen ≤ n) })
    (fun _ => rfl) (fun _ => rfl)

theorem InsnFrame.strNext (hk : k < 512) (h : InsnFrame k s t) : InsnFrame k s (strNext k t) := (h.strPc hk _).strRun hk

theorem InsnFrame.setA (hk : k < 512) (h : InsnFrame k s t) (i v : Nat) : InsnFrame k s (setA k i v t) :=
  h.onCtx hk (f := fun x => { x with a := Tab.set 0 x.a i (v % 2 ^ 64) }) (fun _ => rfl) (fun _ => rfl)

theorem InsnFrame.setL (hk : k < 512) (h : InsnFrame k s t) (i v : Nat) : InsnFrame k s (setL k i v t) :=
  h.onCtx hk (f := fun x => { x with l := Tab.set 0 x.l i (v % 2 ^ 32) }) (fun _ => rfl) (fun _ => rfl)

theorem InsnFrame.strWait (hk : k < 512) (h : InsnFrame k s t) (why : Nat) : InsnFrame k s (strWait k why t) := by
  refine (h.onCtx hk (fun x => ?_) (fun x => ?_)).setStr hk 2 <;> (dsimp only; split <;> split <;> rfl)

theorem InsnFrame.syncCtx (hc : c < 512) (h : InsnFrame k s t) : InsnFrame k s (syncCtx c t) := by
  have queues (r p i : Nat) : InsnFrame k s (((t.set (strSlotsReserved c) r).set (strSlotsShared c) p).set (strEmittedIndex c) i) :=
    ((h.set (inStreamBlocks_of_ctx hc (by decide)) r).set (inStreamBlocks_of_ctx hc (by decide)) p).set
      (inStreamBlocks_of_ctx hc (by decide)) i
  unfold Machine.syncCtx
  dsimp only
  split
  · exact (((queues _ _ _).set (inStreamBlocks_of_ctx hc (by decide)) 1).set (inStreamBlocks_of_ctx hc (by decide)) _).set
      (inStreamBlocks_of_ctx hc (by decide)) _
  · exact (queues _ _ _).set (inStreamBlocks_of_ctx hc (by decide)) 0

/-- The registers that follow from the contexts lie in the stream blocks (R299). -/
theorem InsnFrame.strSync (listed : ContextsListed s) (h : InsnFrame k s t) : InsnFrame k s (strSync t) := by
  have groups : InsnFrame k s (State.each (List.range 16) (fun g u => u.set (gldGroupStatDraining g)
      (b2n ((membersOf u g).any (fun c => strState u c == 3)))) (t.set gldStatusSharedFree (sharedFree t))) := by
    refine each_keeps_of_mem (P := InsnFrame k s) (fun g hg u hu => hu.set ?_ _) (h.set (by decide) _)
    have low := List.mem_range.mp hg
    simp only [InStreamBlocks, Fld.key, gldGroupStatDraining]
    omega
  refine each_keeps_of_mem (P := InsnFrame k s) (fun c hc u hu => hu.syncCtx ?_) groups
  obtain ⟨p, hp, rfl⟩ := List.mem_map.mp hc
  exact groups.listed listed p hp

/-- An instruction that is done with no refused line at hand (R295): the context waits, stands, or takes the effect of its row. -/
theorem insnFrame_of_strStep {op : Nat} {f : Nat → State → State} (h : done (strStep op k f s) = .next t)
    (hk : k < 512) (listed : ContextsListed s) (unrefused : (s.ctx k).refused = none) (effect : ∀ w, InsnFrame k s (f w s)) :
    InsnFrame k s t := by
  obtain rfl : settle (strStep op k f s) = t := Host.Outcome.next.inj h
  refine InsnFrame.trans (t := strStep op k f s) ?_ {}
  unfold strStep
  dsimp only
  split
  · exact .refl k s
  · split
    · exact (InsnFrame.strWait hk (.refl k s) 2).strSync listed
    · rw [unrefused]
      dsimp only
      split
      · exact (effect _).strSync listed
      · exact .refl k s

end

/-- Settles O52: each of the eight writes the position and at most one register of its own context, and what is derived from them
lies in the stream blocks. -/
theorem streamInstructionsFrame : Obligations.StreamInstructionsFrame := by
  intro k c s t mem refused listed h
  suffices frame : InsnFrame k s t from
    ⟨frame.mem, frame.coh, frame.upe, frame.rlg, frame.tlb, frame.sent, frame.now, frame.others, frame.inq, frame.outq,
      fun f outside => frame.regs f (by simp only [InStreamBlocks]; omega)⟩
  have start := InsnFrame.refl k.val s
  have writesA (i v : Nat) : InsnFrame k s (strNext k (setA k i v s)) := (start.setA k.isLt i v).strNext k.isLt
  have writesL (i v : Nat) : InsnFrame k s (strNext k (setL k i v s)) := (start.setL k.isLt i v).strNext k.isLt
  simp only [List.mem_cons, List.not_mem_nil, or_false] at mem
  rcases mem with rfl | rfl | rfl | rfl | rfl | rfl | rfl | rfl
  · exact insnFrame_of_strStep h k.isLt listed refused (fun w => start.strNext k.isLt)
  · exact insnFrame_of_strStep h k.isLt listed refused (fun w => writesA _ _)
  · exact insnFrame_of_strStep h k.isLt listed refused (fun w => writesA _ _)
  · exact insnFrame_of_strStep h k.isLt listed refused (fun w => writesA _ _)
  · exact insnFrame_of_strStep h k.isLt listed refused (fun w => writesA _ _)
  · exact insnFrame_of_strStep h k.isLt listed refused (fun w => writesL _ _)
  · exact insnFrame_of_strStep h k.isLt listed refused (fun w => writesL _ _)
  · refine insnFrame_of_strStep h k.isLt listed refused (fun w => ?_)
    dsimp only
    split
    · exact ((start.setL k.isLt _ _).strPc k.isLt _).strRun k.isLt
    · exact writesL _ _

end Sys2Proof.Machine
end

section
/-! PROOF. Update engines (chapter 09): the instructions of a rule program and what they leave alone, batches, FETCH, completion,
halts, saves, the rule store and the derive pass: O21, O22, O23, O51. -/

namespace Sys2Proof.Machine

/-! ## The next instruction of a program (R319, R325) -/

section
variable {e : Nat} {s t : State} {w op : Nat} {f : Nat → Nat → State → State}

/-- The next instruction of an engine in COMPUTE is issued for the four beats by the row of its opcode. -/
theorem ruleStep_of_ready (ready : RuleReady e s w) (code : ruleOp w = op) : ruleStep op e f s = ruleIssue e w (f w) s := by
  obtain ⟨active, compute, insn⟩ := ready
  simp only [ruleStep, ruleIssue, active, compute, insn, code, Bool.not_true, Bool.false_eq_true, ne_eq, not_true, or_self, if_false]

theorem done_ruleStep_of_ready (ready : RuleReady e s w) (code : ruleOp w = op) :
    done (ruleStep op e f s) = .next (settle (ruleIssue e w (f w) s)) := by rw [ruleStep_of_ready ready code, done_eq]

theorem whole_ruleStep_of_ready (ready : RuleReady e s w) (code : ruleOp w = op) (ht : t = ruleIssue e w (f w) s) (k : Served s t) :
    whole (fun s => done (ruleStep op e f s)) s = .next (settle t) :=
  whole_served (ht ▸ done_ruleStep_of_ready ready code) k

end

/-- Settles O21: the instruction is ready and has its row's opcode, and the row writes on each beat what the clause writes out. -/
theorem ruleArithmeticCompletes : Obligations.RuleArithmeticCompletes :=
  ⟨fun _ _ _ => done_ruleStep_of_ready, fun _ _ _ => done_ruleStep_of_ready, fun _ _ _ => done_ruleStep_of_ready,
    fun _ _ _ => done_ruleStep_of_ready, fun _ _ _ => done_ruleStep_of_ready, fun _ _ _ => done_ruleStep_of_ready,
    fun _ _ _ => done_ruleStep_of_ready, fun _ _ _ => done_ruleStep_of_ready, fun _ _ _ => done_ruleStep_of_ready,
    fun _ _ _ => done_ruleStep_of_ready, fun _ _ _ => done_ruleStep_of_ready, fun _ _ _ => done_ruleStep_of_ready,
    fun _ _ _ => done_ruleStep_of_ready, fun _ _ _ => done_ruleStep_of_ready, fun _ _ _ => done_ruleStep_of_ready,
    fun _ _ _ => done_ruleStep_of_ready, fun _ _ _ => done_ruleStep_of_ready⟩

/-- END sends the engine to FETCH, and after the last quad of a batch with FENCE issues its fence (R319, R440). -/
theorem exec_ruleEnd_of_ready {e : Fin 64} {s u : State} {w : Nat} (ready : RuleReady e.val s w) (code : ruleOp w = 0x3f)
    (hu : u = (setEng e.val 2 s).onEng e.val (fun x => { x with pend := true })) :
    exec (.ruleEnd e) s = .next (settle (if (s.eng e.val).flag 2 ∧ u.get (upeQuadsCount e.val) + 1 = (s.eng e.val).quads then
      { u with coh := { u.coh with batchFence := Nat.lor u.coh.batchFence (2 ^ e.val) } } else u)) := by
  obtain ⟨active, compute, insn⟩ := ready
  simp only [exec_ruleEnd, execRuleEnd, active, compute, insn, code, ← hu, Bool.not_true, Bool.false_eq_true, ne_eq, not_true, or_self,
    if_false, done_eq]
  split <;> rfl

/-- Settles O22: each instruction is issued as its row says, and one that accesses an L1 array has its effect whole where its accesses
are served. -/
theorem ruleMastersComplete : Obligations.RuleMastersComplete :=
  ⟨fun _ _ _ => done_ruleStep_of_ready, fun _ _ _ => done_ruleStep_of_ready, fun _ _ _ => done_ruleStep_of_ready,
    fun _ _ _ => done_ruleStep_of_ready, fun _ _ _ => done_ruleStep_of_ready, fun _ _ _ => done_ruleStep_of_ready,
    fun _ _ _ => done_ruleStep_of_ready, fun _ _ _ _ => whole_ruleStep_of_ready, fun _ _ _ _ => whole_ruleStep_of_ready,
    fun _ _ _ _ => whole_ruleStep_of_ready, fun _ _ _ _ => whole_ruleStep_of_ready, fun _ _ _ => done_ruleStep_of_ready,
    fun _ _ _ _ => exec_ruleEnd_of_ready⟩

/-! ## What a lane instruction leaves alone (R319, R323, R325) -/

/-- Between `s` and `t` an instruction of engine `e` that accesses no L1 array may stand: of the node only the engine, its COMPUTE count
and the lights change. -/
structure LaneFrame (e : Nat) (s t : State) : Prop where
  rest : t = { s with upe := t.upe, regs := t.regs, lights := t.lights } := by rfl
  others : ∀ k, k ≠ e → t.eng k = s.eng k := by intros; rfl
  regs : ∀ f : Fld, f.key ≠ (upeComputeCycCount e).key → t.get f = s.get f := by intros; rfl

section
variable {e : Nat} {s t u : State}

theorem LaneFrame.refl (e : Nat) (s : State) : LaneFrame e s s := {}

theorem LaneFrame.trans (h : LaneFrame e s t) (i : LaneFrame e t u) : LaneFrame e s u where
  rest := by rw [i.rest, h.rest]
  others k hk := (i.others k hk).trans (h.others k hk)
  regs f hf := (i.regs f hf).trans (h.regs f hf)

theorem LaneFrame.onEng (h : LaneFrame e s t) (f : Eng → Eng) : LaneFrame e s (t.onEng e f) :=
  h.trans { others := fun _ hk => Tab.get_set_ne engEmpty _ _ hk }

theorem LaneFrame.setV (h : LaneFrame e s t) (b r : Nat) (l : List Nat) : LaneFrame e s (setV e b r l t) := h.onEng _

theorem LaneFrame.bump (h : LaneFrame e s t) (n : Nat) : LaneFrame e s (t.bump (upeComputeCycCount e) n) :=
  h.trans { regs := fun _ hf => get_bump_ne t n hf }

theorem LaneFrame.vrndBeat (w b : Nat) (t : State) : LaneFrame e t (vrndBeat e w b t) := by
  unfold Machine.vrndBeat
  dsimp only
  split
  · exact ((LaneFrame.refl e t).onEng _).setV b _ _
  · exact (LaneFrame.refl e t).setV b _ _

/-- An instruction that touches on each beat its own engine alone: nothing happens, or the beats, the count and the step do. -/
theorem laneFrame_of_ruleStep {op : Nat} {f : Nat → Nat → State → State} (h : done (ruleStep op e f s) = .next t)
    (beat : ∀ w b u, LaneFrame e u (f w b u)) : LaneFrame e s t := by
  obtain rfl : settle (ruleStep op e f s) = t := Host.Outcome.next.inj h
  refine LaneFrame.trans (t := ruleStep op e f s) ?_ {}
  unfold ruleStep
  dsimp only
  split
  · exact .refl e s
  · have beats : LaneFrame e s (State.each (List.range 4) (fun b u => f (ruleInsn s e) b u) s) :=
      each_keeps (LaneFrame e s) _ (fun b u hu => hu.trans (beat _ b u)) _ s (.refl e s)
    exact (beats.bump _).onEng _

end

/-- Settles O51: on each beat an instruction writes one or two registers of its engine, VRND the state of its lanes besides. -/
theorem ruleInstructionsFrame : Obligations.RuleInstructionsFrame := by
  intro e c s t mem h
  suffices frame : LaneFrame e s t by
    obtain ⟨rest, others, regs⟩ := frame
    exact ⟨by rw [rest], by rw [rest], by rw [rest], by rw [rest], by rw [rest], by rw [rest], by rw [rest], others, regs⟩
  have start (u : State) := LaneFrame.refl e.val u
  simp only [List.mem_cons, List.not_mem_nil, or_false] at mem
  rcases mem with rfl | rfl | rfl | rfl | rfl | rfl | rfl | rfl | rfl | rfl | rfl | rfl | rfl | rfl | rfl | rfl | rfl | rfl | rfl |
    rfl | rfl | rfl | rfl | rfl | rfl
  · exact laneFrame_of_ruleStep h (fun _ _ u => start u)
  -- VADD to VDIV
  iterate 16 · exact laneFrame_of_ruleStep h (fun _ _ u => (start u).setV _ _ _)
  · exact laneFrame_of_ruleStep h (fun w b u => .vrndBeat w b u)
  -- EMSET, EMADD and EMUPD write a pair
  iterate 3 · exact laneFrame_of_ruleStep h (fun _ _ u => ((start u).setV _ _ _).setV _ _ _)
  -- EMRND, SRBF, RNBF and QSTAT
  iterate 4 · exact laneFrame_of_ruleStep h (fun _ _ u => (start u).setV _ _ _)

/-! ## Batches and submissions (R314, R315, R334) -/

/-- A slot that may start takes its batch to the check, on an engine that runs none and is not borrowed; a slot that shares its START
with others of its cluster is read in its turn. -/
theorem exec_engineBatchStart_of_startable {i : Fin 1024} {s u t : State} {j : Nat} {x : Slot} (hj : j = pickSlot s 1 i.val)
    (may : startable s 1 j = true) (hx : x = slotOf s j) (unit : x.unit < 64) (idle : (s.eng x.unit).active = false)
    (own : borrowed s x.unit = false) (hu : u = startSlot j s)
    (ht : t = engAdmit x.unit x.desc (some j)
      (if clusterShares s j then u.reach (u.tick.edge + (x.start + x.unit % 8 * 8) * 625) else u))
    (k : Served s t) : exec (.engineBatchStart i) s = .next (settle t) := by
  rw [exec_engineBatchStart, execEngineBatchStart]
  refine whole_served ?_ k
  simp only [← hj, may, ← hx, Nat.not_le.mpr unit, idle, own, ← hu, ht, Bool.not_true, Bool.false_eq_true, or_self, and_false,
    if_false, done_eq]

/-- A submission with GO is checked on an IDLE engine, and refused on one in any other state (R334). -/
theorem exec_engineSubmit_of_go {e : Fin 64} {v : BitVec 64} {s u : State} (hu : u = s.set (upeSubmitAddr e.val) (bits v.toNat 0 48))
    (go : bitOf v.toNat 63 = true) (own : borrowed u e.val = false) :
    (engState u e.val = 0 → exec (.engineSubmit e v) s = .next (settle (engAdmit e.val (bits v.toNat 0 48) none u))) ∧
    (engState u e.val ≠ 0 → exec (.engineSubmit e v) s = .next (settle (raise (upeEvtSubmitRefused e.val) u))) := by
  simp only [exec_engineSubmit, execEngineSubmit, ← hu, go, own, Bool.not_true, Bool.false_eq_true, not_false_eq_true, and_true, if_false]
  refine ⟨fun idle => ?_, fun busy => ?_⟩
  · simp only [idle, if_true, done_eq]
  · simp only [busy, if_false, done_eq]

/-! ## FETCH and completion (R316 to R318) -/

theorem tryHalt_of_running {e : Nat} {s : State} (runs : (s.eng e).halting = false) : tryHalt e s = none := by
  simp only [tryHalt, runs, Bool.not_false, if_true]

/-- A FETCH of an engine that has not waited counts its own cycles alone (R318). -/
theorem countFetch_of_unwaited {e : Nat} {s : State} (unwaited : engState s e ≠ 4) (writes : Bool) :
    countFetch e true writes s = s.bump (upeFetchCycCount e) (fetchCycles (fetchBytes s e true writes)) := by
  simp only [countFetch, unwaited, true_or, if_false, if_true]

/-- In the middle of a batch, with every port ready, a FETCH writes the computed quad and reads the next (R317, R318). -/
theorem exec_engineFetch_of_ready {e : Fin 64} {s u t : State} (active : (s.eng e.val).active = true) (state : engState s e.val = 2)
    (unfenced : bitOf s.coh.fenceEngines e.val = false) (pend : (s.eng e.val).pend = true) (runs : (s.eng e.val).halting = false)
    (more : s.get (upeQuadsCount e.val) + 1 < (s.eng e.val).quads) (ready : unready s e.val true = none)
    (hu : u = setEng e.val 2 (s.bump (upeFetchCycCount e.val) (fetchCycles (fetchBytes s e.val true true))))
    (ht : t = strSync (noStall e.val (readQuad e.val (writeQuad e.val u)))) (k : Served s t) :
    exec (.engineFetch e) s = .next (settle t) := by
  rw [exec_engineFetch, execEngineFetch]
  refine whole_served ?_ k
  have unwaited : engState s e.val ≠ 4 := by omega
  simp only [active, state, unfenced, pend, b2n, more, tryHalt_of_running runs, ready, countFetch_of_unwaited unwaited, ← hu, ht,
    Bool.not_true, Bool.false_eq_true, ne_eq, not_true, false_and, or_self, if_false, if_true, decide_true, done_eq]

/-- A batch without FENCE or DERIVE that no plan reset halts completes once every quad is computed and written (R316). -/
theorem exec_engineBatchComplete_of_written {e : Fin 64} {s u : State} (active : (s.eng e.val).active = true)
    (state : engState s e.val = 2) (written : (s.eng e.val).pend = false)
    (last : s.get (upeQuadsCount e.val) = (s.eng e.val).quads) (fenceless : (s.eng e.val).flag 2 = false)
    (underived : (s.eng e.val).flag 1 = false) (kept : (s.eng e.val).halting = false ∨ s.rst.kind ≠ 5)
    (hu : u = raise (upeEvtDone e.val) (setEng e.val 0 (s.onEng e.val (fun y => { y with active := false, halting := false })))) :
    exec (.engineBatchComplete e) s = .next (settle (kvBorrow (strSync (noStall e.val
      (if (s.eng e.val).submitted then u else completeSlot (s.eng e.val).slot u))))) := by
  have constants : ((s.eng e.val).halting && s.rst.kind == 5) = false := by
    simpa only [Bool.and_eq_false_iff, beq_eq_false_iff_ne] using kept
  simp only [exec_engineBatchComplete, execEngineBatchComplete, active, state, written, last, fenceless, underived, constants, State.on,
    ← hu, Bool.not_true, Bool.false_eq_true, ne_eq, not_true, false_and, or_self, if_false, done_eq]

/-! ## Halt, save and restore (R336 to R338, R415) -/

/-- An engine in COMPUTE takes note of HALT and goes on to a boundary (R336). -/
theorem engHalt_of_computing {e : Nat} {s : State} (active : (s.eng e).active = true) (state : engState s e = 3) :
    engHalt e s = s.onEng e (fun x => { x with halting := true }) := by
  simp only [engHalt, active, state, Bool.not_true, Bool.false_eq_true, ne_eq, not_true, false_and, and_false, or_self, if_false,
    Nat.reduceEqDiff]

theorem exec_engineSave_of_halted {e : Fin 64} {s : State} (halted : engState s e.val = 5) :
    exec (.engineSave e) s = .next (settle (raise (upeEvtSaveDone e.val)
      (useWrite e.val (s.get (upeSaveAddrAddr e.val)) (engRecord s e.val) 0 0 s).2)) := by
  simp only [exec_engineSave, execEngineSave, halted, ne_eq, not_true, if_false, done_eq]

/-! ## The rule store and the derive pass (R329, R335) -/

/-- A write to the rule store is taken, or dropped where the program of a batch holds the entry (R329). -/
theorem exec_ruleStoreWrite_cases (e : Fin 64) (i : Fin 1024) (v : BitVec 32) (s : State) :
    (ruleHeld s e.val i.val = false → exec (.ruleStoreWrite e i v) s = .next (settle (s.set (upeRuleInsn e.val i.val) v.toNat))) ∧
    (ruleHeld s e.val i.val = true → exec (.ruleStoreWrite e i v) s = .next (settle (raise (upeEvtRuleDrop e.val) s))) := by
  simp only [exec_ruleStoreWrite, execRuleStoreWrite, ruleWrite, done_eq]
  exact ⟨fun free => by simp only [free, Bool.false_eq_true, if_false], fun held => by simp only [held, if_true]⟩

/-- While a repeat slot waits, an engine that runs no batch and whose record is due derives its working copy anew (R335). -/
theorem exec_derivePass_of_due {e : Fin 64} {s u t : State} {r : DeriveRec} (due : deriveDue s e.val = some r)
    (idle : (s.eng e.val).active = false) (waits : waitingRepeats s ≠ []) (hu : u = raise (upeEvtDerive e.val) (deriveRun e.val r s))
    (ht : t = if (List.range 64).any (fun k => (deriveDue u k).isSome) then u else resumeRepeats (waitingRepeats s) u)
    (k : Served s t) : exec (.derivePass e) s = .next (settle t) := by
  rw [exec_derivePass, execDerivePass]
  refine whole_served ?_ k
  simp only [due, idle, waits, ← hu, ht, Bool.false_eq_true, or_self, if_false, done_eq]

/-- Settles O23: the guards of each command leave one branch of its meaning, and a command that accesses memory has it whole where its
accesses are served. -/
theorem enginesComplete : Obligations.EnginesComplete := by
  refine ⟨fun i s u t j x => exec_engineBatchStart_of_startable, fun e v s u => exec_engineSubmit_of_go,
    fun e s u t => exec_engineFetch_of_ready, fun e s u => exec_engineBatchComplete_of_written,
    fun e s active state => congrArg done (engHalt_of_computing active state), fun e s => exec_engineSave_of_halted, ?restore,
    exec_ruleStoreWrite_cases, fun e s u t r => exec_derivePass_of_due⟩
  case restore =>
    intro e s r idle hr granted clean magic
    simp only [exec_engineRestore, execEngineRestore, idle, ← hr, granted, clean, magic, ne_eq, not_true, Bool.false_eq_true, or_self,
      if_false, done_eq]

end Sys2Proof.Machine
end

section
/-! PROOF. The matrix array and random numbers (chapters 10, 12): jobs from slots and from the host, passes and the end of a job; seed
words, the tests of the noise source and the seeding of lanes: O24. -/

namespace Sys2Proof.Machine

/-! ## Matrix jobs (R350, R351, R355, R356) -/

/-- A slot that may start gives its job to an idle array (R350, R355). -/
theorem exec_matrixJobStart_of_startable {i : Fin 1024} {s t : State} {j : Nat} (hj : j = pickSlot s 4 i.val)
    (may : startable s 4 j = true) (idle : s.mxa = none) (unit : (slotOf s j).unit = 0)
    (ht : t = mxaAdmit 0 (slotOf s j).desc (some j) (startSlot j s)) (k : Served s t) :
    exec (.matrixJobStart i) s = .next (settle t) := by
  rw [exec_matrixJobStart, execMatrixJobStart]
  refine whole_served ?_ k
  simp only [← hj, may, idle, unit, ht, Option.isSome_none, Bool.not_true, Bool.false_eq_true, or_self, ne_eq, not_true, if_false,
    done_eq]

/-- A submission with GO runs on an idle array while the active bank is empty, and is refused while a plan is in it (R355). -/
theorem exec_mxaSubmit_of_go {v : BitVec 64} {s u : State} (hu : u = s.set mxaSubmitAddr (bits v.toNat 0 48))
    (go : bitOf v.toNat 63 = true) :
    (u.flag tickStatusBankEmpty = true → u.mxa = none →
      exec (.mxaSubmit v) s = .next (settle (mxaAdmit 2 (bits v.toNat 0 48) none u))) ∧
    (u.flag tickStatusBankEmpty = false → exec (.mxaSubmit v) s = .next (settle (raise mxaEvtSubmitRefused u))) := by
  simp only [exec_mxaSubmit, execMxaSubmit, ← hu, go, Bool.not_true, Bool.false_eq_true, if_false]
  refine ⟨fun planless idle => ?_, fun planned => ?_⟩
  · simp only [planless, idle, Option.isNone_none, and_self, if_true, done_eq]
  · simp only [planned, Bool.false_eq_true, false_and, if_false, done_eq]

/-- A pass of a job takes its starting sums, its weights and its rows in turn; the last of a tile writes the tile out (R346, R351). -/
theorem mxaPass_of_running {s a w x : State} {j : MxaJob} {k : PassAt} {acc : List (List Nat)} {ws as_ : List (List (Nat × Bool))}
    (runs : s.mxa = some j) (more : j.pass < mxaTotal j.desc) (hk : k = passAt j.desc j.pass)
    (sums : (acc, a) = if k.first then mxaStart j.desc k s else (j.acc, s)) (weights : (ws, w) = mxaWeights j.desc k a)
    (rows : (as_, x) = mxaLoads ((List.range k.rows).map (fun m => addrA j.desc k.item (k.m0 + m) k.k0)) k.ks (mxaSize (mxaA j.desc))
      (mxaHint j.desc 0) (mxaUses j.desc) w) :
    mxaPass s =
      let acc := mxaSum j.desc k as_ ws acc
      let u := if k.last then mxaWrite j.desc k acc x else x
      (({ u with mxa := some { j with pass := j.pass + 1, acc := if k.last then [] else acc } } : State).set mxaProgressPasses
        (j.pass + 1)).bump mxaMacsCount (k.rows * k.cols * k.ks) := by
  simp only [mxaPass, runs, Nat.not_le.mpr more, ← hk, ← sums, ← weights, ← rows, if_false]

/-- A job whose passes are done leaves the array idle, is counted and reported, and ends its slot if it has one (R356). -/
theorem mxaFinish_of_passed {s : State} {j : MxaJob} (runs : s.mxa = some j) (passed : mxaTotal j.desc ≤ j.pass) :
    mxaFinish s =
      let u := raise mxaEvtDone (((({ s with mxa := none } : State).set mxaStatusBusy 0).bump mxaJobsCount 1).bump mxaBusyCycCount
        ((s.now - j.since) / 1000))
      if j.source = 0 then completeSlot j.slot u else u := by
  simp only [mxaFinish, runs, Nat.not_lt.mpr passed, if_false]

/-! ## Seed words and the noise source (R403 to R405) -/

/-- A ready source with a word at hand gives it out (R405). -/
theorem rngSeedTake_cons {s : State} {w : Nat} {ws : List Nat} (ready : s.flag rngStatusReady = true) (held : s.rng.words = w :: ws) :
    rngSeedTake s = (w, (s.onRng (fun g => { g with words := ws })).set rngStatusSeedValid 1) := by
  simp only [rngSeedTake, ready, held, if_true]

/-- With no word at hand a read takes 0, whether or not the source is ready (R403, R405). -/
theorem rngSeedTake_nil {s : State} (empty : s.rng.words = []) : rngSeedTake s = (0, s.set rngStatusSeedValid 0) := by
  simp only [rngSeedTake, empty, ite_self]

/-- A start-up test that finds nothing makes the source ready and clears its failures (R403, R404; assumption 45). -/
theorem exec_startupTestDone_of_healthy {l : List (Fin 16)} {s u : State} (testing : s.rng.testing = true) (full : l.length = 1024)
    (healthy : healthAll (l.map (fun x => x.val)) s = (false, u)) :
    exec (.startupTestDone l) s = .next (settle ((((u.onRng (fun g => { g with testing := false })).set rngStatusReady 1).set
      rngStatusFailed 0).onRng (fun g => { g with fails := 0 }))) := by
  simp only [exec_startupTestDone, execStartupTestDone, testing, full, healthy, Bool.not_true, Bool.false_eq_true, ne_eq, not_true,
    or_self, if_false, done_eq]

/-- A block that passes the tests adds its four words, up to 8 held, and a seeding that waits takes them (R404, R405). -/
theorem exec_noiseBlock_of_healthy {l : List (Fin 16)} {s u : State} (on : s.flag rngCtlSourceEn = true)
    (ready : s.flag rngStatusReady = true) (tested : s.rng.testing = false) (full : l.length = 256)
    (healthy : healthAll (l.map (fun x => x.val)) s = (false, u)) :
    exec (.noiseBlock l) s = .next (settle (seedFeed 8 (u.onRng (fun g => { g with
      fails := 0, words := (g.words ++ blockWords (l.map (fun x => x.val))).take 8 })))) := by
  simp only [exec_noiseBlock, execNoiseBlock, on, ready, tested, full, healthy, Bool.not_true, Bool.false_eq_true, ne_eq, not_true,
    or_self, if_false, done_eq]

/-! ## Seeding of lanes (R413) -/

/-- The state of an engine lies apart from what a seeding command writes. -/
theorem engState_seeding (s : State) (m b e : Nat) : engState ((s.set rngLfsrCmdMode m).set rngStatusSeeding b) e = engState s e := by
  have seeding : (upeStatState e).key ≠ rngStatusSeeding.key := by simp only [Fld.key, upeStatState, rngStatusSeeding]; omega
  have mode : (upeStatState e).key ≠ rngLfsrCmdMode.key := by simp only [Fld.key, upeStatState, rngLfsrCmdMode]; omega
  rw [engState, get_set_ne _ _ seeding, get_set_ne _ _ mode, engState]

/-- A clear bit is the field value 0. -/
theorem bits_of_bit_clear {v n : Nat} (clear : bitOf v n = false) : bits v n 1 = 0 := by
  simp only [bitOf, beq_eq_false_iff_ne] at clear
  simp only [bits]
  omega

/-- A keyed seeding seeds the masked engines that are IDLE or HALTED at once and skips the others (R413). -/
theorem exec_lfsrSeed_of_keyed {v : BitVec 32} {s u : State} (free : s.flag rngStatusSeeding = false) (go : bitOf v.toNat 0 = true)
    (keyed : bitOf v.toNat 1 = false) (hu : u = (s.set rngLfsrCmdMode 0).set rngStatusSeeding 1) :
    exec (.lfsrSeed v) s = .next (settle (State.each
      ((enginesOf (s.get rngLfsrMaskEngines)).filter (fun e => engState s e == 0 || engState s e == 5)) seedKeyed
      (u.set rngSkippedEngines (((enginesOf (s.get rngLfsrMaskEngines)).filter (fun e =>
        !(engState s e == 0 || engState s e == 5))).map (fun e => 2 ^ e)).sum))) := by
  have mask : (s.set rngLfsrCmdMode 0).get rngLfsrMaskEngines = s.get rngLfsrMaskEngines := get_set_ne s 0 (by decide)
  have state (e : Nat) : engState u e = engState s e := hu ▸ engState_seeding s 0 1 e
  simp only [exec_lfsrSeed, execLfsrSeed, free, go, keyed, bits_of_bit_clear keyed, mask, ← hu, state, Bool.not_true,
    Bool.false_eq_true, false_and, if_false, done_eq]

/-- Settles O24: the guards of each command leave one branch of its meaning, and a command that accesses memory has it whole where its
accesses are served. -/
theorem matrixAndRandomComplete : Obligations.MatrixAndRandomComplete := by
  refine ⟨fun i s t j => exec_matrixJobStart_of_startable, fun v s u => exec_mxaSubmit_of_go, ?pass,
    fun s j runs passed => congrArg done (mxaFinish_of_passed runs passed), fun s => ⟨?word, ?wordless⟩, ?retest,
    fun l s u => exec_startupTestDone_of_healthy, fun l s u => exec_noiseBlock_of_healthy, fun v s u => exec_lfsrSeed_of_keyed,
    ?seeded⟩
  case pass =>
    intro s a w x t j k acc ws as_ runs more hk sums weights rows ht served
    have effect : mxaPass s = t := (mxaPass_of_running runs more hk sums weights rows).trans ht.symm
    exact whole_served (f := fun s => done (mxaPass s)) (congrArg done effect) served
  case word =>
    intro w ws ready held
    simp only [exec_rngSeedRead, execRngSeedRead, rngSeedTake_cons ready held, done_eq]
  case wordless =>
    intro empty
    simp only [exec_rngSeedRead, execRngSeedRead, rngSeedTake_nil empty, done_eq]
  case retest =>
    intro s on
    simp only [exec_retest, execRetest, on, if_true, done_eq]
  case seeded =>
    intro s seeding lanes
    simp only [exec_seedDone, execSeedDone, seeding, lanes, Bool.not_true, Bool.false_eq_true, ne_eq, not_true, or_self, if_false,
      done_eq]

end Sys2Proof.Machine
end

section
/-! PROOF. What recording a fault leaves alone, and the record of a fault that is never coalesced (R572 to R574): O50. -/

namespace Sys2Proof.Machine

/-! ## What a coherent write and a fault record leave alone -/

/-- Between `s` and `t` nothing that is open in the coherence network or at the lines changes, and no engine. -/
structure FaultKept (s t : State) : Prop where
  upe : t.upe = s.upe := by rfl
  busy : t.mem.busy = s.mem.busy := by rfl
  txns : t.coh.txns = s.coh.txns := by rfl
  snoops : t.coh.snoops = s.coh.snoops := by rfl
  net : t.coh.net = s.coh.net := by rfl
  queue : t.coh.queue = s.coh.queue := by rfl

theorem FaultKept.refl (s : State) : FaultKept s s := {}

theorem FaultKept.trans {s t u : State} (h : FaultKept s t) (k : FaultKept t u) : FaultKept s u where
  upe := k.upe.trans h.upe
  busy := k.busy.trans h.busy
  txns := k.txns.trans h.txns
  snoops := k.snoops.trans h.snoops
  net := k.net.trans h.net
  queue := k.queue.trans h.queue

/-- The same of a write that records no fault: the fault block's state stays too. -/
structure RingKept (s t : State) : Prop extends FaultKept s t where
  flt : t.flt = s.flt := by rfl

theorem RingKept.refl (s : State) : RingKept s s := {}

theorem RingKept.trans {s t u : State} (h : RingKept s t) (k : RingKept t u) : RingKept s u where
  toFaultKept := h.toFaultKept.trans k.toFaultKept
  flt := k.flt.trans h.flt

section
variable (s : State)

theorem foldl_ringKept {α : Type} (g : State → α → State) (h : ∀ t a, RingKept t (g t a)) (l : List α) (s : State) :
    RingKept s (l.foldl g s) := foldl_keeps (RingKept s) g (fun t a k => k.trans (h t a)) l s (.refl s)

theorem raise_ringKept (f : Fld) : RingKept s (raise f s) := by
  obtain ⟨r, h⟩ := raise_parts s f
  rw [h]
  exact {}

theorem cachePut_ringKept (a : Nat) (b : Byte) : RingKept s (cachePut a b s) := by
  unfold cachePut
  split <;> exact {}

theorem poisonPut_ringKept (a : Nat) (v : Bool) : RingKept s (poisonPut a v s) := by
  unfold poisonPut
  split <;> exact {}

theorem charge_ringKept (a b : Nat) : RingKept s (charge a b s) := by
  unfold charge
  split
  · exact .refl s
  · dsimp only
    split <;> exact {}

theorem snoopLine_ringKept (k d : Bool) (line : Nat) : RingKept s (snoopLine k d line s) := by
  unfold snoopLine
  split
  · exact .refl s
  · split
    · exact .refl s
    · exact RingKept.trans {} (foldl_ringKept _ (fun t e => show RingKept t (l1Snooped k line e t) from {}) _ _)

theorem guardCount_ringKept (a n : Nat) : RingKept s (guardCount a n s) := by
  unfold guardCount
  split
  · exact .refl s
  · exact RingKept.trans {} (raise_ringKept _ _)

theorem guarded_ringKept (k : Nat) (bs : List Byte) : RingKept s (guarded k bs s).2 := by
  unfold guarded
  split <;> exact {}

theorem nodeWrite_ringKept (a : Nat) (bs : List Byte) : RingKept s (nodeWrite a bs s) := by
  unfold nodeWrite
  dsimp only
  split
  · exact .refl s
  · refine ((((guardCount_ringKept s _ _).trans (guarded_ringKept _ _ _)).trans (foldl_ringKept _ (fun t i => ?lines) _ _)).trans
      (foldl_ringKept _ (fun t i => ?bytes) _ _)).trans (foldl_ringKept _ (fun t i => ?poison) _ _)
    case lines =>
      split
      · exact snoopLine_ringKept _ _ _ _
      · exact (snoopLine_ringKept _ _ _ _).trans (charge_ringKept _ _ _)
    case bytes =>
      split
      · exact cachePut_ringKept _ _ _
      · exact .refl t
    case poison =>
      split
      · exact poisonPut_ringKept _ _ _
      · exact .refl t

theorem refusedAt_ringKept (a : Nat) : RingKept s (refusedAt a s) := by
  unfold refusedAt
  split
  · exact .refl s
  · exact RingKept.trans {} (raise_ringKept _ _)

theorem ringWrite_ringKept (r : List Byte) : RingKept s (ringWrite r s) := by
  unfold ringWrite
  dsimp only
  split
  · exact .refl s
  · split
    · exact {}
    · split
      · exact ((refusedAt_ringKept s _).trans {}).trans (raise_ringKept _ _)
      · exact (nodeWrite_ringKept s _ _).trans {}

theorem writeRecord_faultKept (cls code unit repeats info action tick : Nat) (claim : Option Nat) :
    FaultKept s (writeRecord cls code unit repeats info action tick claim s) := by
  unfold writeRecord
  extract_lets u r base buf w
  have buffered : FaultKept s w := {}
  exact (buffered.trans (ringWrite_ringKept w r).toFaultKept).trans (raise_ringKept _ _).toFaultKept

theorem onFlt_faultKept (f : FltState → FltState) : FaultKept s (s.onFlt f) := {}

theorem coalEnd_faultKept (c : Coal) : FaultKept s (coalEnd c s) := by
  unfold coalEnd
  dsimp only
  split
  · exact {}
  · exact FaultKept.trans {} (writeRecord_faultKept _ _ _ _ _ _ _ _ _)

theorem coalExpire_faultKept : FaultKept s (coalExpire s) :=
  each_keeps (FaultKept s) coalEnd (fun c t h => h.trans (coalEnd_faultKept t c)) _ s (.refl s)

theorem faultCore_faultKept (c : FltClass) (code unit info action : Nat) (claim : Option Nat) :
    FaultKept s (faultCore c code unit info action claim s) := by
  have expired : FaultKept s (coalExpire s) := coalExpire_faultKept s
  unfold faultCore
  dsimp only
  split
  · exact writeRecord_faultKept _ _ _ _ _ _ _ _ _
  · split
    · exact expired.trans {}
    · refine FaultKept.trans (FaultKept.trans ?room (writeRecord_faultKept _ _ _ _ _ _ _ _ _)) (onFlt_faultKept _ _)
      split
      · exact expired
      · split
        · exact expired.trans (coalEnd_faultKept _ _)
        · exact expired

/-- A fault recorded leaves the engines, the transactions, snoops, messages and pending queues, and what is busy at the tiers. -/
theorem fault_faultKept (c : FltClass) (code unit info action : Nat) (claim : Option Nat) :
    FaultKept s (fault c code unit info action claim s) := by
  unfold fault
  dsimp only
  split
  · exact (faultCore_faultKept _ _ _ _ _ _ _).trans (faultCore_faultKept _ _ _ _ _ _ _)
  · exact faultCore_faultKept _ _ _ _ _ _ _

end

/-! ## The record of a fault in TEL_FAULT_BUF (R572, R573) -/

/-- The bytes of `r` from `base` on, written one by one. -/
theorem foldl_set_get (base : Nat) (r : List Byte) (b : Tab Byte) (n j : Nat) :
    Tab.get 0 ((List.range n).foldl (fun t i => Tab.set 0 t (base + i) (r.getD i 0)) b) j =
      if base ≤ j ∧ j < base + n then r.getD (j - base) 0 else Tab.get 0 b j := by
  induction n with
  | zero => simp
  | succ n ih =>
    rw [List.range_succ, List.foldl_append, List.foldl_cons, List.foldl_nil]
    by_cases last : j = base + n
    · subst last
      rw [Tab.get_set_self, if_pos (by omega), Nat.add_sub_cancel_left]
    · rw [Tab.get_set_ne 0 _ _ last, ih]
      have same : (base ≤ j ∧ j < base + n) ↔ base ≤ j ∧ j < base + (n + 1) := by omega
      simp only [same]

section
variable (s : State)

/-- A write to the ring leaves the fields of the fault block that are not the ring's own. -/
theorem ringWrite_get_own (r : List Byte) {g : Fld} (lost : g.key ≠ telFaultStatLost.key) (err : g.key ≠ telFaultEvtRingErr.key)
    (entries : g.key ≠ telFaultRingCtlEntries.key) (head : g.key ≠ telFaultHeadIndex.key) (uncounted : Uncounted g)
    (map : g.key ≠ memMapErrAddr.key ∧ g.key ≠ memMapErrCause.key ∧ g.key ≠ memEvtMapErr.key) :
    (ringWrite r s).get g = s.get g := by
  unfold ringWrite
  dsimp only
  split
  · rfl
  · split
    · exact get_bump_ne s _ lost
    · split
      · rw [raise_ne _ err, get_set_ne _ _ entries, refusedAt]
        split
        · rfl
        · rw [raise_ne _ map.2.2, get_set_ne _ _ map.2.1, get_set_ne _ _ map.1]
      · rw [get_set_ne _ _ head, nodeWrite_get _ _ _ uncounted]

/-- No count of a coherent write lies in the fault block's page. -/
theorem uncounted_of_faultBlock {g : Fld} (h : 8 * 0x1c00000 ≤ g.key) (low : g.key % 512 ≠ 256) : Uncounted g := by
  refine ⟨?snoops, ⟨?count, ?guard⟩, fun p e => low (e ▸ ?bytes)⟩
  case snoops => have : cohSnoopsCount.key < 8 * 0x1c00000 := by decide
                 omega
  case count => have : rlgGuardCount.key < 8 * 0x1c00000 := by decide
                omega
  case guard => have : rlgEvtGuard.key < 8 * 0x1c00000 := by decide
                omega
  case bytes => simp only [Fld.key, memPartBytesCount]; omega

/-- The state in which the bytes of a new record stand in the buffer. -/
def recorded (cls code unit repeats info action tick : Nat) (claim : Option Nat) (s : State) : State :=
  let u := s.set telFaultSeqSeq (s.get telFaultSeqSeq + 1)
  let r := faultBytes u cls code unit repeats info action tick claim
  u.onFlt (fun x => { x with
    buf := (List.range 32).foldl (fun t i => Tab.set 0 t (32 * (u.get telFaultSeqSeq % 16) + i) (r.getD i 0)) u.flt.buf,
    fresh := x.fresh + 1 })

theorem recorded_buf (cls code unit repeats info action tick : Nat) (claim : Option Nat) (j : Nat) :
    Tab.get 0 (recorded cls code unit repeats info action tick claim s).flt.buf j =
      let u := s.set telFaultSeqSeq (s.get telFaultSeqSeq + 1)
      let base := 32 * (u.get telFaultSeqSeq % 16)
      if base ≤ j ∧ j < base + 32 then (faultBytes u cls code unit repeats info action tick claim).getD (j - base) 0
      else Tab.get 0 s.flt.buf j := by
  dsimp only [recorded, State.onFlt]
  rw [foldl_set_get, set_flt_frame]

theorem writeRecord_eq (cls code unit repeats info action tick : Nat) (claim : Option Nat) :
    writeRecord cls code unit repeats info action tick claim s = raise telFaultEvtRecord
      (ringWrite (faultBytes (s.set telFaultSeqSeq (s.get telFaultSeqSeq + 1)) cls code unit repeats info action tick claim)
        (recorded cls code unit repeats info action tick claim s)) := rfl

theorem writeRecord_seq (cls code unit repeats info action tick : Nat) (claim : Option Nat) :
    (writeRecord cls code unit repeats info action tick claim s).get telFaultSeqSeq = (s.get telFaultSeqSeq + 1) % 2 ^ 32 := by
  rw [writeRecord_eq, raise_ne _ (by decide), ringWrite_get_own _ _ (by decide) (by decide) (by decide) (by decide)
    (uncounted_of_faultBlock (by decide) (by decide)) (by decide), recorded, onFlt_get_frame, get_set_self]
  rfl

theorem writeRecord_buf (cls code unit repeats info action tick : Nat) (claim : Option Nat) :
    (writeRecord cls code unit repeats info action tick claim s).flt.buf =
      (recorded cls code unit repeats info action tick claim s).flt.buf := by
  rw [writeRecord_eq, raise_flt_frame, (ringWrite_ringKept _ _).flt]

/-! ## No fault of the record's own write (R574, R175) -/

/-- A field by which the partition of an address is found, told by its bit address modulo the 512 bits of a partition's block. -/
abbrev Placed (g : Fld) : Prop := g.key % 512 ∈ [0, 1, 5, 32, 48]

theorem placed_of_first (f : Nat → Fld) (i : Nat) (reg : (f i).reg = (f 0).reg + i * 0x40) (bit : (f i).lsb = (f 0).lsb)
    (h : Placed (f 0)) : Placed (f i) := by
  rwa [Placed, show (f i).key % 512 = (f 0).key % 512 by simp only [Fld.key, reg, bit]; omega]

/-- Whether an address is refused depends on the placing fields alone. -/
theorem refusal_congr {s t : State} (h : ∀ g, Placed g → t.get g = s.get g) (a : Nat) : refusal t a = refusal s a := by
  have enable (p : Nat) := flag_congr (h _ (placed_of_first memPartCfgEnable p rfl rfl (by decide)))
  have draining (p : Nat) := flag_congr (h _ (placed_of_first memPartCfgDraining p rfl rfl (by decide)))
  have tier (p : Nat) := h _ (placed_of_first memPartCfgTier p rfl rfl (by decide))
  have first (p : Nat) := h _ (placed_of_first memPartRangeFirst p rfl rfl (by decide))
  have frames (p : Nat) := h _ (placed_of_first memPartRangeFrames p rfl rfl (by decide))
  simp only [refusal, partOf, partCovers, enable, draining, tier, first, frames]

theorem Placed.ne {g f : Fld} (h : Placed g) (apart : f.key % 512 ∉ [0, 1, 5, 32, 48]) : g.key ≠ f.key := fun e => apart (e ▸ h)

/-- A write to the ring that is refused changes no placing field. -/
theorem ringRefused_placed (a : Nat) {g : Fld} (h : Placed g) :
    (raise telFaultEvtRingErr ((refusedAt a s).set telFaultRingCtlEntries 0)).get g = s.get g := by
  rw [raise_ne _ (h.ne (by decide)), get_set_ne _ _ (h.ne (by decide)), refusedAt]
  split
  · rfl
  · rw [raise_ne _ (h.ne (by decide)), get_set_ne _ _ (h.ne (by decide)), get_set_ne _ _ (h.ne (by decide))]

theorem ringRefused_head (a : Nat) :
    (raise telFaultEvtRingErr ((refusedAt a s).set telFaultRingCtlEntries 0)).get telFaultHeadIndex = s.get telFaultHeadIndex := by
  rw [raise_ne _ (by decide), get_set_ne _ _ (by decide), refusedAt]
  split
  · rfl
  · rw [raise_ne _ (by decide), get_set_ne _ _ (by decide), get_set_ne _ _ (by decide)]

/-- A write that takes the ring away is one that is refused at the ring's place. -/
theorem ringWrite_cases (r : List Byte) :
    (ringWrite r s).get telFaultRingCtlEntries = s.get telFaultRingCtlEntries ∨
      isReady s = true ∧ ∃ a, ringWrite r s = raise telFaultEvtRingErr ((refusedAt a s).set telFaultRingCtlEntries 0) := by
  unfold ringWrite
  dsimp only
  split
  · exact .inl rfl
  · rename_i up
    have ready : isReady s = true := by simpa using fun h => up (.inr h)
    split
    · exact .inl (get_bump_ne s _ (by decide))
    · split
      · exact .inr ⟨ready, _, rfl⟩
      · refine .inl ?_
        rw [get_set_ne _ _ (by decide), nodeWrite_get _ _ _ (uncounted_of_faultBlock (by decide) (by decide))]

end

/-- A fault recorded where no ring is, where the node is not ready, or where the ring's place is served, records nothing more. -/
theorem fault_eq_faultCore {c : FltClass} (atOnce : c = .late ∨ c = .step ∨ c = .thermal ∨ c = .link) (code unit info action : Nat)
    (claim : Option Nat) {s : State} (placed : s.get telFaultRingCtlEntries = 0 ∨ isReady s = false ∨
      refusal s (s.get telFaultRingBaseAddr + 32 * (s.get telFaultHeadIndex % s.get telFaultRingCtlEntries)) = 0) :
    fault c code unit info action claim s = faultCore c code unit info action claim s := by
  refine if_neg ?_
  rintro ⟨ring, taken, refused⟩
  rw [faultCore, if_pos atOnce] at taken refused
  rw [writeRecord_eq] at taken refused
  generalize hw : recorded c.code code unit 0 info action (lockTick s) claim s = w at taken refused
  have own {g : Fld} (h : g.key ≠ telFaultSeqSeq.key) : w.get g = s.get g := by
    rw [← hw, recorded, onFlt_get_frame, get_set_ne _ _ h]
  have entries : w.get telFaultRingCtlEntries = s.get telFaultRingCtlEntries := own (by decide)
  rcases ringWrite_cases w (faultBytes (s.set telFaultSeqSeq (s.get telFaultSeqSeq + 1)) c.code code unit 0 info action (lockTick s) claim)
    with kept | ⟨ready, a, gone⟩
  · rw [raise_ne _ (by decide), kept, entries] at taken
    exact ring taken
  · rw [gone, raise_ne _ (by decide), ringRefused_head, own (by decide)] at refused
    have same : refusal s (s.get telFaultRingBaseAddr + 32 * (s.get telFaultHeadIndex % s.get telFaultRingCtlEntries)) ≠ 0 := by
      rwa [refusal_congr (s := s) (fun g hg => by
        rw [raise_ne _ (hg.ne (by decide)), ringRefused_placed _ _ hg, own (hg.ne (by decide))])] at refused
    have up : isReady s = true := by rw [← ready, isReady, isReady, own (by decide)]
    rcases placed with none_ | down | served
    · exact ring none_
    · rw [down] at up; exact absurd up (by decide)
    · exact same served

/-- Settles O50: the record is one write of the buffer's slot, then of the ring. -/
theorem faultRecordBuffered : Obligations.FaultRecordBuffered := by
  rintro c code unit info action claim s _ atOnce rfl
  have record : faultCore c code unit info action claim s = writeRecord c.code code unit 0 info action (lockTick s) claim s :=
    if_pos atOnce
  refine ⟨?seq, ?event, fun i hi => ?slot, fun j hj => ?others, fault_eq_faultCore atOnce code unit info action claim⟩
  case seq => rw [record, writeRecord_seq]
  case event => rw [record, writeRecord_eq, raise_self _ _ (by decide)]
  case slot =>
    rw [record, writeRecord_buf, recorded_buf, if_pos (by omega), Nat.add_sub_cancel_left]
  case others =>
    rw [record, writeRecord_buf, recorded_buf, if_neg (by omega)]

end Sys2Proof.Machine
end

section
/-! PROOF. Requests, grants and snoops of the coherence network, and the fences of COH_FENCE (R427 to R449): O26 to O29, O43. -/

namespace Sys2Proof.Machine

/-! ## Requests of an L1 (R427, R432, R433) -/

section
variable {s : State}

/-- A free engine without an open request sends its request to the slice. -/
theorem l1Send_sends {e : Nat} (free : engineFree s e = true) (none_open : (s.l1 e).reqs = []) {line : Nat}
    (good : refusal s (line * 128) = 0) (kind tag off : Nat) (data : List Byte) :
    l1Send kind e tag line off data s =
      arrive (l1Request kind e tag line s) (guardCount (line * 128) 128 (l1Open e ⟨tag, line, kind - 3, off, data⟩ s)) := by
  have sends : ¬ (!engineFree s e || (s.l1 e).reqs.any (fun q => q.tag == tag || (q.line == line && decide (q.kind < 3)))) = true := by
    simp [free, none_open]
  rw [l1Send, if_neg sends, if_neg (not_not_intro good)]

/-- A miss with room in its set goes on. -/
theorem miss_goes_on {e line : Nat} (miss : l1Line s e line = none) (room : l1Room (s.l1 e) line = true) :
    ¬ ((l1Line s e line).isSome || !l1Room (s.l1 e) line) = true := by rw [miss, room]; decide

end

/-- Settles O26: in each command the premises leave one branch, the one that sends. -/
theorem cacheRequestsComplete : Obligations.CacheRequestsComplete := by
  refine ⟨?rdS, ?rdX, ?upg, ?evict, ?wb⟩
  case rdS =>
    intro e t l s miss room free none_open good
    rw [exec_rdS, execRdS, if_neg (miss_goes_on miss room), l1Send_sends free none_open good, done_eq]
  case rdX =>
    intro e t l o d s miss room free none_open good
    rw [exec_rdX, execRdX, if_neg (miss_goes_on miss room), l1Send_sends free none_open good, done_eq]
  case upg =>
    intro e t l o d s x held shared free none_open good
    simp only [exec_upg, execUpg, held, if_pos shared, l1Send_sends free none_open good, done_eq]
  case evict =>
    rintro e t l s _ x held clean none_open rfl
    have sends : ¬ (x.st = .m ∨ (s.l1 e.val).reqs.any (fun q => q.tag == t.val || q.line == l.toNat) = true) := by
      simp [clean, none_open]
    constructor
    · intro alone
      simp only [exec_evict, execEvict, held, if_neg sends, alone, done_eq]
    · intro y crossed
      simp only [exec_evict, execEvict, held, if_neg sends, crossed, done_eq]
  case wb =>
    rintro e t l s _ _ _ x rfl held dirty none_open room rfl rfl
    have sends : ¬ (x.st ≠ .m ∨ 8 ≤ ((l1Check e.val l.toNat s).l1 e.val).wb.length ∨
        ((l1Check e.val l.toNat s).l1 e.val).reqs.any (fun q => q.tag == t.val || q.line == l.toNat) = true) := by
      simp [dirty, none_open, room]
    constructor
    · intro alone
      simp only [exec_wb, execWb, held, if_neg sends, alone, done_eq]
    · intro y crossed
      simp only [exec_wb, execWb, held, if_neg sends, crossed, done_eq]

/-! ## Grants and acknowledgements (R428, R434) -/

section
variable {s : State} {e tag line : Nat} {m : CMsg} {q : L1Req}

/-- Closing a request and taking a message leave the lines of every L1. -/
@[simp] theorem l1Line_close_take : l1Line (l1Close e tag (takeMsg m s)) e line = l1Line s e line := by
  simp only [l1Line, l1Close, State.setL1, State.l1, Tab.get_set_self, takeMsg]

/-- What becomes of the transaction of a line whose grant has arrived. -/
def grantArrived (line : Nat) (u : State) : State :=
  match txnOf u line with
  | some x => closeTxn line (setTxn { x with phase := 2 } u)
  | none => u

/-- A grant of data to read installs the line of the message. -/
theorem receiveGrant_read {k : MsgKind} {st : Mesi} (read : st ≠ .m) (data : k ≠ .upgAck)
    (msg : nextMsg s k e (sliceOf line) tag line = some m)
    (req : (s.l1 e).reqs.find? (fun q => q.tag == tag && q.line == line) = some q) :
    receiveGrant k st e tag line s =
      grantArrived line (l1Put e line ⟨st, m.data, m.poison, 0⟩ (l1Close e tag (takeMsg m s))) := by
  simp only [receiveGrant, msg, req, if_neg read, if_neg data]
  rfl

/-- DATA_X installs the line of the message with the write patched in. -/
theorem receiveGrant_dataX (msg : nextMsg s .dataX e (sliceOf line) tag line = some m)
    (req : (s.l1 e).reqs.find? (fun q => q.tag == tag && q.line == line) = some q) :
    receiveGrant .dataX .m e tag line s = grantArrived line (l1Put e line ⟨.m, patch m.data q.data q.off,
      clearBits m.poison (wholeMask (granule (line * 128)) q.off q.data.length), 0⟩ (l1Close e tag (takeMsg m s))) := by
  simp only [receiveGrant, msg, req]
  rfl

/-- UPG_ACK patches the write into the copy that the L1 holds. -/
theorem receiveGrant_upgAck {x : L1Line} (msg : nextMsg s .upgAck e (sliceOf line) tag line = some m)
    (req : (s.l1 e).reqs.find? (fun q => q.tag == tag && q.line == line) = some q) (held : l1Line s e line = some x) :
    receiveGrant .upgAck .m e tag line s = grantArrived line (l1Put e line ⟨.m, patch x.data q.data q.off,
      clearBits x.poison (wholeMask (granule (line * 128)) q.off q.data.length), 0⟩ (l1Close e tag (takeMsg m s))) := by
  simp only [receiveGrant, msg, req, l1Line_close_take, held]
  rfl

/-- The two cases of a line with and without a transaction. -/
theorem grantArrived_cases (o : Host.Outcome State Fault Refusal) (u : State) (h : o = done (grantArrived line u)) :
    (txnOf u line = none → o = .next (settle u)) ∧
      ∀ x, txnOf u line = some x → o = .next (settle (closeTxn line (setTxn { x with phase := 2 } u))) := by
  subst h
  refine ⟨fun quiet => ?_, fun x opened => ?_⟩
  · rw [grantArrived, quiet, done_eq]
  · rw [grantArrived, opened, done_eq]

end

/-- Settles O27: each message and its request found, the grant is the installed line and what becomes of its transaction. -/
theorem cacheGrantsComplete : Obligations.CacheGrantsComplete := by
  refine ⟨?dataS, ?dataE, ?dataX, ?upgAck, ?evictAck, ?wbAck, ?wbSuperseded⟩
  case dataS =>
    rintro e t l s _ m q msg req rfl
    exact grantArrived_cases _ _ (by rw [exec_dataS, execDataS, receiveGrant_read (by decide) (by decide) msg req])
  case dataE =>
    rintro e t l s _ m q msg req rfl
    exact grantArrived_cases _ _ (by rw [exec_dataE, execDataE, receiveGrant_read (by decide) (by decide) msg req])
  case dataX =>
    rintro e t l s _ m q msg req rfl
    exact grantArrived_cases _ _ (by rw [exec_dataX, execDataX, receiveGrant_dataX msg req])
  case upgAck =>
    rintro e t l s _ m q x msg req held rfl
    exact grantArrived_cases _ _ (by rw [exec_upgAck, execUpgAck, receiveGrant_upgAck msg req held])
  case evictAck =>
    intro e t l s m msg
    simp only [exec_evictAck, execEvictAck, msg, done_eq]
  case wbAck =>
    intro e t l s m msg
    simp only [exec_wbAck, execWbAck, msg, done_eq]
  case wbSuperseded =>
    intro e t l s m msg
    simp only [exec_wbSuperseded, execWbSuperseded, msg, done_eq]

/-! ## Snoops and their answers (R427, R433, R436, R449) -/

section
variable {k : MsgKind} {e slice tag line : Nat} {s : State} {x : Snoop} {m : CMsg}

/-- A snoop that has arrived is answered. -/
theorem receiveSnoop_answers (msg : nextMsg s k e slice tag line = some m) :
    receiveSnoop k e slice tag line s = answerSnoop k e slice tag line (takeMsg m s) := by rw [receiveSnoop, msg]

/-- An answer to an open snoop closes it, has its effect and carries the line on. -/
theorem receiveRsp_closes (opened : snoopOf s slice tag = some x) (msg : nextMsg s k e slice tag line = some m) :
    receiveRsp k e slice tag line s = advance x.line (rspEffect k x m (dropSnoop x (takeMsg m s))) := by
  simp only [receiveRsp, msg, opened]

end

/-- Settles O28: a snoop by the state of the L1's copy, an answer by its effect on the line. -/
theorem snoopsComplete : Obligations.SnoopsComplete := by
  refine ⟨?share, ?inv, ?discard, ?gone, ?rspInv, ?rspInvS, ?rspData, ?rspDataS, ?timeout⟩
  case share =>
    rintro e sl t l s _ m msg rfl
    rw [exec_snpShare, execSnpShare, receiveSnoop_answers msg, answerSnoop, done_eq]
    refine ⟨fun x held dirty => ?_, fun x held clean => ?_, fun w gone left => ?_, fun gone empty => ?_⟩
    · simp only [held, if_pos dirty, if_true]
    · simp only [held, if_neg clean, if_true]
    · simp only [gone, left, if_neg (show MsgKind.snpShare ≠ .snpDiscard by decide)]
    · simp only [gone, empty]
  case inv =>
    rintro e sl t l s _ m msg rfl
    rw [exec_snpInv, execSnpInv, receiveSnoop_answers msg, answerSnoop, done_eq]
    refine ⟨fun x held dirty => ?_, fun x held clean => ?_, fun w gone left => ?_, fun gone empty => ?_⟩
    · simp only [held, if_neg (show MsgKind.snpInv ≠ .snpShare by decide), dirty, and_self, if_true]
    · simp only [held, if_neg (show MsgKind.snpInv ≠ .snpShare by decide), clean, and_false, if_false]
    · simp only [gone, left, if_neg (show MsgKind.snpInv ≠ .snpDiscard by decide)]
    · simp only [gone, empty]
  case discard =>
    rintro e sl t l s _ m msg rfl
    have invalidates (c : Prop) : ¬ (MsgKind.snpDiscard = .snpInv ∧ c) := fun h => absurd h.1 (by decide)
    rw [exec_snpDiscard, execSnpDiscard, receiveSnoop_answers msg, answerSnoop, done_eq]
    refine ⟨fun x held _ => ?_, fun x held _ => ?_, fun w gone left => ?_, fun gone empty => ?_⟩
    · simp only [held, if_neg (show MsgKind.snpDiscard ≠ .snpShare by decide), if_neg (invalidates _)]
    · simp only [held, if_neg (show MsgKind.snpDiscard ≠ .snpShare by decide), if_neg (invalidates _)]
    · simp only [gone, left, if_true]
    · simp only [gone, empty]
  case gone =>
    rintro e sl t l s _ x m opened msg rfl
    rw [exec_rspGone, execRspGone, receiveRsp_closes opened msg, rspEffect, done_eq]
  case rspInv =>
    rintro e sl t l s _ x m opened msg rfl
    rw [exec_rspInv, execRspInv, receiveRsp_closes opened msg, rspEffect, done_eq] <;> simp
  case rspInvS =>
    rintro e sl t l s _ x m opened msg rfl
    rw [exec_rspInvS, execRspInvS, receiveRsp_closes opened msg, rspEffect, done_eq]
  case rspData =>
    rintro e sl t l s _ x m opened msg rfl
    rw [exec_rspData, execRspData, receiveRsp_closes opened msg, rspEffect, done_eq]
  case rspDataS =>
    rintro e sl t l s _ x m opened msg rfl
    rw [exec_rspDataS, execRspDataS, receiveRsp_closes opened msg, rspEffect, done_eq]
  case timeout =>
    intro sl t s x opened
    simp only [exec_snoopTimeout, execSnoopTimeout, opened, protocolFault, done_eq]
    rfl

/-! ## Fences (R439 to R442) -/

section
variable {s : State}

/-- A GO while a fence runs only sets REFUSED. -/
theorem fenceGo_busy (busy : s.flag cohFenceBusy = true) (kind : Nat) : fenceGo kind s = raise cohFenceRefused s := if_pos busy

/-- A fence that has ended is not busy and is reported. -/
theorem fenceEnd_reports (s : State) :
    (fenceEnd s).get cohFenceBusy = 0 ∧ (fenceEnd s).get cohFenceDone = 1 ∧ (fenceEnd s).get cohEvtFenceDone = 1 := by
  unfold fenceEnd
  dsimp only
  refine ⟨?busy, ?done, raise_self _ _ (by decide)⟩
  case busy =>
    rw [raise_ne _ (by decide), raise_ne _ (by decide), get_set_ne _ _ (by decide), get_set_self, Nat.zero_mod]
  case done => rw [raise_ne _ (by decide), raise_self _ _ (by decide)]

/-- The outcome of a fence that ends. -/
theorem fenceEnd_done (s : State) : ∃ t, done (fenceEnd s) = .next t ∧
    t.get cohFenceBusy = 0 ∧ t.get cohFenceDone = 1 ∧ t.get cohEvtFenceDone = 1 := by
  refine ⟨_, done_eq _, ?_⟩
  simp only [settle_get_frame]
  exact fenceEnd_reports s

/-- An engine fence whose engines are at a boundary without a write-back ends. -/
theorem engineFence_ends (busy : s.flag cohFenceBusy = true) (kind : s.get cohFenceKind < 2)
    (rest : ∀ e ∈ enginesOf s.coh.fenceEngines, (s.l1 e).wb = [] ∧ s.get (upeStatState e) ≠ 3) :
    execEngineFenceComplete s =
      done (fenceEnd (State.each (enginesOf s.coh.fenceEngines) (l1Walk s.coh.fenceInv) s)) := by
  have quiet : (enginesOf s.coh.fenceEngines).any (fun e => !(s.l1 e).wb.isEmpty || s.get (upeStatState e) == 3) = false := by
    rw [List.any_eq_false]
    intro e he
    obtain ⟨empty, boundary⟩ := rest e he
    simp [empty, boundary]
  have ends : ¬ (!s.flag cohFenceBusy || decide (2 ≤ s.get cohFenceKind) ||
      (enginesOf s.coh.fenceEngines).any (fun e => !(s.l1 e).wb.isEmpty || s.get (upeStatState e) == 3)) = true := by
    simp [busy, quiet, kind]
  exact if_neg ends

/-- A fabric fence none of whose requests is open ends. -/
theorem fabricFence_ends (busy : s.flag cohFenceBusy = true) (kind : s.get cohFenceKind = 2)
    (rest : ∀ r ∈ s.fab.reqs, r.fenced = false) : execFabricFenceComplete s = done (fenceEnd s) := by
  have quiet : s.fab.reqs.any (fun r => r.fenced) = false := by
    rw [List.any_eq_false]; intro r hr; simp [rest r hr]
  exact if_neg (by simp [busy, kind, quiet])

end

/-- Settles O29: a GO by whether a fence runs, an end once its premises leave the branch that ends it. -/
theorem fencesComplete : Obligations.FencesComplete := by
  have idle {s : State} (h : s.flag cohFenceBusy = false) : ¬ s.flag cohFenceBusy = true := by rw [h]; decide
  refine ⟨?wb, ?wbinv, ?fabric, ?engineEnd, ?fabricEnd⟩
  case wb =>
    rintro s _ rfl
    refine ⟨fun h => ?_, fun h => ?_⟩
    · rw [exec_engineFenceWb, execEngineFenceWb, fenceGo, if_neg (idle h), done_eq]; rfl
    · rw [exec_engineFenceWb, execEngineFenceWb, fenceGo_busy h, done_eq]
  case wbinv =>
    rintro s _ rfl
    refine ⟨fun h => ?_, fun h => ?_⟩
    · rw [exec_engineFenceWbinv, execEngineFenceWbinv, fenceGo, if_neg (idle h), done_eq]; rfl
    · rw [exec_engineFenceWbinv, execEngineFenceWbinv, fenceGo_busy h, done_eq]
  case fabric =>
    rintro s _ rfl
    refine ⟨fun h => ?_, fun h => ?_⟩
    · rw [exec_fabricFence, execFabricFence, fenceGo, if_neg (idle h), done_eq]; rfl
    · rw [exec_fabricFence, execFabricFence, fenceGo_busy h, done_eq]
  case engineEnd =>
    rintro s _ busy kind rest rfl
    exact ⟨engineFence_ends busy kind rest, fenceEnd_reports _⟩
  case fabricEnd =>
    intro s busy kind rest
    exact ⟨fabricFence_ends busy kind rest, fenceEnd_reports _⟩

/-! ## One fence at a time (R442) -/

/-- COH_FENCE. -/
def cohFenceReg : Reg := ⟨0x1700004, 4, [cohFenceGo, cohFenceKind, cohFenceBusy, cohFenceDone, cohFenceTimeout, cohFenceRefused, cohFenceAborted]⟩

section
variable (r : Reg) (lo n x : Nat) (s : State)

/-- A write of a register changes registers only. -/
theorem storeFlds_parts : ∃ w : State, storeFlds r lo n x s = { s with regs := w.regs } :=
  each_keeps (fun t => ∃ w : State, t = { s with regs := w.regs }) _
    (fun f t ⟨w, h⟩ => by
      cases f.acc with
      | rw => exact ⟨t.set f (bits x f.lsb f.width), by rw [h]; rfl⟩
      | w1c => exact ⟨t.set f (clearBits (t.get f) (bits x f.lsb f.width)), by rw [h]; rfl⟩
      | ro => exact ⟨w, h⟩
      | wo => exact ⟨w, h⟩
      | rc => exact ⟨w, h⟩) _ s ⟨s, rfl⟩

/-- A write of a register leaves every field that it does not store. -/
theorem storeFlds_get {g : Fld} (h : ∀ f ∈ r.flds, f.acc = .rw ∨ f.acc = .w1c → g.key ≠ f.key) :
    (storeFlds r lo n x s).get g = s.get g :=
  each_keeps_of_mem (P := fun t => t.get g = s.get g)
    (fun f hf t ht => by
      have differs := h f (List.mem_of_mem_filter hf)
      cases hacc : f.acc with
      | rw => exact (get_set_ne t _ (differs (.inl hacc))).trans ht
      | w1c => exact (get_set_ne t _ (differs (.inr hacc))).trans ht
      | ro => exact ht
      | wo => exact ht
      | rc => exact ht) rfl

end

/-- A GO written while a fence runs is refused, KIND kept. -/
theorem cohWrite_busy {x : Nat} {s : State} (busy : s.flag cohFenceBusy = true) (go : bitOf x 0 = true) (old : Nat) :
    cohWrite 0x1700004 x old s = raise cohFenceRefused (s.set cohFenceKind old) := by
  have kept : (s.set cohFenceKind old).flag cohFenceBusy = true := (flag_set_ne s old (by decide)).trans busy
  have here : (0x1700004 : Nat) = cohFenceGo.reg := rfl
  have goes : ¬ (!bitOf x 0) = true := by rw [go]; decide
  simp only [cohWrite, if_pos here, if_pos busy, if_neg goes, fenceGo_busy kept, ite_self]

/-- A write of COH_FENCE with GO while a fence runs. -/
theorem cohFence_write {v : Nat} {s : State} (busy : s.flag cohFenceBusy = true) (go : bitOf v 0 = true) :
    wordWrite 3 0x1700004 v s =
      raise cohFenceRefused ((storeFlds cohFenceReg 0 4 (mergeReg cohFenceReg 0 4 v s) s).set cohFenceKind (s.get cohFenceKind)) := by
  have window : windowOf 0x1700004 = none := by decide
  have reg : regAt 0x1700004 = some cohFenceReg := rfl
  have stored : (storeFlds cohFenceReg 0 4 (mergeReg cohFenceReg 0 4 v s) s).flag cohFenceBusy = true :=
    (flag_congr (storeFlds_get _ _ _ _ s (by decide))).trans busy
  have low : mergeReg cohFenceReg 0 4 v s % 2 = v % 2 := mergeReg_mod cohFenceReg v s (k := 1) (by decide)
  have presented : bitOf (mergeReg cohFenceReg 0 4 v s) 0 = true := by
    simpa [bitOf, Nat.testBit_zero, low] using go
  rw [wordWrite, window]
  dsimp only
  rw [reg]
  dsimp only
  rw [← cohWrite_busy stored presented]
  rfl

/-- Settles O43: a GO while BUSY is 1 only raises REFUSED, whichever way it comes, and a fence ends by `fenceEnd`. -/
theorem oneFenceAtATime : Obligations.OneFenceAtATime := by
  refine ⟨?commands, ?write, ?engineEnd, ?fabricEnd⟩
  case commands =>
    intro s busy c hc
    have refused (kind : Nat) : ∃ t, done (fenceGo kind s) = .next t ∧ t.get cohFenceRefused = 1 ∧
        (∀ f : Fld, f.key ≠ cohFenceRefused.key → t.get f = s.get f) ∧ t.coh = s.coh ∧ t.fab = s.fab ∧ t.mem = s.mem := by
      rw [fenceGo_busy busy]
      exact ⟨_, done_eq _, raise_self s _ (by decide), fun f hf => raise_ne s hf, raise_coh_frame s _, raise_fab_frame s _, raise_mem_frame s _⟩
    simp only [List.mem_cons, List.not_mem_nil, or_false] at hc
    rcases hc with rfl | rfl | rfl
    · exact refused 0
    · exact refused 1
    · exact refused 2
  case write =>
    intro s v reach opened held busy hv go
    obtain ⟨w, hw⟩ := storeFlds_parts cohFenceReg 0 4 (mergeReg cohFenceReg 0 4 v s) s
    refine ⟨_, (exec_registerWrite_word reach held hv (by decide) rfl opened).trans (done_eq _), ?_⟩
    rw [cohFence_write busy go]
    refine ⟨raise_self _ _ (by decide), ?busy, ?kind, ?coh, ?fab, ?mem⟩
    case busy =>
      rw [settle_get_frame, raise_ne _ (by decide), get_set_ne _ _ (by decide), storeFlds_get _ _ _ _ _ (by decide)]
      exact eq_of_beq busy
    case kind => rw [settle_get_frame, raise_ne _ (by decide), get_set_self]; rfl
    case coh => rw [settle_coh_frame, raise_coh_frame, set_coh_frame, hw]
    case fab => rw [settle_fab_frame, raise_fab_frame, set_fab_frame, hw]
    case mem => rw [settle_mem_frame, raise_mem_frame, set_mem_frame, hw]
  case engineEnd =>
    intro s busy kind rest
    rw [exec_engineFenceComplete, engineFence_ends busy kind rest]
    exact fenceEnd_done _
  case fabricEnd =>
    intro s busy kind rest
    rw [exec_fabricFenceComplete, fabricFence_ends busy kind rest]
    exact fenceEnd_done _

end Sys2Proof.Machine
end

section
/-! PROOF. A response without an open snoop, and what a snoop leaves unchanged (R427, R433, R449): O44, O54. -/

namespace Sys2Proof.Machine

/-! ## Responses without an open snoop (R449) -/

section
variable {s : State}

/-- A line without a queued request is not pumped. -/
theorem pumpLine_of_quiet {line : Nat} (h : lineQueued s line = false) : pumpLine line s = s := if_neg (by simp [h])

/-- A message taken or not: what the response of a closed snoop leaves of the network. -/
def taken (m : Option CMsg) (s : State) : State :=
  match m with
  | some m => takeMsg m s
  | none => s

theorem taken_keeps (m : Option CMsg) (s : State) :
    (taken m s).coh.snoops = s.coh.snoops ∧ (taken m s).coh.txns = s.coh.txns ∧ (taken m s).coh.queue = s.coh.queue ∧
      (taken m s).coh.net = (match m with | some m => s.coh.net.erase m | none => s.coh.net) := by
  cases m <;> exact ⟨rfl, rfl, rfl, rfl⟩

/-- A response whose tag matches no open snoop is taken and reported. -/
theorem receiveRsp_unmatched {slice tag : Nat} (closed : snoopOf s slice tag = none) (k : MsgKind) (e line : Nat) :
    receiveRsp k e slice tag line s = protocolFault 1 e line (taken (nextMsg s k e slice tag line) s) := by
  unfold receiveRsp
  rw [closed]
  cases nextMsg s k e slice tag line <;> rfl

/-- A field of the coherence block is not written by the record of a fault. -/
theorem unrecorded_protocol : Unrecorded cohEvtProtocol ∧ Unrecorded cohFaultCause := by
  have bytes {g : Fld} (h : g.key % 512 ≠ 256) (p : Nat) : g.key ≠ (memPartBytesCount p).key := fun e => h (by
    rw [e]; simp only [Fld.key, memPartBytesCount]; omega)
  exact ⟨⟨by decide, ⟨by decide, by decide, bytes (by decide)⟩, by decide⟩, ⟨by decide, ⟨by decide, by decide, bytes (by decide)⟩, by decide⟩⟩

/-- A protocol fault sets PROTOCOL and its CAUSE. -/
theorem protocolFault_reports (e line : Nat) (s : State) :
    (protocolFault 1 e line s).get cohEvtProtocol = 1 ∧ (protocolFault 1 e line s).get cohFaultCause = 1 := by
  obtain ⟨event, cause⟩ := unrecorded_protocol
  unfold protocolFault
  dsimp only
  rw [fault_get _ _ _ _ _ _ _ event, fault_get _ _ _ _ _ _ _ cause]
  refine ⟨raise_self _ _ (by decide), ?_⟩
  rw [raise_ne _ (by decide), get_set_self]
  rfl

/-- A protocol fault changes nothing that is open. -/
theorem protocolFault_faultKept (cause e line : Nat) (s : State) : FaultKept s (protocolFault cause e line s) := by
  unfold protocolFault
  exact (FaultKept.trans {} (raise_ringKept _ _).toFaultKept).trans (fault_faultKept _ _ _ _ _ _ _)

end

/-- Settles O44: the response is taken, reported, and nothing that is open changes. -/
theorem unmatchedResponses : Obligations.UnmatchedResponses := by
  refine ⟨?closed, ?stale⟩
  case closed =>
    intro e sl t l s closed p hp
    have outcome : exec p.1 s = .next (settle (pumpLine l.toNat (receiveRsp p.2 e.val sl.val t.val l.toNat s))) := by
      simp only [List.mem_cons, List.not_mem_nil, or_false] at hp
      rcases hp with rfl | rfl | rfl | rfl | rfl <;> rfl
    rw [receiveRsp_unmatched closed] at outcome
    generalize hm : nextMsg s p.2 e.val sl.val t.val l.toNat = m at outcome ⊢
    obtain ⟨snoops, txns, queue, net⟩ := taken_keeps m s
    have kept := protocolFault_faultKept 1 e.val l.toNat (taken m s)
    obtain ⟨event, cause⟩ := protocolFault_reports e.val l.toNat (taken m s)
    refine ⟨_, outcome, fun quiet => pumpLine_of_quiet ?_, event, cause, kept.snoops.trans snoops, kept.txns.trans txns, kept.net.trans net⟩
    rwa [lineQueued, kept.queue, queue]
  case stale =>
    intro e sl t l s x m opened stale msg
    rw [exec_rspGone, execRspGone, receiveRsp_closes opened msg, rspEffect, if_pos stale, done_eq]

/-! ## The lines of an L1 -/

section
variable {α : Type}

theorem Tab.find?_insert_ne {t : Tab α} {k j : Nat} (v : α) (h : j ≠ k) :
    (Tab.insert t k v).find? (fun p => p.1 == j) = t.find? (fun p => p.1 == j) := by
  have other : (k == j) = false := beq_false_of_ne h.symm
  induction t with
  | nil => simp [Tab.insert, other]
  | cons p r ih =>
    obtain ⟨i, w⟩ := p
    unfold Tab.insert
    split
    · rw [List.find?_cons, other]
    · split
      · rename_i same
        simp only [List.find?_cons, other, same]
      · simp only [List.find?_cons, ih]

theorem find?_filter_ne {l : List (Nat × α)} {k j : Nat} (h : j ≠ k) :
    (l.filter (fun p => p.1 != k)).find? (fun p => p.1 == j) = l.find? (fun p => p.1 == j) := by
  rw [List.find?_filter]
  congr 1
  funext p
  by_cases hp : p.1 = j
  · simp [hp, h]
  · simp [hp]

end

/-! ## What a snoop leaves alone (R427, R433) -/

/-- Between `s` and `t` no engine, no transaction and no snoop changes. -/
structure OpenKept (s t : State) : Prop where
  upe : t.upe = s.upe := by rfl
  txns : t.coh.txns = s.coh.txns := by rfl
  snoops : t.coh.snoops = s.coh.snoops := by rfl

theorem OpenKept.trans {s t u : State} (h : OpenKept s t) (k : OpenKept t u) : OpenKept s u where
  upe := k.upe.trans h.upe
  txns := k.txns.trans h.txns
  snoops := k.snoops.trans h.snoops

theorem FaultKept.openKept {s t : State} (h : FaultKept s t) : OpenKept s t := ⟨h.upe, h.txns, h.snoops⟩

/-- Between `s` and `t` only a line of one L1 and the network change. -/
structure LineOnly (e line : Nat) (s t : State) : Prop extends OpenKept s t where
  mem : t.mem = s.mem := by rfl
  regs : t.regs = s.regs := by rfl
  others : ∀ k, k ≠ e → t.l1 k = s.l1 k := by intros; rfl
  wb : (t.l1 e).wb = (s.l1 e).wb := by rfl
  lines : ∀ x, x ≠ line → l1Line t e x = l1Line s e x := by intros; rfl

section
variable {e line : Nat} {s t u : State}

theorem LineOnly.refl : LineOnly e line s s := {}

theorem LineOnly.trans (h : LineOnly e line s t) (k : LineOnly e line t u) : LineOnly e line s u where
  toOpenKept := h.toOpenKept.trans k.toOpenKept
  mem := k.mem.trans h.mem
  regs := k.regs.trans h.regs
  others i hi := (k.others i hi).trans (h.others i hi)
  wb := k.wb.trans h.wb
  lines x hx := (k.lines x hx).trans (h.lines x hx)

theorem l1_setL1_self (x : L1) : (s.setL1 e x).l1 e = x := Tab.get_set_self _ _ _ _

theorem l1_setL1_ne (x : L1) {k : Nat} (h : k ≠ e) : (s.setL1 e x).l1 k = s.l1 k := Tab.get_set_ne _ _ _ h

theorem l1Put_lineOnly (v : L1Line) : LineOnly e line s (l1Put e line v s) where
  others k hk := l1_setL1_ne _ hk
  wb := by rw [l1Put, l1_setL1_self]
  lines x hx := by rw [l1Line, l1Put, l1_setL1_self, l1Line, Tab.find?_insert_ne _ hx]

theorem l1Remove_lineOnly : LineOnly e line s (l1Remove e line s) where
  others k hk := l1_setL1_ne _ hk
  wb := by rw [l1Remove, l1_setL1_self]
  lines x hx := by rw [l1Line, l1Remove, l1_setL1_self, l1Line, find?_filter_ne hx]

theorem sendMsg_lineOnly (m : CMsg) : LineOnly e line s (sendMsg m s) := {}

theorem takeMsg_lineOnly (m : CMsg) : LineOnly e line s (takeMsg m s) := {}

theorem storeFound_openKept (store line : Nat) (s : State) : OpenKept s (storeFound store line s) := by
  have cleaned : OpenKept s (State.each (List.range 16) (fun k => setLatent (store * 2 ^ 48 + line * 128 + 8 * k) .clean) s) :=
    each_keeps (OpenKept s) _ (fun k t h => h.trans {}) _ s {}
  exact cleaned.trans (fault_faultKept _ _ _ _ _ _ _).openKept

theorem l1Check_openKept (e line : Nat) (s : State) : OpenKept s (l1Check e line s) := by
  unfold l1Check
  split
  · dsimp only
    split
    · exact {}
    · exact OpenKept.trans (l1Put_lineOnly _).toOpenKept (storeFound_openKept _ _ _)
  · exact {}

/-- An L1 that finds no error in its line reads it as it stands. -/
theorem l1Check_clean (clean : storeBad s (2 + e) line = 0) : l1Check e line s = s := by
  unfold l1Check
  split
  · exact if_pos clean
  · rfl

/-- The answer to a snoop changes the line of the L1 and the network, once the line is read. -/
theorem answerSnoop_lineOnly (k : MsgKind) (slice tag : Nat) : LineOnly e line (l1Check e line s) (answerSnoop k e slice tag line s) := by
  unfold answerSnoop
  dsimp only
  split
  · split
    · exact (l1Put_lineOnly _).trans (sendMsg_lineOnly _)
    · split
      · exact l1Remove_lineOnly.trans (sendMsg_lineOnly _)
      · exact l1Remove_lineOnly.trans (sendMsg_lineOnly _)
  · split
    · split
      · exact sendMsg_lineOnly _
      · exact sendMsg_lineOnly _
    · exact sendMsg_lineOnly _

theorem receiveSnoop_openKept (k : MsgKind) (slice tag : Nat) (s : State) : OpenKept s (receiveSnoop k e slice tag line s) := by
  unfold receiveSnoop
  split
  · exact (OpenKept.trans {} (l1Check_openKept e line _)).trans (answerSnoop_lineOnly k slice tag).toOpenKept
  · exact {}

theorem receiveSnoop_lineOnly (clean : storeBad s (2 + e) line = 0) (k : MsgKind) (slice tag : Nat) :
    LineOnly e line s (receiveSnoop k e slice tag line s) := by
  unfold receiveSnoop
  split
  · rename_i m _
    have taken : storeBad (takeMsg m s) (2 + e) line = 0 := clean
    have answered := answerSnoop_lineOnly (e := e) (line := line) (s := takeMsg m s) k slice tag
    rw [l1Check_clean taken] at answered
    exact (takeMsg_lineOnly m).trans answered
  · exact .refl

end

/-- Settles O54: a snoop that has arrived reads the line and then changes that line of its L1 and the network only. -/
theorem snoopsFrame : Obligations.SnoopsFrame := by
  intro e sl g l c s t hc ht
  have received : ∃ k, t = settle (receiveSnoop k e.val sl.val g.val l.toNat s) := by
    simp only [List.mem_cons, List.not_mem_nil, or_false] at hc
    rcases hc with rfl | rfl | rfl
    · exact ⟨.snpShare, (Host.Outcome.next.inj ht).symm⟩
    · exact ⟨.snpInv, (Host.Outcome.next.inj ht).symm⟩
    · exact ⟨.snpDiscard, (Host.Outcome.next.inj ht).symm⟩
  obtain ⟨k, rfl⟩ := received
  obtain ⟨upe, txns, snoops⟩ := receiveSnoop_openKept (e := e.val) (line := l.toNat) k sl.val g.val s
  refine ⟨upe, txns, snoops, fun clean => ?_⟩
  have line := receiveSnoop_lineOnly clean k sl.val g.val
  exact ⟨line.mem, line.regs, line.others, line.wb, line.lines⟩

end Sys2Proof.Machine
end

section
/-! PROOF. The module in its slot and the steps of a start-up (chapters 14 and 15): O30, O31, O32. -/

namespace Sys2Proof.Machine

/-! ## Power (R457 to R462) -/

/-- The straps as sampled stay over the loss of switched power. -/
theorem powerOff_mgtAddr (s : State) : (powerOff s).get idModuleStatMgtAddr = s.get idModuleStatMgtAddr % 8 := by
  have kept : (powerOff s).get idModuleStatMgtAddr = (keptUnpowered s).get idModuleStatMgtAddr := get_congr _ rfl
  rw [kept, keptUnpowered, get_set_ne _ _ (by decide), get_set_self]
  rfl

/-- LAST_TRIP stays over the loss of switched power. -/
theorem powerOff_lastTrip (s : State) : (powerOff s).get idModuleStatLastTrip = s.get idModuleStatLastTrip % 16 := by
  have kept : (powerOff s).get idModuleStatLastTrip = (keptUnpowered s).get idModuleStatLastTrip := get_congr _ rfl
  rw [kept, keptUnpowered, get_set_self]
  rfl

/-- Settles O30: each command by the step of the sequencer that its premise names. -/
theorem modulePowerCompletes : Obligations.ModulePowerCompletes := by
  refine ⟨?insertion, ?removal, ?ramp, ?rail, ?trip, ?low⟩
  case insertion =>
    rintro s _ off rfl
    have idle : ¬ s.mod.seq ≠ 0 := not_not_intro off
    refine ⟨?_, fun untripped => ?_, fun tripped => ?_⟩
    · rw [exec_presenceDebounce, execPresenceDebounce, if_neg idle]
      rfl
    · rw [exec_presenceDebounce, execPresenceDebounce, if_neg idle]
      exact if_neg (show ¬ s.mod.tripped = true from by rw [untripped]; decide)
    · rw [exec_presenceDebounce, execPresenceDebounce, if_neg idle]
      exact if_pos (show s.mod.tripped = true from tripped)
  case removal =>
    intro s
    exact ⟨by rw [exec_presenceLost, execPresenceLost, done_eq], rfl, rfl, rfl, powerOff_lastTrip s, powerOff_mgtAddr s⟩
  case ramp =>
    intro s here
    rw [exec_rampComplete, execRampComplete, if_pos here, done_eq]
  case rail =>
    intro a s
    refine ⟨fun first => ?_, fun low high => ?_⟩
    · rw [exec_railPowerGood, execRailPowerGood, if_neg (by omega), if_pos first, done_eq]
      simp only [State.onMod, set_mod_frame, first]
    · rw [exec_railPowerGood, execRailPowerGood, if_neg (by omega), if_neg (by omega), done_eq]
  case trip =>
    intro c s on
    refine ⟨?_, ?_⟩
    · rw [exec_trip, execTrip, if_neg on, done_eq]
      rfl
    · rw [powerOff_lastTrip, get_set_self]
      have width : idModuleStatLastTrip.width = 4 := rfl
      rw [width]
      omega
  case low =>
    intro v i s low
    rw [exec_vinLow, execVinLow, if_neg (by omega), done_eq]

/-! ## Cooling, the ejector, the reference and a lost signal (R465, R467, R472, R79) -/

/-- What sampling shows of the ejector lever. -/
theorem sample_ejectOpen (s : State) : (sample s).get idModuleStatEjectOpen = b2n s.mod.ejectOpen % 2 := by
  rw [sample, get_set_ne _ _ (by decide), get_set_ne _ _ (by decide), get_set_self]
  rfl

/-- A lever that moves sets its event and EJECT_OPEN and takes no other action. -/
theorem ejector_acts (f : Fld) (bit : f.width ≠ 0) (apart : idModuleStatEjectOpen.key ≠ f.key) (o : Bool) (s : State) :
    ∃ t, done (raise f (sample (s.onMod (fun m => { m with ejectOpen := o })))) = .next t ∧ t.get f = 1 ∧
      t.get idModuleStatEjectOpen = b2n o % 2 ∧ t.mem = s.mem ∧ t.fab = s.fab ∧ t.tick = s.tick ∧ t.flt = s.flt ∧ t.fum = s.fum := by
  refine ⟨_, done_eq _, ?_⟩
  simp only [settle_get_frame, settle_mem_frame, settle_fab_frame, settle_tick_frame, settle_flt_frame, settle_fum_frame]
  refine ⟨raise_self _ _ bit, ?_, raise_mem_frame _ _, raise_fab_frame _ _, raise_tick_frame _ _, raise_flt_frame _ _, raise_fum_frame _ _⟩
  rw [raise_ne _ apart, sample_ejectOpen]
  rfl

/-- Settles O31: each command is its one branch; the lever's by what sampling shows. -/
theorem moduleEventsComplete : Obligations.ModuleEventsComplete := by
  refine ⟨fun s => ?coolLoss, fun s => ?lift, fun s => ?leak, fun s => ?opened, fun s => ?closed, fun s => ?relock, fun p s up => ?signal⟩
  case coolLoss => rw [exec_coolLoss, execCoolLoss, done_eq]
  case lift => rw [exec_coolLimitLift, execCoolLimitLift, done_eq]
  case leak => rw [exec_leak, execLeak, done_eq]
  case opened => exact ejector_acts idModuleEvtEjectOpened (by decide) (by decide) true s
  case closed => exact ejector_acts idModuleEvtEjectClosed (by decide) (by decide) false s
  case relock => rw [exec_referenceRelock, execReferenceRelock, done_eq]
  case signal =>
    have live : ¬ (s.get (elvStatState p.val) ≠ 7 ∧ s.get (elvStatState p.val) ≠ 8 ∧ s.get (elvStatState p.val) ≠ 9) := fun h => h.1 up
    refine ⟨?_, ?_⟩
    · rw [exec_lossOfSignal, execLossOfSignal, lossOfSignal, if_neg live, if_pos rfl, done_eq]
    · rw [exec_lossOfSignal, execLossOfSignal, lossOfSignal, if_neg live, if_neg (by decide), done_eq]

/-! ## The steps of a start-up (R490 to R497, R549) -/

section
variable {s : State}

/-- The verification of a slot that the flash answers: the slot passes, or its reason is recorded. -/
theorem imageSlotVerify_answers {k : Nat} (phase : s.get idBootStatPhase = 2) (empty : s.boot.slot = none) (next : nextSlot s = some k) :
    execImageSlotVerify true s = done (if (slotReason s k).1 = 0
      then s.onBoot (fun b => { b with slot := some k, ready := 0, narup := loadCores s k })
      else slotFails k (slotReason s k).1 (slotReason s k).2 s) := by
  rw [execImageSlotVerify, if_neg (by simp [phase, empty])]
  simp only [next, Bool.not_true, Bool.false_eq_true, if_false]
  rcases slotReason s k with ⟨_ | r, i⟩
  · rfl
  · rfl

end

/-- Settles O32: the guards of each command leave one branch of its meaning. -/
theorem startCompletes : Obligations.StartCompletes := by
  refine ⟨?release, ?verify, ?ready, ?silent, ?memory, ?zeroed, ?domain, ?plan, ?late⟩
  case release =>
    rintro s _ held rails rfl
    rw [exec_dieResetRelease, execDieResetRelease, if_neg (by simp [held, rails]), done_eq]
  case verify =>
    intro s k phase empty next
    refine ⟨?_, ?_⟩
    · rw [exec_imageSlotVerify, execImageSlotVerify, if_neg (by simp [phase, empty])]
      simp only [next, Bool.not_false, if_true, done_eq]
    · rw [exec_imageSlotVerify, imageSlotVerify_answers phase empty next, done_eq]
  case ready =>
    rintro c s _ k slot phase rfl
    rw [exec_coreReady, execCoreReady, slot]
    simp only [ne_eq, phase, not_true_eq_false, if_false]
    rw [← done_ite, done_eq]
  case silent =>
    rintro c s k _ slot phase waits rfl
    rw [exec_coreReadyTimeout, execCoreReadyTimeout, slot]
    simp only [ne_eq, phase, waits, not_true_eq_false, Bool.false_eq_true, or_self, if_false, done_eq]
  case memory =>
    rintro pc ch ln rf s _ _ phase unready rfl rfl
    rw [exec_memoryReady, execMemoryReady, if_neg (by simp [phase, unready]), done_eq]
    simp only [ne_eq, List.isEmpty_iff]
  case zeroed =>
    rintro c s _ open_ rfl
    rw [exec_channelZeroed, execChannelZeroed, if_neg (by simp [open_]), done_eq]
    simp only [List.isEmpty_iff]
  case domain =>
    rintro s _ rank unheard unlocked valid phase rfl
    rw [exec_domainStart, execDomainStart, if_neg (by simp [unheard, unlocked, valid]; omega), done_eq]
  case plan =>
    rintro s _ phase ready locked cores rfl
    rw [exec_readyForPlan, execReadyForPlan, if_neg (by simp [phase, ready, locked, cores]), done_eq]
  case late =>
    intro s running started first
    rw [exec_bootLate, execBootLate, if_neg (by simp [running, started, first]), done_eq]

end Sys2Proof.Machine
end

section
/-! PROOF. The resets (chapter 17): which writes of RST_CTL start one, and how a reset ends: O34, O49. -/

namespace Sys2Proof.Machine

/-! ## A write of RST_CTL (R538) -/

section
variable {s : State} (source late ns : Nat) (cacheLate : Bool)

/-- The bits of a write of RST_CTL: the key above, the action below. -/
theorem rstBits (k a : Nat) (hk : k < 2 ^ 16) (ha : a < 8) : bits (k * 65536 + a) 16 16 = k ∧ bits (k * 65536 + a) 0 3 = a := by
  unfold bits
  omega

/-- Outside the window and P2 a write without the key is refused. -/
theorem rstWrite_of_wrongKey {v : Nat} (may : s.flag idBootStatWindow = false ∧ s.get fumStatusState ≠ 3) (key : bits v 16 16 ≠ 0x5253) :
    rstWrite v source late cacheLate ns s = raise rstEvtRefused s := by
  rw [rstWrite, if_neg (by simp [may.1, may.2]), if_pos key]

section
variable {s : State} (source late ns : Nat) (cacheLate : Bool) {v : Nat}
    (may : s.flag idBootStatWindow = false ∧ s.get fumStatusState ≠ 3) (key : bits v 16 16 = 0x5253)
include may key

theorem rstWrite_module (action : bits v 0 3 = 1) :
    rstWrite v source late cacheLate ns s = moduleReset source late cacheLate s := by
  rw [rstWrite, if_neg (by simp [may.1, may.2]), if_neg (not_not_intro key), action]
  rfl

theorem rstWrite_compute (action : bits v 0 3 = 2) :
    rstWrite v source late cacheLate ns s = lowReset 4 source late ns s := by
  rw [rstWrite, if_neg (by simp [may.1, may.2]), if_neg (not_not_intro key), action]
  rfl

theorem rstWrite_plan (action : bits v 0 3 = 4) :
    rstWrite v source late cacheLate ns s = lowReset 5 source late ns s := by
  rw [rstWrite, if_neg (by simp [may.1, may.2]), if_neg (not_not_intro key), action]
  rfl

end

/-- A write of RST_CTL without the key, or with other than one action, is refused. -/
theorem rstWrite_refused {v : Nat} (may : s.flag idBootStatWindow = false ∧ s.get fumStatusState ≠ 3)
    (bad : bits v 16 16 ≠ 0x5253 ∨ bits v 0 3 ∉ [1, 2, 4]) : rstWrite v source late cacheLate ns s = raise rstEvtRefused s := by
  by_cases key : bits v 16 16 = 0x5253
  · have action : bits v 0 3 ∉ [1, 2, 4] := bad.resolve_left (not_not_intro key)
    rw [rstWrite, if_neg (by simp [may.1, may.2]), if_neg (not_not_intro key)]
    split
    · rename_i h; rw [h] at action; exact absurd action (by decide)
    · rename_i h; rw [h] at action; exact absurd action (by decide)
    · rename_i h; rw [h] at action; exact absurd action (by decide)
    · rfl
  · exact rstWrite_of_wrongKey source late ns cacheLate may key

end

/-- A reset that ends is done and halts nothing. -/
theorem endReset_reports (s : State) : (endReset s).get rstEvtDone = 1 ∧ (endReset s).get rstStatusHalting = 0 := by
  unfold endReset
  dsimp only
  refine ⟨raise_self _ _ (by decide), ?_⟩
  rw [raise_ne _ (by decide)]
  split
  · rw [onRst_get_frame, raise_ne _ (by decide), get_set_self, Nat.zero_mod]
  · rw [onRst_get_frame, get_set_self, Nat.zero_mod]

/-- Settles O34: a write by its key and action, a wait by the guard that its premise meets. -/
theorem resetsComplete : Obligations.ResetsComplete := by
  have right (a : Nat) (ha : a < 8) : bits ((0x5253 : BitVec 16).toNat * 65536 + a) 16 16 = 0x5253 := (rstBits 0x5253 a (by decide) ha).1
  have wrong {k : BitVec 16} (h : k ≠ 0x5253) {a : Nat} (ha : a < 8) : bits (k.toNat * 65536 + a) 16 16 ≠ 0x5253 := by
    rw [(rstBits k.toNat a k.isLt ha).1]
    exact fun e => h (BitVec.eq_of_toNat_eq e)
  refine ⟨?module, ?compute, ?plan, ?halted, ?forced, ?perst⟩
  case module =>
    intro k f l c s allowed window power
    refine ⟨?_, fun key => ?_⟩
    · rw [exec_moduleReset, execModuleReset, if_pos allowed, rstWrite_module _ _ _ _ ⟨window, power⟩ (right _ (by decide)) rfl, done_eq]
    · rw [exec_moduleReset, execModuleReset, if_pos allowed, rstWrite_of_wrongKey _ _ _ _ ⟨window, power⟩ (wrong key (by decide)), done_eq]
  case compute =>
    intro k f l ns s allowed window power
    refine ⟨?_, fun key => ?_⟩
    · rw [exec_computeReset, execComputeReset, if_pos allowed, rstWrite_compute _ _ _ _ ⟨window, power⟩ (right _ (by decide)) rfl, done_eq]
    · rw [exec_computeReset, execComputeReset, if_pos allowed, rstWrite_of_wrongKey _ _ _ _ ⟨window, power⟩ (wrong key (by decide)), done_eq]
  case plan =>
    intro k f s allowed window power
    refine ⟨?_, fun key => ?_⟩
    · rw [exec_planReset, execPlanReset, if_pos allowed, rstWrite_plan _ _ _ _ ⟨window, power⟩ (right _ (by decide)) rfl, done_eq]
    · rw [exec_planReset, execPlanReset, if_pos allowed, rstWrite_of_wrongKey _ _ _ _ ⟨window, power⟩ (wrong key (by decide)), done_eq]
  case halted =>
    intro n s kind still
    refine ⟨?_, endReset_reports _⟩
    rw [exec_planResetHalted, execPlanResetHalted, if_neg (by simp [kind, still]), done_eq]
  case forced =>
    rintro n s _ rfl released
    have going : ¬ (s.reach n).rst.held = true := by rw [released]; decide
    refine ⟨fun kind => ?_, fun kind late => ?_⟩
    · rw [exec_resetForced, execResetForced, if_neg going, if_pos kind, done_eq]
    · have low : ¬ (s.reach n).rst.kind = 2 := by omega
      rw [exec_resetForced, execResetForced, if_neg going, if_neg low, if_pos ⟨kind, late⟩, done_eq]
  case perst =>
    intro v n l c s
    refine ⟨fun untripped on => ?_, fun tripped due => ?_⟩
    · rw [exec_perst, execPerst, if_neg (by rw [untripped]; decide), if_neg (not_not_intro on), done_eq]
    · rw [exec_perst, execPerst, if_pos tripped, if_pos ⟨rfl, due⟩, done_eq]

/-! ## A host write of RST_CTL -/

/-- A host write of RST_CTL stores nothing and is the register's own effect; the reset's duration is a free value. -/
theorem rstCtl_write {v : Nat} (hv : v < 2 ^ 32) (s : State) :
    wordWrite 3 0x1900000 v s = rstWrite v 3 0 false s.takeFree.1 s.takeFree.2 := by
  have window : windowOf 0x1900000 = none := by decide
  have presented : mergeReg rstCtlReg 0 4 v s = v := mergeReg_of_no_rw (by decide) hv s
  have whole : wordWrite 3 0x1900000 v s = regStore 3 rstCtlReg 0 4 v s := by rw [wordWrite, window]; rfl
  rw [whole, regStore, presented]
  rfl

/-- Settles O49: the write that is refused raises REFUSED, and takes only a free value besides. -/
theorem resetNeedsKey : Obligations.ResetNeedsKey := by
  intro s v reach opened held hv bad
  have may : s.takeFree.2.flag idBootStatWindow = false ∧ s.takeFree.2.get fumStatusState ≠ 3 := by
    have h : (!s.flag idBootStatWindow && s.get fumStatusState != 3) = true := opened
    simpa using h
  refine ⟨_, (exec_registerWrite_word reach held hv (by decide) rfl opened).trans (done_eq _), ?_⟩
  rw [rstCtl_write hv, rstWrite_refused _ _ _ _ may bad]
  simp only [settle_get_frame, settle_rst_frame, settle_mem_frame, settle_tick_frame, settle_upe_frame]
  exact ⟨raise_self _ _ (by decide), fun f hf => raise_ne _ hf, raise_rst_frame _ _, raise_mem_frame _ _, raise_tick_frame _ _,
    raise_upe_frame _ _⟩

end Sys2Proof.Machine
end

section
/-! PROOF. The flash and fuse mailbox and the management port (R600 to R602, R607 to R610): O35, O36. -/

namespace Sys2Proof.Machine

/-! ## The mailbox (R600 to R602) -/

section
variable {s : State} {op key : Nat}

/-- Outside reset a command of the mailbox is its GO. -/
theorem mboxCommand_answers (up : idAnswers s = true) : mboxCommand op key s = .next (settle (mboxGo op key s)) := if_pos up

/-- A GO that a check refuses sets REFUSED and its REASON. -/
theorem mboxCommand_refused (up : idAnswers s = true) (known : ¬ (op = 0 ∨ 4 < op)) {u : State} (hu : u = s.set idFlashCtlOp op) {r : Nat}
    (why : mboxReason u op key = r + 1) :
    mboxCommand op key s = .next (settle (raise idFlashStatRefused (u.set idFlashStatReason (r + 1)))) := by
  subst hu
  rw [mboxCommand_answers up]
  unfold mboxGo
  dsimp only
  rw [if_neg known, why, if_pos (Nat.succ_ne_zero r)]

/-- The record of a running operation: what it acts on, and the REASON it will report. -/
def mboxRuns (op a n : Nat) (x : Nat × State) : State := (x.2.set idFlashStatBusy 1).onHost (fun h => { h with mbox := some (op, a, n, x.1) })

/-- A GO that every check passes acts on the flash where ID_FLASH_ADDR and ID_FLASH_LEN say. -/
theorem mboxGo_flash (known : ¬ (op = 0 ∨ 4 < op)) (flash : op ≠ 4) {u : State} (hu : u = s.set idFlashCtlOp op)
    (good : mboxReason u op key = 0) :
    mboxGo op key s = mboxRuns op (u.get idFlashAddrOffset) (mboxLen u op) (mboxDo op (u.get idFlashAddrOffset) (mboxLen u op) u) := by
  subst hu
  unfold mboxGo
  dsimp only
  rw [if_neg known, if_neg (not_not_intro good), if_neg flash, if_neg flash]
  rfl

/-- A GO that every check passes acts on the fuses as ID_FUSE_ARG says. -/
theorem mboxGo_fuse {u : State} (hu : u = s.set idFlashCtlOp 4) (good : mboxReason u 4 key = 0) :
    mboxGo 4 key s =
      mboxRuns 4 (u.get idFuseArgFuseOp + 4 * u.get idFuseArgSlot + 16 * u.get idFuseArgSvn) u.boot.svn
        (mboxDo 4 (u.get idFuseArgFuseOp + 4 * u.get idFuseArgSlot + 16 * u.get idFuseArgSvn) u.boot.svn u) := by
  subst hu
  unfold mboxGo
  dsimp only
  rw [if_neg (by decide), if_neg (not_not_intro good), if_pos rfl, if_pos rfl]
  rfl

end

/-- Settles O35: an operation by its checks and what it then does, an end by its REASON. -/
theorem mailboxCompletes : Obligations.MailboxCompletes := by
  have fuseOp {s : State} (v : Nat) : (s.set idFlashCtlOp v).get idFuseArgFuseOp = s.get idFuseArgFuseOp := get_set_ne s v (by decide)
  refine ⟨?read, ?program, ?erase, ?keyHash, ?revoke, ?svn, ?ends⟩
  case read =>
    rintro s u up hu
    refine ⟨fun good => ?_, fun r why => ?_⟩
    · rw [exec_flashRead, execFlashRead, mboxCommand_answers up, mboxGo_flash (by decide) (by decide) hu good]
      rfl
    · rw [exec_flashRead, execFlashRead, mboxCommand_refused up (by decide) hu why]
  case program =>
    rintro k s u up hu
    refine ⟨fun good => ?_, fun r why => ?_⟩
    · rw [exec_flashProgram, execFlashProgram, mboxCommand_answers up, mboxGo_flash (by decide) (by decide) hu good]
      rfl
    · rw [exec_flashProgram, execFlashProgram, mboxCommand_refused up (by decide) hu why]
  case erase =>
    rintro k s u up hu
    refine ⟨fun good => ?_, fun r why => ?_⟩
    · rw [exec_flashErase, execFlashErase, mboxCommand_answers up, mboxGo_flash (by decide) (by decide) hu good]
      rfl
    · rw [exec_flashErase, execFlashErase, mboxCommand_refused up (by decide) hu why]
  case keyHash =>
    rintro k s u up this hu
    have here : u.get idFuseArgFuseOp = 0 := by rw [hu, fuseOp, this]
    refine ⟨fun good => ?_, fun r why => ?_⟩
    · rw [exec_fuseKeyHash, execFuseKeyHash, if_pos this, mboxCommand_answers up, mboxGo_fuse hu good]
      simp only [mboxDo, here]
      rfl
    · rw [exec_fuseKeyHash, execFuseKeyHash, if_pos this, mboxCommand_refused up (by decide) hu why]
  case revoke =>
    rintro k s u up this hu
    have here : u.get idFuseArgFuseOp = 1 := by rw [hu, fuseOp, this]
    refine ⟨fun good => ?_, fun r why => ?_⟩
    · rw [exec_fuseRevoke, execFuseRevoke, if_pos this, mboxCommand_answers up, mboxGo_fuse hu good]
      simp only [mboxDo, here]
      rfl
    · rw [exec_fuseRevoke, execFuseRevoke, if_pos this, mboxCommand_refused up (by decide) hu why]
  case svn =>
    rintro k s u up this hu
    have here : u.get idFuseArgFuseOp = 2 := by rw [hu, fuseOp, this]
    refine ⟨fun good => ?_, fun r why => ?_⟩
    · rw [exec_fuseSvn, execFuseSvn, if_pos this, mboxCommand_answers up, mboxGo_fuse hu good]
      simp only [mboxDo, here]
      rfl
    · rw [exec_fuseSvn, execFuseSvn, if_pos this, mboxCommand_refused up (by decide) hu why]
  case ends =>
    rintro op a n r s _ _ runs rfl rfl
    refine ⟨fun flash => ?_, fun fuse => ?_⟩
    · simp only [exec_flashOpDone, execFlashOpDone, runs, if_neg flash, done_eq]
    · simp only [exec_flashOpDone, execFlashOpDone, runs, if_pos fuse, done_eq]

/-! ## The management port (R607 to R610) -/

section
variable {s : State} {f : State → Nat × List Byte × State}

/-- Outside reset a block read whose PEC matches has its effect and answers. -/
theorem mgmtCommand_read (up : idAnswers s = true) :
    mgmtCommand true true f s = .next (settle (mgmtAnswer (f s).1 (f s).2.1 (f s).2.2)) := by
  have down : ¬ (!idAnswers s) = true := by rw [up]; decide
  rw [mgmtCommand, if_neg down, if_neg (by decide)]
  rfl

/-- Outside reset a block write whose PEC matches has its effect and answers nothing. -/
theorem mgmtCommand_write (up : idAnswers s = true) : mgmtCommand true false f s = .next (settle (f s).2.2) := by
  have down : ¬ (!idAnswers s) = true := by rw [up]; decide
  rw [mgmtCommand, if_neg down, if_neg (by decide)]
  rfl

/-- While no write has been dropped for its PEC, the answer is the command's own. -/
theorem mgmtAnswer_ok (clean : s.host.pecErr = false) (status : Nat) (bs : List Byte) :
    mgmtAnswer status bs s = s.emit (.mgmt status bs) := if_neg (by rw [clean]; decide)

end

/-- Settles O36: each command's checks leave the branch that serves it, and the PEC that matches answers. -/
theorem managementPortCompletes : Obligations.ManagementPortCompletes := by
  refine ⟨?identity, ?status, ?regRead, ?regWrite, ?telemetry, ?fault, ?flashBuf, ?flashCmd, ?reset, ?locate, ?alertRead, ?alertMask, ?response⟩
  case identity =>
    intro s up clean
    rw [exec_identity, execIdentity, mgmtCommand_read up, mgmtAnswer_ok clean]
  case status =>
    rintro s _ up rfl
    rw [exec_status, execStatus, mgmtCommand_read up]
  case regRead =>
    rintro off w s _ up form open_ rfl
    rw [exec_regRead, execRegRead, mgmtCommand_read up]
    simp only [form, open_, Bool.not_true, Bool.false_eq_true, if_false]
  case regWrite =>
    rintro off w v s _ up form open_ rfl
    refine ⟨?_, ?_⟩
    · rw [exec_regWrite, execRegWrite, mgmtCommand_write up]
      simp only [form, open_, Bool.not_true, Bool.false_eq_true, if_false]
    · rw [exec_regWrite, execRegWrite, mgmtCommand_read up]
      simp only [form, open_, Bool.not_true, Bool.false_eq_true, if_false]
  case telemetry =>
    intro k s up clean outside chunk
    rw [exec_mgtTelemetry, execMgtTelemetry, mgmtCommand_read up]
    simp only [outside, Bool.false_eq_true, if_false, if_neg (Nat.not_lt.mpr (Nat.le_of_lt_succ chunk)), mgmtAnswer_ok clean]
  case fault =>
    intro r h s up clean slot half
    have listed : ¬ (15 < r.toNat ∨ 1 < h.toNat) := by omega
    rw [exec_fault, execFault, mgmtCommand_read up]
    simp only [if_neg listed, mgmtAnswer_ok clean]
  case flashBuf =>
    rintro off d s _ up clean aligned inside whole rfl
    have served : ¬ (off.toNat % 16 ≠ 0 ∨ 4096 ≤ off.toNat ∨ (d ≠ [] ∧ d.length ≠ 16)) := by
      rintro (h | h | ⟨full, length⟩)
      · exact h aligned
      · omega
      · exact whole.elim full length
    have kept : (flashBufWrite off.toNat d s).host.pecErr = false := clean
    refine ⟨?_, ?_⟩
    · rw [exec_flashBuf, execFlashBuf, mgmtCommand_read up]
      simp only [if_neg served, mgmtAnswer_ok kept]
    · rw [exec_flashBuf, execFlashBuf, mgmtCommand_write up]
      simp only [if_neg served]
  case flashCmd =>
    rintro c a n f s _ up idle rfl
    rw [exec_flashCmd, execFlashCmd, mgmtCommand_read up]
    simp only [idle, Option.isSome_none, Bool.false_eq_true, if_false]
  case reset =>
    intro r l c s up
    have silent : (r && decide ((0x5253 : BitVec 16).toNat ≠ 0x5253)) = false := by cases r <;> rfl
    rw [exec_reset, execReset, silent, mgmtCommand_write up]
    rfl
  case locate =>
    intro v s up clean bit
    have served : ¬ 1 < v.toNat := by omega
    refine ⟨?_, ?_⟩
    · rw [exec_locate, execLocate, mgmtCommand_read up]
      simp only [if_neg served, mgmtAnswer_ok (show (s.set idLedCtlLocate v.toNat).host.pecErr = false from clean)]
    · rw [exec_locate, execLocate, mgmtCommand_write up]
      simp only [if_neg served]
  case alertRead =>
    intro s up clean
    rw [exec_alert, execAlert, mgmtCommand_read up]
    simp only [clean, Bool.not_false, and_self, if_true]
    rw [mgmtAnswer_ok (show (s.onHost (fun h => { h with alerts := 0, alertLow := false })).host.pecErr = false from clean)]
  case alertMask =>
    intro m s up
    rw [exec_alert, execAlert, mgmtCommand_write up]
    simp only [Bool.false_eq_true, false_and, if_false]
  case response =>
    intro s up low
    rw [exec_alertResponse, execAlertResponse, if_neg (by simp [up, low]), done_eq]

end Sys2Proof.Machine
end

section
/-! PROOF. The host port: its link, its power states, and each event of it (R501, R583 to R604): O38, O55. -/

namespace Sys2Proof.Machine

/-! ## The loss of the link (R603) -/

section
variable (s : State)

/-- An event raised changes of the host's state the pending messages only. -/
theorem raise_host (f : Fld) : (raise f s).host = { s.host with msixPend := (raise f s).host.msixPend } := by
  unfold raise
  dsimp only
  split
  · rfl
  · split
    · rcases sendVector_cases (s.set f 1) (vectorOf f.reg) with h | ⟨_, h⟩ | h <;> rw [h] <;> rfl
    · rfl

/-- The queues of a lost link: every ENABLE clear and nothing in any queue. -/
theorem queuesLost_parts : ∃ r : State, queuesLost s =
    { s with regs := r.regs, host := { s.host with queues := [], reads := [], serial := [] } } := by
  obtain ⟨r, h⟩ := each_keeps (fun t => ∃ r : State, t = { s with regs := r.regs }) (fun q t => t.set (hstQCfgEnable q) 0)
    (fun q t ⟨r, h⟩ => ⟨t.set (hstQCfgEnable q) 0, by rw [h]; rfl⟩) (List.range 16) s ⟨s, rfl⟩
  exact ⟨r, by rw [queuesLost, h]; rfl⟩

/-- A field that is not an ENABLE of a queue stays. -/
theorem queuesLost_get {g : Fld} (h : ∀ q < 16, g.key ≠ (hstQCfgEnable q).key) : (queuesLost s).get g = s.get g := by
  rw [queuesLost, onHost_get_frame]
  exact each_keeps_of_mem (P := fun t => t.get g = s.get g)
    (fun q hq t ht => (get_set_ne t _ (h q (List.mem_range.mp hq))).trans ht) rfl

/-- The registers that the loss of the link writes lie in the status, the events and the queues of the host block. -/
theorem linkLost_get {g : Fld} (h : g.key < 8 * 0x1a00000 ∨ 8 * 0x1a00500 ≤ g.key) : (linkLost s).get g = s.get g := by
  have status : ∀ f ∈ [hstStatusUp, hstStatusSpeed, hstStatusWidth, hstEvtLinkDown], g.key ≠ f.key := by
    have inside : ∀ f ∈ [hstStatusUp, hstStatusSpeed, hstStatusWidth, hstEvtLinkDown],
        8 * 0x1a00000 ≤ f.key ∧ f.key < 8 * 0x1a00500 := by decide
    intro f hf e
    have := inside f hf
    omega
  have enable : ∀ q < 16, g.key ≠ (hstQCfgEnable q).key := by
    intro q hq
    simp only [Fld.key, hstQCfgEnable] at h ⊢
    omega
  rw [linkLost, raise_ne _ (status _ (by simp)), queuesLost_get _ enable, get_set_ne _ _ (status _ (by simp)),
    get_set_ne _ _ (status _ (by simp)), get_set_ne _ _ (status _ (by simp))]

/-- The loss of the link changes registers, messages and the host's state only. -/
theorem linkLost_parts : ∃ r : State, linkLost s = { s with regs := r.regs, sent := r.sent, host := r.host } := by
  obtain ⟨q, hq⟩ := queuesLost_parts (((s.set hstStatusUp 0).set hstStatusSpeed 0).set hstStatusWidth 0)
  obtain ⟨r, hr⟩ := raise_parts (queuesLost (((s.set hstStatusUp 0).set hstStatusSpeed 0).set hstStatusWidth 0)) hstEvtLinkDown
  exact ⟨r, by rw [linkLost, hr, hq]; rfl⟩

/-- The loss of the link leaves no queue and no read. -/
theorem linkLost_host : (linkLost s).host.queues = [] ∧ (linkLost s).host.reads = [] := by
  obtain ⟨q, hq⟩ := queuesLost_parts (((s.set hstStatusUp 0).set hstStatusSpeed 0).set hstStatusWidth 0)
  rw [linkLost, raise_host, hq]
  exact ⟨rfl, rfl⟩

/-- A lost link is down, and reported. -/
theorem linkLost_reports : (linkLost s).get hstEvtLinkDown = 1 ∧ (linkLost s).get hstStatusUp = 0 := by
  have enable : ∀ q < 16, hstStatusUp.key ≠ (hstQCfgEnable q).key := by
    intro q _
    simp only [Fld.key, hstQCfgEnable, hstStatusUp]
    omega
  refine ⟨raise_self _ _ (by decide), ?_⟩
  rw [linkLost, raise_ne _ (by decide), queuesLost_get _ enable, get_set_ne _ _ (by decide), get_set_ne _ _ (by decide), get_set_self,
    Nat.zero_mod]

end

/-- Settles O55: D3hot writes the host's state, the loss of the link that and registers of the host block. -/
theorem hostLinkFrame : Obligations.HostLinkFrame := by
  intro s t
  refine ⟨fun h => ?d3, fun h => ?down⟩
  case d3 =>
    have settled : t = settle (powerState true s) ∨ t = settle s := by
      rw [exec_d3hot, execD3hot] at h
      split at h
      · exact .inl (Host.Outcome.next.inj h).symm
      · exact .inr (Host.Outcome.next.inj h).symm
    have entered : powerState true s = s.onHost (fun x => { x with d3 := true }) := if_neg (by simp)
    rw [entered] at settled
    rcases settled with rfl | rfl <;> exact ⟨rfl, rfl, rfl, rfl, rfl, rfl, rfl, rfl⟩
  case down =>
    rw [exec_linkDown, execLinkDown] at h
    split at h
    · obtain ⟨r, hr⟩ := linkLost_parts s
      have kept := fun f hf => linkLost_get s (g := f) hf
      rw [← Host.Outcome.next.inj h]
      rw [hr] at kept ⊢
      exact ⟨rfl, rfl, rfl, rfl, rfl, rfl, rfl, kept⟩
    · rw [← Host.Outcome.next.inj h]
      exact ⟨rfl, rfl, rfl, rfl, rfl, rfl, rfl, fun _ _ => rfl⟩

/-! ## A hot reset (R604) -/

/-- A key that a filter drops reads the default. -/
theorem Tab.get_filter_drop {α : Type} (d : α) (t : Tab α) {p : Nat × α → Bool} {k : Nat} (h : ∀ v, p (k, v) = false) :
    Tab.get d (t.filter p) k = d := by
  induction t with
  | nil => rfl
  | cons x r ih =>
    rw [List.filter_cons]
    split
    · rename_i kept
      have other : x.1 ≠ k := fun e => by
        rw [← e] at h
        rw [h x.2] at kept
        exact absurd kept (by decide)
      rw [Tab.get, if_neg other, ih]
    · exact ih

/-- The HST registers of a host block that is fresh are at reset. -/
theorem hostFresh_get (s : State) {f : Fld} (low : 0x1a00000 ≤ f.reg) (high : f.reg + 8 ≤ 0x1b00000) (lsb : f.lsb < 64) :
    (hostFresh s).get f = f.reset := by
  rw [hostFresh, onHost_get_frame]
  refine Tab.get_filter_drop _ _ (fun v => ?_)
  have inside : 0x1a00000 * 8 ≤ f.key ∧ f.key < 0x1b00000 * 8 := by simp only [Fld.key]; omega
  simp [inside.1, inside.2]

/-! ## Each event of the host port -/

/-- A driver's write of a queue register. -/
theorem queueReg_reaches {s : State} (reach : barReach s = true) (q o v : Nat) :
    queueReg q o v s = .next (settle (barWrite 3 (0x1a00100 + 0x40 * q + o) (leBytes 4 v) s)) := if_pos reach

/-- Settles O38: each event by the guards that its premises meet; the accesses of host memory whole. -/
theorem hostPortCompletes : Obligations.HostPortCompletes := by
  refine ⟨fun q v s reach => ?cfg, fun q v s reach => ?doorbell, fun q v s reach => ?head, fun t d s r out => ?read, fun t s r out => ?timeout,
    fun off n d s t reach opened => ?write, fun off n d p s t x reach opened hx ht k => ?memRead, fun i v s => ?config, fun s up => ?d3,
    fun k w s on => ?linkUp, fun s live => ?linkDown, fun s up => ?hot⟩
  case cfg => rw [exec_queueEnable, execQueueEnable, queueReg_reaches reach]
  case doorbell => rw [exec_sqDoorbell, execSqDoorbell, queueReg_reaches reach]
  case head => rw [exec_cqHeadWrite, execCqHeadWrite, queueReg_reaches reach]
  case read =>
    refine ⟨?_, fun k failed => ?_⟩
    · simp only [exec_hostReadCompletion, execHostReadCompletion, out, if_true, done_eq]
    · simp only [exec_hostReadCompletion, execHostReadCompletion, out, if_neg failed, done_eq]
  case timeout => simp only [exec_hostReadTimeout, execHostReadTimeout, out, done_eq]
  case write =>
    refine ⟨?_, ?_⟩
    · rintro rfl k
      rw [exec_hostMemoryRequest, execHostMemoryRequest]
      refine whole_served ?_ k
      simp only [reach, opened, Bool.not_true, Bool.false_eq_true, if_false, if_true, done_eq]
    · rw [exec_hostMemoryRequest, execHostMemoryRequest]
      refine whole_served ?_ rfl
      simp only [reach, opened, Bool.not_true, Bool.false_eq_true, if_false, if_true, done_eq]
  case memRead =>
    subst hx ht
    rw [exec_hostMemoryRequest, execHostMemoryRequest]
    refine whole_served ?_ k
    simp only [reach, opened, Bool.not_true, Bool.false_eq_true, if_false, done_eq]
  case config =>
    refine ⟨fun down w => ?_, fun up => ⟨?_, ?_⟩⟩
    · simp only [exec_configRequest, execConfigRequest, down, Bool.not_false, if_true, done_eq]
    · simp only [exec_configRequest, execConfigRequest, up, Bool.not_true, Bool.false_eq_true, if_false, if_true, done_eq]
    · simp only [exec_configRequest, execConfigRequest, up, Bool.not_true, Bool.false_eq_true, if_false, done_eq]
  case d3 =>
    have entered : powerState true s = s.onHost (fun x => { x with d3 := true }) := if_neg (by simp)
    rw [exec_d3hot, execD3hot, if_pos up, entered]
    exact ⟨_, done_eq _, rfl, rfl, rfl, rfl, rfl, rfl⟩
  case linkUp => rw [exec_hostLinkUp, execHostLinkUp, if_neg (by omega), done_eq]
  case linkDown =>
    rw [exec_linkDown, execLinkDown, if_pos live]
    refine ⟨_, done_eq _, ?_⟩
    obtain ⟨event, down⟩ := linkLost_reports s
    obtain ⟨queues, reads⟩ := linkLost_host s
    obtain ⟨r, hr⟩ := linkLost_parts s
    simp only [settle_get_frame, settle_host_frame, settle_mem_frame, settle_fab_frame, settle_str_frame, settle_upe_frame]
    refine ⟨event, down, queues, reads, ?_⟩
    rw [hr]
    exact ⟨rfl, rfl, rfl, rfl⟩
  case hot =>
    refine ⟨?_, rfl, rfl, fun f low high lsb => hostFresh_get s low high lsb⟩
    rw [exec_hotReset, execHotReset, if_pos up, done_eq]

end Sys2Proof.Machine
end

section
/-! PROOF. The commands of the host queues (R593 to R596): O37. -/

namespace Sys2Proof.Machine

section
variable {q op : Nat} {c : List Byte} {s : State}

/-- The running command of a queue, well formed and with its host data arrived, is performed. -/
theorem command_performs (f : List Byte → State → State) (running : runs q op s = some c) (form : cmdBad c = 0)
    (good : (s.queue q).err = 0) (arrived : (s.queue q).need = 0) : command q op f s = .next (settle (f c s)) := by
  simp only [command, running, form, good, arrived, ne_eq, not_true_eq_false, if_false, done_eq]

end

/-- Settles O37: `command` performs the running command, and the premises of each opcode leave one branch of what it does. -/
theorem hostQueuesComplete : Obligations.HostQueuesComplete := by
  refine ⟨?nop, ?plan, ?route, ?rule, ?copyIn, ?copyOut, ?arm, ?disarm, ?detach, ?fenceIssued, ?fenceOver, ?writeReg, ?readReg⟩
  case nop =>
    intro q c s running form good arrived
    rw [exec_queueNop, execQueueNop, command_performs _ running form good arrived]
  case plan =>
    intro q c s running form good arrived length
    rw [exec_planLoad, execPlanLoad, command_performs _ running form good arrived]
    simp only [length, ne_eq, not_true_eq_false, if_false]
  case route =>
    intro q c s running form good arrived
    rw [exec_routeLoad, execRouteLoad, command_performs _ running form good arrived]
  case rule =>
    intro q c s running form good arrived free
    have unheld : (maskEngines (cmdArg0 c)).any (fun e =>
        (List.range (cmdLen c / 4)).any (fun i => ruleHeld s e (bits (cmdArg1 c) 0 10 + i))) = false := by
      simp only [List.any_eq_false, Bool.not_eq_true]
      exact fun e he i hi => free e he i (List.mem_range.mp hi)
    rw [exec_ruleLoad, execRuleLoad, command_performs _ running form good arrived]
    simp only [unheld, Bool.false_eq_true, if_false]
  case copyIn =>
    rintro q c s _ _ running form good arrived rfl rfl k
    rw [exec_copyIn, execCopyIn]
    refine whole_served ?_ k
    simp only [running, form, good, arrived, ne_eq, not_true_eq_false, if_false, if_true]
    exact (apply_ite (fun t => Host.Outcome.next (settle t)) _ _ _).symm
  case copyOut =>
    rintro q c s _ _ running form good arrived reach rfl rfl k
    rw [exec_copyOut, execCopyOut]
    refine whole_served ?_ k
    rw [command_performs _ running form good arrived]
    simp only [reach, Bool.not_true, Bool.false_eq_true, if_false]
  case arm =>
    rintro q c s _ _ running form good arrived rfl rfl
    rw [exec_queueArm, execQueueArm, command_performs _ running form good arrived]
  case disarm =>
    intro q c s running form good arrived
    rw [exec_queueDisarm, execQueueDisarm, command_performs _ running form good arrived]
  case detach =>
    intro q c s running form good arrived first ahead
    rw [exec_queueDetach, execQueueDetach, command_performs _ running form good arrived]
    simp only [first, ne_eq, not_true_eq_false, if_false, if_neg (Nat.not_le.mpr ahead)]
  case fenceIssued =>
    intro q c s u running form good arrived engines first free hu
    have kind : bits (cmdArg0 c) 0 2 ≠ 3 := by omega
    rw [exec_fence, execFence, command_performs _ running form good arrived]
    simp only [if_neg kind, first, free, Bool.false_eq_true, if_false, if_true, if_pos engines, ← hu]
  case fenceOver =>
    intro q c s running form good arrived kind issued free
    rw [exec_fence, execFence, command_performs _ running form good arrived]
    simp only [if_neg kind, if_neg issued, free, Bool.false_eq_true, false_and, if_false]
  case writeReg =>
    intro q c s running form good arrived
    rw [exec_writeReg, execWriteReg, command_performs _ running form good arrived]
  case readReg =>
    intro q c s v running form good arrived value
    rw [exec_readReg, execReadReg, command_performs _ running form good arrived]
    rcases hread : barRead (cmdLocal c % 2 ^ 28) (cmdLen c) s with ⟨_ | w, t⟩
    · rw [hread] at value
      exact absurd value (by simp)
    · rw [hread] at value
      obtain rfl : w = v := Option.some.inj value
      rfl

end Sys2Proof.Machine
end

section
/-! PROOF. BAR0 requests that no register answers: unassigned offsets, and sizes and alignments that are not served (R4, R585,
R617): O45, O47. -/

namespace Sys2Proof.Machine

section
variable {o : Nat} {s : State}

/-- Outside reset the ID block answers the host. -/
theorem released_of_barReach (reach : barReach s = true) : s.rst.held = false := by
  simp only [barReach, idAnswers, Bool.and_eq_true, Bool.not_eq_true'] at reach
  exact reach.1.2

/-- A host write that sets no field of its own cycle is the write of BAR0. -/
theorem exec_registerWrite_plain (reach : barReach s = true) (fits : o < 2 ^ 28) (d : List Byte) :
    exec (.registerWrite o ⟨d, []⟩) s = .next (settle (barWrite 3 o d s)) := by
  simp only [exec_registerWrite, execRegisterWrite, reach, if_true, Nat.mod_eq_of_lt fits, sameSets_nil, each_nil, done_eq]

/-- A word read at an offset of no window and no register. -/
theorem wordRead_unassigned (window : windowOf o = none) (reg : regAt o = none) : wordRead o s = (0, s) := by
  rw [wordRead, window]
  dsimp only
  rw [reg]

/-- A word written there. -/
theorem wordWrite_unassigned (window : windowOf o = none) (reg : regAt o = none) (v : Nat) : wordWrite 3 o v s = s := by
  rw [wordWrite, window]
  dsimp only
  rw [reg]

/-- A write of one word at an aligned offset that is open. -/
theorem barWrite_word (opened : regOpen s o = true) (aligned : o % 4 = 0) (released : s.rst.held = false) (v : Nat) :
    barWrite 3 o (leBytes 4 v) s = wordWrite 3 o (leAt (leBytes 4 v) 0 4) s := by
  have length : (leBytes 4 v).length = 4 := rfl
  have served : writeServed o 4 = true := by simp [writeServed, aligned]
  have all : (if o < 0x100000 ∧ !regOpen s 0x100000 then min 4 (0x100000 - o) else 4) = 4 := by split <;> omega
  have goes : ¬ ((leBytes 4 v).length < 4 ∨ s.rst.held = true) := by simp [length, released]
  simp only [barWrite, opened, length, served, all, Bool.not_true, Bool.false_eq_true, if_false, Nat.lt_irrefl]
  rw [show (leBytes 4 v).take 4 = leBytes 4 v from rfl, wordsWrite, if_neg goes]
  rfl

/-- A write where the window or P2 shuts the offset out is dropped and counted. -/
theorem barWrite_shut (shut : regOpen s o = false) (d : List Byte) : barWrite 3 o d s = s.bump idBootDropsWrites 1 :=
  if_pos (by rw [shut]; rfl)

/-- A read of an aligned word, open or shut. -/
theorem barRead_word (aligned : o % 4 = 0) : barRead o 4 s =
    if regOpen s o = true then (some (wordRead o s).1, (wordRead o s).2) else (some 0xFFFFFFFF, s) := by
  rw [barRead, if_pos ⟨.inl rfl, aligned⟩]
  rfl

end

/-- Settles O45: at an offset of no window and no register nothing is read or written, unless the offset is shut out. -/
theorem unassignedOffsets : Obligations.UnassignedOffsets := by
  intro o s fits aligned reach window reg
  refine ⟨fun opened => ⟨?read, fun v => ?write⟩, fun shut => ⟨?shutRead, fun v => ?shutWrite⟩⟩
  case read =>
    simp only [exec_latchedLowWordRead, execLatchedLowWordRead, reach, if_true, Nat.mod_eq_of_lt fits, barRead_word aligned, opened,
      wordRead_unassigned window reg, hostAnswer, done_eq]
  case write =>
    rw [exec_registerWrite_plain reach fits, barWrite_word opened aligned (released_of_barReach reach), wordWrite_unassigned window reg]
  case shutRead =>
    simp only [exec_latchedLowWordRead, execLatchedLowWordRead, reach, if_true, Nat.mod_eq_of_lt fits, barRead_word aligned, shut,
      Bool.false_eq_true, if_false, hostAnswer, done_eq]
  case shutWrite => rw [exec_registerWrite_plain reach fits, barWrite_shut shut]

/-- Settles O47: a request of no served form is counted, or answered Unsupported Request. -/
theorem malformedRequests : Obligations.MalformedRequests := by
  intro o s fits reach opened
  refine ⟨fun d form => ?write, fun n whole narrow => ?read⟩
  case write =>
    have unserved : writeServed o d.length = false := by
      rw [Bool.eq_false_iff]
      intro served
      simp only [writeServed, Bool.and_eq_true, decide_eq_true_eq, beq_iff_eq] at served
      obtain ⟨⟨⟨low, high⟩, words⟩, aligned⟩ := served
      exact form ⟨low, high, words, aligned⟩
    rw [exec_registerWrite_plain reach fits, barWrite, if_neg (by rw [opened]; decide), if_pos (by rw [unserved]; rfl)]
  case read =>
    have answered : barRead o n s = (none, s) := by rw [barRead, if_neg whole, if_neg narrow]
    simp only [exec_rcRead, execRcRead, reach, if_true, Nat.mod_eq_of_lt fits, answered, List.zip_nil_right, each_nil, hostAnswer, done_eq]

end Sys2Proof.Machine
end

section
/-! PROOF. Pools, windows and requests of the KV service (R368 to R392): O25. -/

namespace Sys2Proof.Machine

section
variable {op p : Nat} {s : State} {w : KvWin} {r : List Byte}

/-- A request that is ready has its effect, from the state in which it begins, and ends with its completion. -/
theorem kvRun_ready (ready : KvReady op p s w r) (f : List Byte → KvWin → List Byte → State → KvRes × State) :
    kvRun op p f s = kvEnd p r (f (poolDesc (kvBorrow s) p) w r (kvBegun p s w r)) := by
  obtain ⟨next, ⟨isOp, low, high⟩, goes, wellFormed, inState, present⟩ := ready
  have known : ¬ (rqOp r = 0 ∨ 7 < rqOp r) := by omega
  have runs : ¬ (¬ (rqOp r = 0 ∨ 7 < rqOp r) ∧ (rqOp r ≠ op ∨ kvWaits (kvBorrow s) (poolDesc (kvBorrow s) p) w r = true)) := by
    simp [isOp, goes]
  have passes : kvChecked (poolDesc (kvBorrow s) p) w r
      (fun u => f (poolDesc (kvBorrow s) p) w r (kvStamp (poolDesc (kvBorrow s) p) r u)) (kvTaken p w (kvBorrow s)) =
      f (poolDesc (kvBorrow s) p) w r (kvBegun p s w r) := by
    simp only [kvChecked, wellFormed, inState, present, Bool.false_eq_true, if_false, ne_eq, not_true_eq_false, kvBegun]
  simp only [kvRun, next, if_neg runs, if_neg known, passes, kvEnd]

/-- A request whose pages translate has its effect. -/
theorem kvMapped_translates {d : List Byte} {s u : State} (maps : firstFault d (rqSeq r) (rqPages s d r) false s = (none, u))
    (f : List Byte → KvWin → List Byte → State → KvRes × State) : kvMapped f d w r s = f d w r u := by
  simp only [kvMapped, maps]

/-- A request of its own opcode, ready, is performed whole where its accesses are served. -/
theorem kvRun_served {t : State} (ready : KvReady op p s w r) {f : List Byte → KvWin → List Byte → State → KvRes × State}
    (ht : t = kvEnd p r (f (poolDesc (kvBorrow s) p) w r (kvBegun p s w r))) (k : Served s t) :
    whole (fun s => done (kvRun op p f s)) s = .next (settle t) := by
  refine whole_served ?_ k
  rw [kvRun_ready ready, ← ht, done_eq]

end

/-- Settles O25: the pools and windows by their guards, each request by `kvRun_served` from the state in which it begins. -/
theorem kvServiceCompletes : Obligations.KvServiceCompletes := by
  refine ⟨?load, ?unload, ?flush, ?start, ?accept, ?windowEnd, ?open_, ?fork, ?release, ?append, ?attend, ?back, ?read⟩
  case load =>
    rintro p s _ rfl served clean good
    rw [exec_poolLoad, execPoolLoad]
    simp only [served, clean, Bool.or_self, good, ne_eq, not_true_eq_false, if_false, done_eq]
  case unload =>
    rintro p s _ closed rfl
    rw [exec_poolUnload, execPoolUnload]
    simp only [closed, Option.isSome_none, Bool.false_eq_true, if_false, done_eq]
  case flush =>
    intro p s
    rw [exec_labFlush, execLabFlush, done_eq]
  case start =>
    rintro i s _ _ _ may rfl closed rfl served clean good rfl k
    rw [exec_kvWindowStart, execKvWindowStart]
    refine whole_served ?_ k
    have starts : ¬ ((!startable s 5 i.val) = true ∨ (winOf s (slotOf s i.val).unit).isSome = true) := by simp [may, closed]
    simp only [if_neg starts, winOpen, served, clean, Bool.or_self, good, ne_eq, not_true_eq_false, if_false, done_eq]
  case accept =>
    intro p s t w x open_ going early room waiting hx ht k
    rw [exec_kvRequestAccept, execKvRequestAccept]
    refine whole_served ?_ k
    have takes : ¬ (w.ended = true ∨ winTime s w ≤ s.now ∨ w.accept ≤ w.queue.length ∨
        s.get (kvsPoolTailIndex p.val) = s.get (kvsPoolHeadIndex p.val)) := by
      simp [going, early, room, waiting]
    simp only [open_, if_neg takes, ← hx, ← ht, done_eq]
  case windowEnd =>
    intro p s w open_
    simp only [exec_kvWindowEnd, execKvWindowEnd, open_, done_eq]
  case open_ =>
    intro p s t w r ready ht k
    rw [exec_kvOpen, execKvOpen]
    exact kvRun_served (f := fun d _ r => kvOpenDo d r) ready ht k
  case fork =>
    intro p s t w r ready ht k
    rw [exec_fork, execFork]
    exact kvRun_served (f := fun d _ r => kvForkDo d r) ready ht k
  case release =>
    intro p s t w r ready ht k
    rw [exec_release, execRelease]
    exact kvRun_served (f := fun d _ r => kvReleaseDo p.val d r) ready ht k
  case append =>
    rintro p s u t w r d ready rfl prepared ht k
    rw [exec_append, execAppend]
    refine kvRun_served ready ?_ k
    rw [ht]
    simp only [kvAppendDo, prepared]
  case attend =>
    rintro p s u t w r d ready rfl maps ht k
    rw [exec_attend, execAttend]
    exact kvRun_served ready (ht.trans (by rw [kvMapped_translates maps])) k
  case back =>
    rintro p s u t w r d ready rfl maps ht k
    rw [exec_attendBwd, execAttendBwd]
    exact kvRun_served ready (ht.trans (by rw [kvMapped_translates maps])) k
  case read =>
    rintro p s u t w r d ready rfl maps ht k
    rw [exec_kvRead, execKvRead]
    exact kvRun_served ready (ht.trans (by rw [kvMapped_translates maps])) k

end Sys2Proof.Machine
end

section
/-! PROOF. The queue of waiting commands (the model's choice, log entry 1): no function of the model writes it, so every command
answers a settled state with the queue it was given: O1, O4, O5. -/

namespace Sys2Proof.Machine

/-! ## Branches and folds

A fold keeps the queue when each of its applications does. A call of `simp` that must prove this of an application that only
writes fields is told to keep the proof (`-implicitDefEqProofs`). -/

@[simp] theorem pending_ite (c : Prop) [Decidable c] (s t : State) :
    (if c then s else t).pending = if c then s.pending else t.pending := apply_ite State.pending c s t

@[simp] theorem snd_ite {α β : Type} (c : Prop) [Decidable c] (x y : α × β) : (if c then x else y).2 = if c then x.2 else y.2 :=
  apply_ite Prod.snd c x y

@[simp] theorem each_pending {α : Type} {f : α → State → State} (h : ∀ a t, (f a t).pending = t.pending) (l : List α) (s : State) :
    (State.each l f s).pending = s.pending :=
  each_keeps (fun t => t.pending = s.pending) f (fun a t ht => (h a t).trans ht) l s rfl

@[simp] theorem foldl_pending {α : Type} {f : State → α → State} (h : ∀ t a, (f t a).pending = t.pending) (l : List α) (s : State) :
    (l.foldl f s).pending = s.pending := each_pending (fun a t => h t a) l s

/-- A part of the value that every application of a fold leaves is left by the fold. -/
theorem foldl_proj {α β γ : Type} (p : β → γ) {f : β → α → β} (h : ∀ x a, p (f x a) = p x) (l : List α) (x : β) :
    p (l.foldl f x) = p x := by
  induction l generalizing x with
  | nil => rfl
  | cons a l ih => exact (ih (f x a)).trans (h x a)

section
variable {α β γ δ : Type} (l : List α)

@[simp] theorem foldl_fst_pending {f : State × β → α → State × β} (h : ∀ x a, (f x a).1.pending = x.1.pending) (x : State × β) :
    (l.foldl f x).1.pending = x.1.pending := foldl_proj (fun x => x.1.pending) h l x

@[simp] theorem foldl_snd_pending {f : β × State → α → β × State} (h : ∀ x a, (f x a).2.pending = x.2.pending) (x : β × State) :
    (l.foldl f x).2.pending = x.2.pending := foldl_proj (fun x => x.2.pending) h l x

@[simp] theorem foldl_snd_snd_pending {f : β × γ × State → α → β × γ × State}
    (h : ∀ x a, (f x a).2.2.pending = x.2.2.pending) (x : β × γ × State) : (l.foldl f x).2.2.pending = x.2.2.pending :=
  foldl_proj (fun x => x.2.2.pending) h l x

@[simp] theorem foldl_snd_snd_snd_pending {f : β × γ × δ × State → α → β × γ × δ × State}
    (h : ∀ x a, (f x a).2.2.2.pending = x.2.2.2.pending) (x : β × γ × δ × State) :
    (l.foldl f x).2.2.2.pending = x.2.2.2.pending := foldl_proj (fun x => x.2.2.2.pending) h l x

end

/-! ## Outcomes -/

/-- The outcome is a settled next state with the queue of `s`. -/
def Answered (s : State) (o : Host.Outcome State Fault Refusal) : Prop := ∃ t, o = .next (settle t) ∧ t.pending = s.pending

@[simp] theorem answered_done {s t : State} : Answered s (done t) ↔ t.pending = s.pending := by
  refine ⟨?_, fun h => ⟨t, rfl, h⟩⟩
  rintro ⟨u, h, hu⟩
  injection h with h
  exact (congrArg State.pending h).trans hu

@[simp] theorem answered_ite {s : State} {c : Prop} [Decidable c] {x y : Host.Outcome State Fault Refusal} :
    Answered s (if c then x else y) ↔ if c then Answered s x else Answered s y := by
  split <;> rfl

/-- A register write that carries out a command keeps the queue when the command does. -/
@[simp] theorem after_pending {s : State} {o : Host.Outcome State Fault Refusal} (h : Answered s o) :
    (after s o).pending = s.pending := by
  obtain ⟨t, rfl, ht⟩ := h
  exact ht

/-! ## Machine/Ops.lean -/

@[simp] theorem on_pending {b f} (h : ∀ t, (f t).pending = t.pending) (s) : (State.on b f s).pending = s.pending := by
  simp [State.on, h]
@[simp] theorem sendVector_pending (v s) : (sendVector v s).pending = s.pending := by simp [sendVector]
@[simp] theorem setBucket_pending (p v s) : (setBucket p v s).pending = s.pending := rfl
@[simp] theorem charge_pending (a b s) : (charge a b s).pending = s.pending := by
  unfold charge; split <;> simp
@[simp] theorem tierPut_pending (a b s) : (tierPut a b s).pending = s.pending := rfl
@[simp] theorem cachePut_pending (a b s) : (cachePut a b s).pending = s.pending := by
  unfold cachePut; split <;> simp
@[simp] theorem poisonPut_pending (a v s) : (poisonPut a v s).pending = s.pending := by
  unfold poisonPut; split <;> simp
@[simp] theorem l1Snooped_pending (keepS line e s) : (l1Snooped keepS line e s).pending = s.pending := rfl
@[simp] theorem snoopLine_pending (keepS discard line s) : (snoopLine keepS discard line s).pending = s.pending := by
  unfold snoopLine; split <;> simp -implicitDefEqProofs
@[simp] theorem guardCount_pending (a n s) : (guardCount a n s).pending = s.pending := by simp [guardCount]
@[simp] theorem guarded_pending (kind bs s) : (guarded kind bs s).2.pending = s.pending := by simp [guarded]
@[simp] theorem nodeWrite_pending (a bs s) : (nodeWrite a bs s).pending = s.pending := by simp [nodeWrite]
@[simp] theorem nodePoisonWrite_pending (a n s) : (nodePoisonWrite a n s).pending = s.pending := by simp [nodePoisonWrite]
@[simp] theorem refusedAt_pending (a s) : (refusedAt a s).pending = s.pending := by simp [refusedAt]
@[simp] theorem ringWrite_pending (rcd s) : (ringWrite rcd s).pending = s.pending := by simp [ringWrite]
@[simp] theorem writeRecord_pending (cls code unit repeats info action tick claim s) :
    (writeRecord cls code unit repeats info action tick claim s).pending = s.pending := by
  simp [writeRecord]
@[simp] theorem coalEnd_pending (c s) : (coalEnd c s).pending = s.pending := by simp [coalEnd]
@[simp] theorem coalExpire_pending (s) : (coalExpire s).pending = s.pending := by simp [coalExpire]
@[simp] theorem faultCore_pending (c code unit info action claim s) :
    (faultCore c code unit info action claim s).pending = s.pending := by
  unfold faultCore; dsimp only; (repeat' split) <;> simp
@[simp] theorem fault_pending (c code unit info action claim s) :
    (fault c code unit info action claim s).pending = s.pending := by
  simp [fault]
@[simp] theorem mapErr_pending (req a s) : (mapErr req a s).pending = s.pending := by simp [mapErr]
@[simp] theorem reportUe_pending (c a s) : (reportUe c a s).pending = s.pending := by simp [reportUe]
@[simp] theorem sample_pending (s) : (sample s).pending = s.pending := rfl
@[simp] theorem raiseAlert_pending (f k s) : (raiseAlert f k s).pending = s.pending := by simp [raiseAlert]
@[simp] theorem bootTime_pending (i s) : (bootTime i s).pending = s.pending := by simp [bootTime]

/-! ## Machine/MemCare.lean -/

@[simp] theorem softRemapStart_pending (c u count cause s) : (softRemapStart c u count cause s).pending = s.pending := by
  unfold softRemapStart; dsimp only; (repeat' split) <;> simp
@[simp] theorem callRemap_pending (c u count cause s) : (callRemap c u count cause s).pending = s.pending := rfl
@[simp] theorem startDue_pending (s) : (startDue s).pending = s.pending := by simp [startDue]
@[simp] theorem eccCorrected_pending (c u lanes s) : (eccCorrected c u lanes s).pending = s.pending := by
  unfold eccCorrected; dsimp only; split <;> simp
@[simp] theorem setLatent_pending (place e s) : (setLatent place e s).pending = s.pending := rfl
@[simp] theorem eccUncorrectable_pending (c u a s) : (eccUncorrectable c u a s).pending = s.pending := by simp [eccUncorrectable]
@[simp] theorem eccOutcome_pending (c u a e s) : (eccOutcome c u a e s).pending = s.pending := by
  unfold eccOutcome; dsimp only; (repeat' split) <;> simp
@[simp] theorem decodeAll_pending (as ecc s) : (decodeAll as ecc s).pending = s.pending := by
  unfold decodeAll; split
  · rfl
  · exact each_pending (fun a t => by split <;> simp) _ _
@[simp] theorem eccLine_pending (line ecc s) : (eccLine line ecc s).pending = s.pending := by
  simp -implicitDefEqProofs [eccLine]
@[simp] theorem failedAnswer_pending (a s) : (failedAnswer a s).pending = s.pending := by
  unfold failedAnswer; (repeat' split) <;> simp -implicitDefEqProofs
@[simp] theorem storeFound_pending (store line s) : (storeFound store line s).pending = s.pending := by
  simp -implicitDefEqProofs [storeFound]
@[simp] theorem laneSuspect_pending (c s) : (laneSuspect c s).pending = s.pending := by
  unfold laneSuspect; dsimp only; (repeat' split) <;> simp
@[simp] theorem scrubPass_pending (c s) : (scrubPass c s).pending = s.pending := by simp [scrubPass]
@[simp] theorem execScrubRead_answered (chan ecc s) : Answered s (execScrubRead chan ecc s) := by simp [execScrubRead]
@[simp] theorem remapRecord_pending (r s) : (remapRecord r s).pending = s.pending := by
  unfold remapRecord; dsimp only; (repeat' split) <;> simp
@[simp] theorem softRemapEnd_pending (r s) : (softRemapEnd r s).pending = s.pending := by
  simp -implicitDefEqProofs [softRemapEnd]
@[simp] theorem softRemapsEnd_pending (p s) : (softRemapsEnd p s).pending = s.pending := by simp [softRemapsEnd]
@[simp] theorem execSoftRemapDone_answered (chan s) : Answered s (execSoftRemapDone chan s) := by
  unfold execSoftRemapDone; split <;> simp
@[simp] theorem execRemapReq_answered (stack value s) : Answered s (execRemapReq stack value s) := by
  unfold execRemapReq; split <;> simp
@[simp] theorem flashProgram_pending (o bs s) : (flashProgram o bs s).pending = s.pending := rfl
@[simp] theorem flashErase_pending (o n s) : (flashErase o n s).pending = s.pending := rfl
@[simp] theorem logFull_pending (chan s) : (logFull chan s).pending = s.pending := by simp [logFull]
@[simp] theorem execRemapLogAppend_answered (s) : Answered s (execRemapLogAppend s) := by
  unfold execRemapLogAppend; dsimp only; (repeat' split) <;> simp
@[simp] theorem execLogCompaction_answered (s) : Answered s (execLogCompaction s) := by
  simp -implicitDefEqProofs [execLogCompaction]
@[simp] theorem tgStart_pending (c v rlgBusy s) : (tgStart c v rlgBusy s).pending = s.pending := by simp [tgStart]
@[simp] theorem tgAccess_pending (c mode first flips i acc) : (tgAccess c mode first flips i acc).1.pending = acc.1.pending := by
  simp -implicitDefEqProofs [tgAccess, apply_ite Prod.fst]
@[simp] theorem tgRun_pending (c vis flips ecc s) : (tgRun c vis flips ecc s).pending = s.pending := by
  simp [tgRun]
@[simp] theorem tgAbort_pending (c s) : (tgAbort c s).pending = s.pending := by simp [tgAbort]
@[simp] theorem execTgStop_answered (chan s) : Answered s (execTgStop chan s) := by simp [execTgStop]
@[simp] theorem execTgDone_answered (chan flips ecc s) : Answered s (execTgDone chan flips ecc s) := by simp [execTgDone]

/-! ## Machine/MemCore.lean -/

@[simp] theorem setQueue_pending (p l s) : (setQueue p l s).pending = s.pending := rfl
@[simp] theorem setGranted_pending (p l s) : (setGranted p l s).pending = s.pending := rfl
@[simp] theorem setBusy_pending (line l s) : (setBusy line l s).pending = s.pending := rfl
@[simp] theorem setCredit_pending (p c s) : (setCredit p c s).pending = s.pending := rfl
@[simp] theorem autowake_pending (s) : (autowake s).pending = s.pending := by simp [autowake]
@[simp] theorem answered_whole {f} (h : ∀ t, Answered t (f t)) (s) : Answered s (whole f s) := by
  obtain ⟨t, ht, hp⟩ := h s
  by_cases k : Served s t
  · exact ⟨t, whole_served ht k, hp⟩
  · exact ⟨_, whole_held ht k, autowake_pending s⟩
@[simp] theorem missGrant_pending (p s) : (missGrant p s).pending = s.pending := by
  unfold missGrant; dsimp only; (repeat' split) <;> simp
@[simp] theorem stallCount_pending (p s) : (stallCount p s).pending = s.pending := by
  unfold stallCount; split <;> simp
@[simp] theorem issue_pending (p r s) : (issue p r s).pending = s.pending := by simp [issue]
@[simp] theorem takeTurn_pending (a s) : (takeTurn a s).pending = s.pending := by
  unfold takeTurn; split <;> simp
@[simp] theorem grantUntil_pending (p r n s) : (grantUntil p r n s).pending = s.pending := by
  fun_induction grantUntil <;> simp_all
@[simp] theorem waitLevel_pending (p r s) : (waitLevel p r s).pending = s.pending := by simp [waitLevel]
@[simp] theorem issueUntil_pending (p r n s) : (issueUntil p r n s).pending = s.pending := by
  induction n generalizing s with
  | zero => rfl
  | succ n ih => unfold issueUntil; split <;> simp [ih]
@[simp] theorem tierPass_pending (r s) : (tierPass r s).pending = s.pending := by
  unfold tierPass; split <;> simp
@[simp] theorem tierWrite_pending (a bs s) : (tierWrite a bs s).pending = s.pending := by
  simp -implicitDefEqProofs [tierWrite]
@[simp] theorem writeBack_pending (line data poison s) : (writeBack line data poison s).pending = s.pending := by simp [writeBack]
@[simp] theorem dropLine_pending (line s) : (dropLine line s).pending = s.pending := rfl
@[simp] theorem evictLine_pending (line s) : (evictLine line s).pending = s.pending := by
  unfold evictLine; dsimp only; split <;> simp
@[simp] theorem freeLine_pending (line s) : (freeLine line s).pending = s.pending := by simp [freeLine]
@[simp] theorem allocLine_pending (line l s) : (allocLine line l s).pending = s.pending := by
  unfold allocLine; split <;> simp
@[simp] theorem hitLine_pending (line hint l s) : (hitLine line hint l s).pending = s.pending := by simp [hitLine]
@[simp] theorem ncHit_pending (req line s) : (ncHit req line s).pending = s.pending := by
  unfold ncHit; split <;> simp
@[simp] theorem lineAccess_pending (req write a n data hint uses s) :
    (lineAccess req write a n data hint uses s).2.2.pending = s.pending := by
  unfold lineAccess
  extract_lets line off gk s₁ s₂
  have h₂ : s₂.pending = s.pending := by
    simp only [s₂]; (repeat' split) <;> simp [s₁]
  have hg := (guarded_pending (if write = true ∧ gk = 2 then 2 else 0) data s₂).trans h₂
  generalize guarded (if write = true ∧ gk = 2 then 2 else 0) data s₂ = x at hg ⊢
  obtain ⟨data, t⟩ := x
  dsimp only at hg ⊢
  cases hc : cached t line with
  | some l => simp [hg]
  | none =>
    simp only [guarded_pending]
    split
    · split <;> simp [hg]
    · split
      · split
        · simp [hg]
        · split <;> simp [hg]
      · simp [hg]
@[simp] theorem adderDo_pending (fmt a x s) : (adderDo fmt a x s).2.2.pending = s.pending := by simp [adderDo]
@[simp] theorem flushLine_pending (line s) : (flushLine line s).pending = s.pending := by simp [flushLine]

/-! ## Machine/SliceCore.lean -/

@[simp] theorem toTier_pending (r s) : (toTier r s).pending = s.pending := by
  unfold toTier; split <;> simp
@[simp] theorem setTxn_pending (t s) : (setTxn t s).pending = s.pending := rfl
@[simp] theorem dropTxn_pending (line s) : (dropTxn line s).pending = s.pending := rfl
@[simp] theorem setPendingQueue_pending (sl l s) : (setPendingQueue sl l s).pending = s.pending := by simp [setPendingQueue]
@[simp] theorem enqueue_pending (r s) : (enqueue r s).pending = s.pending := by simp [enqueue]
@[simp] theorem openTxn_pending (k es r s) : (openTxn k es r s).pending = s.pending := by
  simp -implicitDefEqProofs [openTxn]
@[simp] theorem grant_pending (r s) : (grant r s).pending = s.pending := by
  unfold grant; dsimp only; (repeat' split) <;> simp
@[simp] theorem answer_pending (r bs po s) : (answer r bs po s).pending = s.pending := rfl
@[simp] theorem ready_pending (r s) : (ready r s).pending = s.pending := by
  unfold ready; dsimp only; (repeat' split) <;> simp
@[simp] theorem serve_pending (r s) : (serve r s).pending = s.pending := by
  unfold serve; dsimp only; split <;> simp
@[simp] theorem arrive_pending (r s) : (arrive r s).pending = s.pending := by
  unfold arrive; dsimp only; split <;> simp
@[simp] theorem pump_pending (sl s) : (pump sl s).pending = s.pending := by simp [pump]
@[simp] theorem pumpLine_pending (line s) : (pumpLine line s).pending = s.pending := by simp [pumpLine]
@[simp] theorem closeTxn_pending (line s) : (closeTxn line s).pending = s.pending := by
  unfold closeTxn; split <;> simp
@[simp] theorem advance_pending (line s) : (advance line s).pending = s.pending := by
  unfold advance; split <;> simp
@[simp] theorem release_pending (line s) : (release line s).pending = s.pending := by simp [release]
@[simp] theorem l1Put_pending (e line v s) : (l1Put e line v s).pending = s.pending := rfl
@[simp] theorem l1Remove_pending (e line s) : (l1Remove e line s).pending = s.pending := rfl
@[simp] theorem l1Check_pending (e line s) : (l1Check e line s).pending = s.pending := by
  unfold l1Check; split <;> simp
@[simp] theorem l1Open_pending (e q s) : (l1Open e q s).pending = s.pending := rfl
@[simp] theorem l1Close_pending (e tag s) : (l1Close e tag s).pending = s.pending := rfl
@[simp] theorem clearHolder_pending (e line s) : (clearHolder e line s).pending = s.pending := by
  unfold clearHolder; split <;> simp
@[simp] theorem shareHolder_pending (line s) : (shareHolder line s).pending = s.pending := by
  unfold shareHolder; split <;> simp
@[simp] theorem takeDirty_pending (line data poison s) : (takeDirty line data poison s).pending = s.pending := by
  unfold takeDirty; split <;> simp
@[simp] theorem dropSnoop_pending (x s) : (dropSnoop x s).pending = s.pending := rfl
@[simp] theorem receiveGrant_pending (k st e tag line s) : (receiveGrant k st e tag line s).pending = s.pending := by
  unfold receiveGrant; dsimp only; (repeat' split) <;> simp
@[simp] theorem freeWb_pending (e line s) : (freeWb e line s).pending = s.pending := rfl
@[simp] theorem answerSnoop_pending (k e slice tag line s) : (answerSnoop k e slice tag line s).pending = s.pending := by
  unfold answerSnoop; dsimp only; (repeat' split) <;> simp
@[simp] theorem protocolFault_pending (cause e line s) : (protocolFault cause e line s).pending = s.pending := by
  simp [protocolFault]
@[simp] theorem supersede_pending (e line s) : (supersede e line s).pending = s.pending := by simp [supersede]
@[simp] theorem rspEffect_pending (k x m s) : (rspEffect k x m s).pending = s.pending := by
  unfold rspEffect; split <;> simp
@[simp] theorem receiveRsp_pending (k e slice tag line s) : (receiveRsp k e slice tag line s).pending = s.pending := by
  unfold receiveRsp; dsimp only; (repeat' split) <;> simp
@[simp] theorem completeBusy_pending (line ecc s) : (completeBusy line ecc s).pending = s.pending := by
  unfold completeBusy; split <;> simp
@[simp] theorem finishBusy_pending (line s) : (finishBusy line s).pending = s.pending := by
  unfold finishBusy; dsimp only; (repeat' split) <;> simp
@[simp] theorem deliverMsg_pending (m s) : (deliverMsg m s).pending = s.pending := by
  unfold deliverMsg; split <;> simp
@[simp] theorem settleSteps_pending (line n s) : (settleSteps line n s).pending = s.pending := by
  fun_induction settleSteps <;> simp_all
@[simp] theorem settleLine_pending (line s) : (settleLine line s).pending = s.pending := by simp [settleLine]
@[simp] theorem lineUse_pending (req write a n data hint uses d s) :
    (lineUse req write a n data hint uses d s).2.2.pending = s.pending := by
  simp [lineUse]
@[simp] theorem getPieces_pending (req hint uses d l s) : (getPieces req hint uses d l s).2.pending = s.pending := by
  induction l generalizing s with
  | nil => rfl
  | cons p ps ih => unfold getPieces; split <;> simp [ih]
@[simp] theorem useGet_pending (req a n hint uses d s) : (useGet req a n hint uses d s).2.pending = s.pending := by simp [useGet]
@[simp] theorem useRead_pending (req a n hint uses s) : (useRead req a n hint uses s).2.2.2.pending = s.pending := by
  simp [useRead]
@[simp] theorem usePut_pending (req a bs hint uses d s) : (usePut req a bs hint uses d s).2.2.pending = s.pending := by
  simp [usePut]
@[simp] theorem useWrite_pending (req a bs hint uses s) : (useWrite req a bs hint uses s).2.pending = s.pending := by
  simp [useWrite]
@[simp] theorem touch_pending (req a n s) : (touch req a n s).pending = s.pending := by simp [touch]
@[simp] theorem store_pending (req a bs s) : (store req a bs s).pending = s.pending := by simp [store]
@[simp] theorem copyRange_pending (req a b n s) : (copyRange req a b n s).pending = s.pending := by simp [copyRange]
@[simp] theorem atomicNow_pending (req fmt a x s) : (atomicNow req fmt a x s).2.2.pending = s.pending := by simp [atomicNow]
@[simp] theorem l1MakeRoom_pending (e line s) : (l1MakeRoom e line s).pending = s.pending := by
  unfold l1MakeRoom; dsimp only; (repeat' split) <;> simp
@[simp] theorem l1Bring_pending (e line write s) : (l1Bring e line write s).pending = s.pending := by
  unfold l1Bring; dsimp only; (repeat' split) <;> simp
@[simp] theorem l1Read_pending (e a n s) : (l1Read e a n s).2.2.2.pending = s.pending := by
  unfold l1Read; dsimp only; (repeat' split) <;> simp
@[simp] theorem l1Write_pending (e a bs poison s) : (l1Write e a bs poison s).2.pending = s.pending := by
  unfold l1Write; dsimp only; (repeat' split) <;> simp

/-! ## Machine/Memory.lean -/

@[simp] theorem refuseAccess_pending (r s) : (refuseAccess r s).pending = s.pending := by simp [refuseAccess]
@[simp] theorem execMemoryAccess_answered (req write addr data len hint uses deadline s) :
    Answered s (execMemoryAccess req write addr data len hint uses deadline s) := by
  simp [execMemoryAccess]
@[simp] theorem execAtomicRequest_answered (req addr fmt fetch operand s) :
    Answered s (execAtomicRequest req addr fmt fetch operand s) := by
  simp [execAtomicRequest]
@[simp] theorem execMissGrant_answered (part s) : Answered s (execMissGrant part s) := by simp [execMissGrant]
@[simp] theorem execRegulatorIssue_answered (part s) : Answered s (execRegulatorIssue part s) := by
  unfold execRegulatorIssue; dsimp only; split <;> simp
@[simp] theorem execLineFillDone_answered (line ecc s) : Answered s (execLineFillDone line ecc s) := by
  unfold execLineFillDone; dsimp only; split <;> simp
@[simp] theorem execAdderComplete_answered (line ecc s) : Answered s (execAdderComplete line ecc s) := by
  unfold execAdderComplete; dsimp only; split <;> simp
@[simp] theorem partRefuse_pending (p cause s) : (partRefuse p cause s).pending = s.pending := by simp [partRefuse]
@[simp] theorem refill_pending (p s) : (refill p s).pending = s.pending := rfl
@[simp] theorem settleBucket_pending (p s) : (settleBucket p s).pending = s.pending := by simp [settleBucket]
@[simp] theorem freshFrame_pending (f s) : (freshFrame f s).pending = s.pending := rfl
@[simp] theorem layOut_pending (p s) : (layOut p s).pending = s.pending := by simp [layOut]
@[simp] theorem stopGenerators_pending (p s) : (stopGenerators p s).pending = s.pending := by
  simp -implicitDefEqProofs [stopGenerators]
@[simp] theorem enablePart_pending (p s) : (enablePart p s).pending = s.pending := by simp [enablePart]
@[simp] theorem writeArb_pending (p v s) : (writeArb p v s).pending = s.pending := by simp [writeArb]
@[simp] theorem writeTierMode_pending (p v s) : (writeTierMode p v s).pending = s.pending := by simp [writeTierMode]
@[simp] theorem clearRefused_pending (p v s) : (clearRefused p v s).pending = s.pending := by simp [clearRefused]
@[simp] theorem execPartitionEnable_answered (part cfg s) : Answered s (execPartitionEnable part cfg s) := by
  unfold execPartitionEnable; dsimp only; (repeat' split) <;> simp
@[simp] theorem execPartitionDisable_answered (part cfg s) : Answered s (execPartitionDisable part cfg s) := by
  simp [execPartitionDisable]
@[simp] theorem execFlushDone_answered (part s) : Answered s (execFlushDone part s) := by simp [execFlushDone]
@[simp] theorem execRegulatorWrite_answered (part burst value s) : Answered s (execRegulatorWrite part burst value s) := by
  simp [execRegulatorWrite]
@[simp] theorem writeRange_pending (p v s) : (writeRange p v s).pending = s.pending := by simp [writeRange]
@[simp] theorem writeSplit_pending (p v s) : (writeSplit p v s).pending = s.pending := by simp [writeSplit]
@[simp] theorem regulatorCycle_pending (s) : (regulatorCycle s).pending = s.pending := by simp [regulatorCycle]

/-! ## Machine/Cycle.lean -/

@[simp] theorem coreCycle_pending (s) : (coreCycle s).pending = s.pending := by
  simp -implicitDefEqProofs [coreCycle]

/-! ## Machine/Wire.lean -/

@[simp] theorem emitFlit_pending (p typ seq replayed nak mid s) :
    (emitFlit p typ seq replayed nak mid s).pending = s.pending := rfl
@[simp] theorem sendNew_pending (p ctrl mid s) : (sendNew p ctrl mid s).pending = s.pending := rfl
@[simp] theorem drainWait_pending (p ctrl s) : (drainWait p ctrl s).pending = s.pending := by
  simp -implicitDefEqProofs [drainWait]
@[simp] theorem offerFlit_pending (p ctrl mid s) : (offerFlit p ctrl mid s).pending = s.pending := by simp [offerFlit]
@[simp] theorem sendCtrl_pending (p kind content s) : (sendCtrl p kind content s).pending = s.pending := by simp [sendCtrl]
@[simp] theorem drainVc_pending (p vc s) : (drainVc p vc s).pending = s.pending := by simp [drainVc]
@[simp] theorem drainHeld_pending (p s) : (drainHeld p s).pending = s.pending := by simp [drainHeld]
@[simp] theorem sendPacket_pending (p pkt s) : (sendPacket p pkt s).pending = s.pending := by simp [sendPacket]
@[simp] theorem sendIdle_pending (p nak s) : (sendIdle p nak s).pending = s.pending := rfl
@[simp] theorem sendProbes_pending (p n s) : (sendProbes p n s).pending = s.pending := by simp [sendProbes]
@[simp] theorem sendTick_pending (p kind content s) : (sendTick p kind content s).pending = s.pending := by simp [sendTick]
@[simp] theorem sendCtrlMask_pending (mask kind content s) : (sendCtrlMask mask kind content s).pending = s.pending := by
  simp [sendCtrlMask]
@[simp] theorem claimRetraining_pending (p cause s) : (claimRetraining p cause s).pending = s.pending := by simp [claimRetraining]
@[simp] theorem clockTo_pending (src p s) : (clockTo src p s).pending = s.pending := by simp [clockTo]
@[simp] theorem clockLost_pending (p s) : (clockLost p s).pending = s.pending := by simp [clockLost]
@[simp] theorem acquireLost_pending (p s) : (acquireLost p s).pending = s.pending := by simp [acquireLost]
@[simp] theorem portDown_pending (p cause s) : (portDown p cause s).pending = s.pending := by simp [portDown]
@[simp] theorem enterRetrain_pending (p s) : (enterRetrain p s).pending = s.pending := by simp [enterRetrain]
@[simp] theorem claimAndRetrain_pending (p cause code s) : (claimAndRetrain p cause code s).pending = s.pending := by
  simp [claimAndRetrain]
@[simp] theorem exhaust_pending (p s) : (exhaust p s).pending = s.pending := by simp [exhaust]
@[simp] theorem resend_pending (p ctrl s) : (resend p ctrl s).pending = s.pending := by
  simp -implicitDefEqProofs [resend]

/-! ## Machine/FabCore.lean -/

@[simp] theorem sendVc_pending (arr pkt s) : (sendVc arr pkt s).pending = s.pending := by
  unfold sendVc; dsimp only; (repeat' split) <;> simp
@[simp] theorem respond_pending (arr dst op tag status data s) : (respond arr dst op tag status data s).pending = s.pending := by
  simp [respond]
@[simp] theorem sendMgmt_pending (dst op payload s) : (sendMgmt dst op payload s).pending = s.pending := by simp [sendMgmt]
@[simp] theorem consume_pending (p pkt s) : (consume p pkt s).pending = s.pending := by simp [consume]
@[simp] theorem consumeAny_pending (pkt s) : (consumeAny pkt s).pending = s.pending := by
  unfold consumeAny; split <;> simp
@[simp] theorem take_pending (p pkt s) : (take p pkt s).pending = s.pending := by simp [take]
@[simp] theorem consumeCtrl_pending (p kind msg s) : (consumeCtrl p kind msg s).pending = s.pending := by
  unfold consumeCtrl; split <;> simp
@[simp] theorem routeCheck_pending (s) : (routeCheck s).pending = s.pending := by simp [routeCheck]
@[simp] theorem routeWrite_pending (b o bs s) : (routeWrite b o bs s).pending = s.pending := by simp [routeWrite]
@[simp] theorem member_pending (s) : (member s).pending = s.pending := by simp [member]
@[simp] theorem loadBeaconPort_pending (rank s) : (loadBeaconPort rank s).pending = s.pending := by simp [loadBeaconPort]
@[simp] theorem routeSwap_pending (s) : (routeSwap s).pending = s.pending := by
  unfold routeSwap; dsimp only; split <;> simp
@[simp] theorem neighbourUp_pending (p s) : (neighbourUp p s).pending = s.pending := by simp [neighbourUp]
@[simp] theorem announceAll_pending (s) : (announceAll s).pending = s.pending := by simp [announceAll]

/-! ## Machine/Links.lean -/

@[simp] theorem latchModes_pending (p s) : (latchModes p s).pending = s.pending := rfl
@[simp] theorem sendPages_pending (p s) : (sendPages p s).pending = s.pending := by
  simp -implicitDefEqProofs [sendPages]
@[simp] theorem enter_pending (p st s) : (enter p st s).pending = s.pending := rfl
@[simp] theorem toDetect_pending (p s) : (toDetect p s).pending = s.pending := by simp [toDetect]
@[simp] theorem toExchange_pending (p s) : (toExchange p s).pending = s.pending := by simp [toExchange]
@[simp] theorem nextAttempt_pending (p s) : (nextAttempt p s).pending = s.pending := by simp [nextAttempt]
@[simp] theorem execSignalDetect_answered (port s) : Answered s (execSignalDetect port s) := by simp [execSignalDetect]
@[simp] theorem takePage_pending (p lane body s) : (takePage p lane body s).pending = s.pending := by simp [takePage]
@[simp] theorem markSilent_pending (p s) : (markSilent p s).pending = s.pending := by
  unfold markSilent; split <;> simp
@[simp] theorem exchangePage_pending (p lane body inverted s) : (exchangePage p lane body inverted s).pending = s.pending := by
  unfold exchangePage; dsimp only; split <;> simp
@[simp] theorem execCapabilityPage_answered (port lane inverted body crc at_ s) :
    Answered s (execCapabilityPage port lane inverted body crc at_ s) := by
  unfold execCapabilityPage; dsimp only; (repeat' split) <;> simp
@[simp] theorem execExchangeTimeout_answered (port s) : Answered s (execExchangeTimeout port s) := by simp [execExchangeTimeout]
@[simp] theorem failAttempt_pending (p cause lanes s) : (failAttempt p cause lanes s).pending = s.pending := by simp [failAttempt]
@[simp] theorem execTrainingDone_answered (port ok lanes s) : Answered s (execTrainingDone port ok lanes s) := by
  simp [execTrainingDone]
@[simp] theorem execTrainTimeout_answered (port lanes s) : Answered s (execTrainTimeout port lanes s) := by
  simp [execTrainTimeout]
@[simp] theorem execAlignTimeout_answered (port lanes s) : Answered s (execAlignTimeout port lanes s) := by
  simp [execAlignTimeout]
@[simp] theorem execAlignDone_answered (port mapOk lanes s) : Answered s (execAlignDone port mapOk lanes s) := by
  simp [execAlignDone]
@[simp] theorem execDelayProbe_answered (port tx turn replayed s) : Answered s (execDelayProbe port tx turn replayed s) := by
  simp [execDelayProbe]
@[simp] theorem setDelay_pending (p rtt s) : (setDelay p rtt s).pending = s.pending := rfl
@[simp] theorem takeReply_pending (p echo turn ret s) : (takeReply p echo turn ret s).pending = s.pending := by simp [takeReply]
@[simp] theorem execDelayReply_answered (port echo turn ret s) : Answered s (execDelayReply port echo turn ret s) := by
  simp [execDelayReply]
@[simp] theorem execMeasureTimeout_answered (port s) : Answered s (execMeasureTimeout port s) := by simp [execMeasureTimeout]
@[simp] theorem comeUp_pending (p s) : (comeUp p s).pending = s.pending := by simp [comeUp]
@[simp] theorem execVerifyEnd_answered (port uncorrectable corrected received crcError lanes s) :
    Answered s (execVerifyEnd port uncorrectable corrected received crcError lanes s) := by
  simp [execVerifyEnd]
@[simp] theorem execDownBackoff_answered (port s) : Answered s (execDownBackoff port s) := by simp [execDownBackoff]
@[simp] theorem execPortEnable_answered (port on s) : Answered s (execPortEnable port on s) := by simp [execPortEnable]
@[simp] theorem lpAnswer_pending (p s) : (lpAnswer p s).pending = s.pending := by simp [lpAnswer]
@[simp] theorem lpAsk_pending (p s) : (lpAsk p s).pending = s.pending := by simp [lpAsk]
@[simp] theorem lpDelayed_pending (p s) : (lpDelayed p s).pending = s.pending := by simp [lpDelayed]
@[simp] theorem closeEpisode_pending (p s) : (closeEpisode p s).pending = s.pending := by simp [closeEpisode]
@[simp] theorem execEpisodeWindowClose_answered (port s) : Answered s (execEpisodeWindowClose port s) := by
  simp [execEpisodeWindowClose]
@[simp] theorem replayNow_pending (p ctrl s) : (replayNow p ctrl s).pending = s.pending := by simp [replayNow]
@[simp] theorem replay_pending (p ctrl s) : (replay p ctrl s).pending = s.pending := by simp [replay]
@[simp] theorem countFec_pending (p cw s) : (countFec p cw s).pending = s.pending :=
  each_pending (fun c t => by dsimp only; split <;> simp) _ _
@[simp] theorem sendNak_pending (p ctrl s) : (sendNak p ctrl s).pending = s.pending := rfl
@[simp] theorem takeAck_pending (p ctrl last s) : (takeAck p ctrl last s).pending = s.pending := by simp [takeAck]
@[simp] theorem takeSpace_pending (p ctrl h s) : (takeSpace p ctrl h s).pending = s.pending := by simp [takeSpace]
@[simp] theorem takeHeader_pending (p f s) : (takeHeader p f s).pending = s.pending := by simp [takeHeader]
@[simp] theorem takePacket_pending (p pkt s) : (takePacket p pkt s).pending = s.pending := by simp [takePacket]
@[simp] theorem takeUnits_pending (p f s) : (takeUnits p f s).pending = s.pending := by simp [takeUnits]
@[simp] theorem takeContent_pending (p ctrl f s) : (takeContent p ctrl f s).pending = s.pending := by simp [takeContent]
@[simp] theorem takeSequenced_pending (p ctrl f s) : (takeSequenced p ctrl f s).pending = s.pending := by simp [takeSequenced]
@[simp] theorem execFlitReceive_answered (port flit codewords at_ s) :
    Answered s (execFlitReceive port flit codewords at_ s) := by
  unfold execFlitReceive; dsimp only; (repeat' split) <;> simp
@[simp] theorem execNakRepeat_answered (port ctrl s) : Answered s (execNakRepeat port ctrl s) := by simp [execNakRepeat]
@[simp] theorem execAckIdleSend_answered (port s) : Answered s (execAckIdleSend port s) := by simp [execAckIdleSend]
@[simp] theorem execAckTimeout_answered (port ctrl at_ s) : Answered s (execAckTimeout port ctrl at_ s) := by
  simp [execAckTimeout]
@[simp] theorem lossOfSignal_pending (p canRetrain s) : (lossOfSignal p canRetrain s).pending = s.pending := by
  simp [lossOfSignal]
@[simp] theorem retrainFails_pending (p s) : (retrainFails p s).pending = s.pending := by simp [retrainFails]
@[simp] theorem execRetrainDone_answered (port line s) : Answered s (execRetrainDone port line s) := by simp [execRetrainDone]
@[simp] theorem execRetrainTimeout_answered (port s) : Answered s (execRetrainTimeout port s) := by simp [execRetrainTimeout]
@[simp] theorem execDegradedWindow_answered (port corrected received s) :
    Answered s (execDegradedWindow port corrected received s) := by
  simp [execDegradedWindow]
@[simp] theorem execRetrain_answered (port s) : Answered s (execRetrain port s) := by simp [execRetrain]
@[simp] theorem execUnfence_answered (port s) : Answered s (execUnfence port s) := by simp [execUnfence]
@[simp] theorem execRenegotiate_answered (port s) : Answered s (execRenegotiate port s) := by simp [execRenegotiate]
@[simp] theorem execLpRequest_answered (port s) : Answered s (execLpRequest port s) := by simp [execLpRequest]
@[simp] theorem execLpAcknowledge_answered (port s) : Answered s (execLpAcknowledge port s) := by simp [execLpAcknowledge]
@[simp] theorem execLpExit_answered (port s) : Answered s (execLpExit port s) := by simp [execLpExit]
@[simp] theorem execQuit_answered (port cause s) : Answered s (execQuit port cause s) := by simp [execQuit]
@[simp] theorem quitAll_pending (s) : (quitAll s).pending = s.pending := by simp [quitAll]

/-! ## Machine/Slots.lean -/

@[simp] theorem setSlot_pending (i v s) : (setSlot i v s).pending = s.pending := rfl
@[simp] theorem endSlot_pending (i v s) : (endSlot i v s).pending = s.pending := rfl
@[simp] theorem startSlot_pending (i s) : (startSlot i s).pending = s.pending := by simp [startSlot]
@[simp] theorem finishSlot_pending (i v s) : (finishSlot i v s).pending = s.pending := by simp [finishSlot]
@[simp] theorem completeSlot_pending (i s) : (completeSlot i s).pending = s.pending := by simp [completeSlot]
@[simp] theorem mapSlots_pending (f s) : (mapSlots f s).pending = s.pending := rfl
@[simp] theorem detachSlots_pending (s) : (detachSlots s).pending = s.pending := rfl
@[simp] theorem recordLate_pending (i action s) : (recordLate i action s).pending = s.pending := by simp [recordLate]

/-! ## Machine/CalCore.lean -/

@[simp] theorem wholeGet_pending (a n s) : (wholeGet a n s).2.pending = s.pending := by simp [wholeGet]
@[simp] theorem localElems_pending (d w k0 n s) : (localElems d w k0 n s).2.pending = s.pending := by simp [localElems]
@[simp] theorem localExp_pending (d w s) : (localExp d w s).2.pending = s.pending := by simp [localExp]
@[simp] theorem localGroup_pending (d gs w s) : (localGroup d gs w s).2.pending = s.pending := by simp [localGroup]
@[simp] theorem localPart_pending (d gs w p s) : (localPart d gs w p s).2.pending = s.pending := by simp [localPart]
@[simp] theorem sendPart_pending (mask d i p w flags contrib es s) :
    (sendPart mask d i p w flags contrib es s).pending = s.pending := by
  simp [sendPart]
@[simp] theorem writeStatus_pending (d w flags s) : (writeStatus d w flags s).pending = s.pending := by simp [writeStatus]
@[simp] theorem statusBit4_pending (a v s) : (statusBit4 a v s).pending = s.pending := by simp [statusBit4]
@[simp] theorem noteFail_pending (i s) : (noteFail i s).pending = s.pending := by simp [noteFail]
@[simp] theorem endWindow_pending (i w missing s) : (endWindow i w missing s).pending = s.pending := by simp [endWindow]
@[simp] theorem ownPart_pending (i g w p flags contrib check rounded es s) :
    (ownPart i g w p flags contrib check rounded es s).pending = s.pending := by
  simp [ownPart]
@[simp] theorem ownMax8_pending (i gs w es s) : (ownMax8 i gs w es s).pending = s.pending := by simp [ownMax8]
@[simp] theorem dropEntries_pending (i s) : (dropEntries i s).pending = s.pending := rfl
@[simp] theorem endOpenWindows_pending (i all s) : (endOpenWindows i all s).pending = s.pending := by simp [endOpenWindows]
@[simp] theorem touchDesc_pending (i s) : (touchDesc i s).pending = s.pending := by simp [touchDesc]
@[simp] theorem keepDesc_pending (i b t s) : (keepDesc i b t s).pending = s.pending := rfl
@[simp] theorem descForLate_pending (i s) : (descForLate i s).pending = s.pending := by simp [descForLate]
@[simp] theorem gatherEnd_pending (i s) : (gatherEnd i s).pending = s.pending := by simp [gatherEnd]
@[simp] theorem settleRepeats_pending (s) : (settleRepeats s).pending = s.pending := by simp [settleRepeats]
@[simp] theorem holdStep_pending (s) : (holdStep s).pending = s.pending := by simp [holdStep]
@[simp] theorem lateEffect_pending (i s) : (lateEffect i s).pending = s.pending := by simp [lateEffect]
@[simp] theorem cancelDependents_pending (i s) : (cancelDependents i s).pending = s.pending := by simp [cancelDependents]
@[simp] theorem cancelPlain_pending (i s) : (cancelPlain i s).pending = s.pending := by simp [cancelPlain]
@[simp] theorem lateCollective_pending (i s) : (lateCollective i s).pending = s.pending := by simp [lateCollective]
@[simp] theorem launchBeacon_pending (kind kindData s) : (launchBeacon kind kindData s).pending = s.pending := by
  simp [launchBeacon]
@[simp] theorem clearClaims_pending (s) : (clearClaims s).pending = s.pending := by simp [clearClaims]
@[simp] theorem stepReset_pending (s) : (stepReset s).pending = s.pending := rfl
@[simp] theorem completeDependents_pending (i s) : (completeDependents i s).pending = s.pending := by simp [completeDependents]
@[simp] theorem endConfirm_pending (v i s) : (endConfirm v i s).pending = s.pending := by simp [endConfirm]
@[simp] theorem acceptCommit_pending (skip kd s) : (acceptCommit skip kd s).pending = s.pending := by simp [acceptCommit]
@[simp] theorem acceptAbort_pending (kd s) : (acceptAbort kd s).pending = s.pending := by simp [acceptAbort]
@[simp] theorem acceptGather_pending (again kd s) : (acceptGather again kd s).pending = s.pending := by simp [acceptGather]
@[simp] theorem acceptVerdict_pending (kd s) : (acceptVerdict kd s).pending = s.pending := by
  unfold acceptVerdict; dsimp only; (repeat' split) <;> simp
@[simp] theorem launchVerdict_pending (i v c s) : (launchVerdict i v c s).pending = s.pending := by
  unfold launchVerdict; dsimp only; split
  · rfl
  · rw [acceptVerdict_pending, onCal_pending_frame, set_pending_frame, launchBeacon_pending]
@[simp] theorem launchAbort_pending (i fl fp s) : (launchAbort i fl fp s).pending = s.pending := by simp [launchAbort]
@[simp] theorem decide_pending (i g rec_ all s) : (decide_ i g rec_ all s).pending = s.pending := by simp [decide_]
@[simp] theorem partDone_pending (i s) : (partDone i s).pending = s.pending := by simp [partDone]
@[simp] theorem finishPart_pending (i g w p ins s) : (finishPart i g w p ins s).pending = s.pending := by simp [finishPart]
@[simp] theorem copyPart_pending (i g w p es s) : (copyPart i g w p es s).pending = s.pending := by simp [copyPart]
@[simp] theorem startParts_pending (i s) : (startParts i s).pending = s.pending := by
  refine foldl_pending (fun t g => ?_) _ _
  split
  · rfl
  · refine foldl_pending (fun t w => foldl_pending (fun t p => ?_) _ _) _ _
    have k := localPart_pending (slotDesc s i) (slotSegs s i) w p t
    split
    · split <;> rename_i h <;> rw [h] at k <;> simpa using k
    · simp

/-! ## Machine/Collective.lean -/

@[simp] theorem markNoAgree_pending (i s) : (markNoAgree i s).pending = s.pending := by simp [markNoAgree]
@[simp] theorem setEntry_pending (k e s) : (setEntry k e s).pending = s.pending := rfl
@[simp] theorem startConfirm_pending (i s) : (startConfirm i s).pending = s.pending := by
  unfold startConfirm
  extract_lets d gather r m x s₁
  have h : s₁.pending = s.pending := by
    simp only [s₁]; split
    · rfl
    · rw [onCal_pending_frame]
  clear_value s₁
  split
  · exact h
  · split
    · split
      · rw [decide_pending, setEntry_pending, h]
      · rw [setEntry_pending, h]
    · rw [finishPart_pending, h]
@[simp] theorem refuseSlot_pending (i r s) : (refuseSlot i r s).pending = s.pending := by simp [refuseSlot]
@[simp] theorem slotBegin_pending (i s) : (slotBegin i s).pending = s.pending := by simp [slotBegin]
@[simp] theorem execCollectiveSlotStart_answered (slot s) : Answered s (execCollectiveSlotStart slot s) := by
  simp [execCollectiveSlotStart]
@[simp] theorem vcDrop_pending (stale s) : (vcDrop stale s).pending = s.pending := rfl
@[simp] theorem takeInput_pending (port i g w p pkt s) : (takeInput port i g w p pkt s).pending = s.pending := by
  unfold takeInput
  extract_lets d es k e ins s₁
  (repeat' split) <;> simp [s₁]
@[simp] theorem takeResult_pending (i g w p pkt s) : (takeResult i g w p pkt s).pending = s.pending := by simp [takeResult]
@[simp] theorem execVc0Packet_answered (port pkt at_ s) : Answered s (execVc0Packet port pkt at_ s) := by
  unfold execVc0Packet; dsimp only; (repeat' split) <;> simp
@[simp] theorem execCalResolve_answered (value s) : Answered s (execCalResolve value s) := by simp [execCalResolve]
@[simp] theorem execCalResume_answered (s) : Answered s (execCalResume s) := by simp [execCalResume]

/-! ## Machine/Coherence.lean -/

@[simp] theorem l1Send_pending (kind e tag line off data s) : (l1Send kind e tag line off data s).pending = s.pending := by
  simp [l1Send]
@[simp] theorem execRdS_answered (eng tag line s) : Answered s (execRdS eng tag line s) := by simp [execRdS]
@[simp] theorem execRdX_answered (eng tag line off data s) : Answered s (execRdX eng tag line off data s) := by simp [execRdX]
@[simp] theorem execUpg_answered (eng tag line off data s) : Answered s (execUpg eng tag line off data s) := by
  unfold execUpg; split <;> simp
@[simp] theorem execEvict_answered (eng tag line s) : Answered s (execEvict eng tag line s) := by
  unfold execEvict; dsimp only; (repeat' split) <;> simp
@[simp] theorem execWb_answered (eng tag line s) : Answered s (execWb eng tag line s) := by
  unfold execWb; dsimp only; (repeat' split) <;> simp
@[simp] theorem execDataS_answered (eng tag line s) : Answered s (execDataS eng tag line s) := by simp [execDataS]
@[simp] theorem execDataE_answered (eng tag line s) : Answered s (execDataE eng tag line s) := by simp [execDataE]
@[simp] theorem execDataX_answered (eng tag line s) : Answered s (execDataX eng tag line s) := by simp [execDataX]
@[simp] theorem execUpgAck_answered (eng tag line s) : Answered s (execUpgAck eng tag line s) := by simp [execUpgAck]
@[simp] theorem execEvictAck_answered (eng tag line s) : Answered s (execEvictAck eng tag line s) := by
  unfold execEvictAck; split <;> simp
@[simp] theorem execWbAck_answered (eng tag line s) : Answered s (execWbAck eng tag line s) := by
  unfold execWbAck; split <;> simp
@[simp] theorem execWbSuperseded_answered (eng tag line s) : Answered s (execWbSuperseded eng tag line s) := by
  unfold execWbSuperseded; split <;> simp
@[simp] theorem receiveSnoop_pending (k e slice tag line s) : (receiveSnoop k e slice tag line s).pending = s.pending := by
  unfold receiveSnoop; split <;> simp
@[simp] theorem execSnpShare_answered (eng slice tag line s) : Answered s (execSnpShare eng slice tag line s) := by
  simp [execSnpShare]
@[simp] theorem execSnpInv_answered (eng slice tag line s) : Answered s (execSnpInv eng slice tag line s) := by simp [execSnpInv]
@[simp] theorem execSnpDiscard_answered (eng slice tag line s) : Answered s (execSnpDiscard eng slice tag line s) := by
  simp [execSnpDiscard]
@[simp] theorem execRspGone_answered (eng slice tag line s) : Answered s (execRspGone eng slice tag line s) := by
  simp [execRspGone]
@[simp] theorem execRspInv_answered (eng slice tag line s) : Answered s (execRspInv eng slice tag line s) := by simp [execRspInv]
@[simp] theorem execRspInvS_answered (eng slice tag line s) : Answered s (execRspInvS eng slice tag line s) := by
  simp [execRspInvS]
@[simp] theorem execRspData_answered (eng slice tag line s) : Answered s (execRspData eng slice tag line s) := by
  simp [execRspData]
@[simp] theorem execRspDataS_answered (eng slice tag line s) : Answered s (execRspDataS eng slice tag line s) := by
  simp [execRspDataS]
@[simp] theorem execSnoopTimeout_answered (slice tag s) : Answered s (execSnoopTimeout slice tag s) := by
  unfold execSnoopTimeout; split <;> simp
@[simp] theorem l1Walk_pending (inv e s) : (l1Walk inv e s).pending = s.pending := by simp [l1Walk]
@[simp] theorem cohSettle_pending (late s) : (cohSettle late s).pending = s.pending := rfl
@[simp] theorem l1FlushExcept_pending (late s) : (l1FlushExcept late s).pending = s.pending := by simp [l1FlushExcept]
@[simp] theorem l1FlushAll_pending (s) : (l1FlushAll s).pending = s.pending := by simp [l1FlushAll]
@[simp] theorem l1Lost_pending (s) : (l1Lost s).pending = s.pending := rfl
@[simp] theorem fenceGo_pending (kind s) : (fenceGo kind s).pending = s.pending := by simp [fenceGo]
@[simp] theorem execEngineFenceWb_answered (s) : Answered s (execEngineFenceWb s) := by simp [execEngineFenceWb]
@[simp] theorem execEngineFenceWbinv_answered (s) : Answered s (execEngineFenceWbinv s) := by simp [execEngineFenceWbinv]
@[simp] theorem execFabricFence_answered (s) : Answered s (execFabricFence s) := by simp [execFabricFence]
@[simp] theorem fenceEnd_pending (s) : (fenceEnd s).pending = s.pending := by simp [fenceEnd]
@[simp] theorem execEngineFenceComplete_answered (s) : Answered s (execEngineFenceComplete s) := by simp [execEngineFenceComplete]
@[simp] theorem execFabricFenceComplete_answered (s) : Answered s (execFabricFenceComplete s) := by simp [execFabricFenceComplete]

/-! ## Machine/Mmu.lean -/

@[simp] theorem mmuWalk_pending (req va n m k s) : (mmuWalk req va n m k s).2.pending = s.pending := by
  induction n generalizing m k s with
  | zero => rfl
  | succ n ih => simp [mmuWalk, ih]
@[simp] theorem tlbAdd_pending (e s) : (tlbAdd e s).pending = s.pending := by simp [tlbAdd]
@[simp] theorem mmuLeaf_pending (req asid va s) : (mmuLeaf req asid va s).2.pending = s.pending := by
  unfold mmuLeaf
  split
  · rfl
  · dsimp only
    split
    · simp
    · split <;> rename_i h <;> have k := congrArg (fun x => x.2.pending) h <;> simp at k <;> simp [← k]
@[simp] theorem mmuTranslate_pending (req asid va write touch s) :
    (mmuTranslate req asid va write touch s).2.2.pending = s.pending := by
  have k := mmuLeaf_pending req asid va s
  unfold mmuTranslate
  dsimp only
  split
  · rfl
  · split <;> rename_i h <;> rw [h] at k <;> simp at k <;> simp [k]
@[simp] theorem tlbDrop_pending (f s) : (tlbDrop f s).pending = s.pending := rfl
@[simp] theorem execMmuInval_answered (value s) : Answered s (execMmuInval value s) := by simp [execMmuInval]

/-! ## Machine/RowLogic.lean -/

@[simp] theorem fencePrologue_pending (rs s) : (fencePrologue rs s).pending = s.pending := by simp [fencePrologue]
@[simp] theorem discardLine_pending (line s) : (discardLine line s).pending = s.pending := by simp [discardLine]
@[simp] theorem fencePending_pending (s) : (fencePending s).pending = s.pending := rfl
@[simp] theorem fenceReport_pending (f s) : (fenceReport f s).pending = s.pending := by simp [fenceReport]
@[simp] theorem fenceIssue_pending (by_ who s) : (fenceIssue by_ who s).pending = s.pending := by simp [fenceIssue]
@[simp] theorem execRlFenceGo_answered (s) : Answered s (execRlFenceGo s) := by simp [execRlFenceGo]
@[simp] theorem execRlFenceComplete_answered (s) : Answered s (execRlFenceComplete s) := by
  unfold execRlFenceComplete; split <;> simp
@[simp] theorem setBatch_pending (st b s) : (setBatch st b s).pending = s.pending := rfl
@[simp] theorem rlReject_pending (st slot r s) : (rlReject st slot r s).pending = s.pending := by
  unfold rlReject; split <;> simp
@[simp] theorem rlAdmit_pending (unit desc slot s) : (rlAdmit unit desc slot s).pending = s.pending := by simp [rlAdmit]
@[simp] theorem execRowlogicBatchStart_answered (slot s) : Answered s (execRowlogicBatchStart slot s) := by
  simp [execRowlogicBatchStart]
@[simp] theorem execRlgSubmit_answered (stack value s) : Answered s (execRlgSubmit stack value s) := by simp [execRlgSubmit]
@[simp] theorem rlEnd_pending (st b s) : (rlEnd st b s).pending = s.pending := by simp [rlEnd]
@[simp] theorem rowWrite_pending (chan bank row bs poison s) : (rowWrite chan bank row bs poison s).pending = s.pending := by
  simp -implicitDefEqProofs [rowWrite]
@[simp] theorem accPut_pending (chan bank bs poison s) : (accPut chan bank bs poison s).pending = s.pending := rfl
@[simp] theorem rlEcc_pending (st sel rows ecc s) : (rlEcc st sel rows ecc s).pending = s.pending := by simp [rlEcc]
@[simp] theorem rlRun_pending {op stack ecc src effect} (h : ∀ c sel t, (effect c sel t).pending = t.pending) (s) :
    (rlRun op stack ecc src effect s).pending = s.pending := by
  unfold rlRun; dsimp only; (repeat' split) <;> simp [h]
@[simp] theorem bitwise_pending (f src c sel s) : (bitwise f src c sel s).pending = s.pending := by simp [bitwise]
@[simp] theorem execRlgNop_answered (stack s) : Answered s (execRlgNop stack s) := by simp [execRlgNop]
@[simp] theorem execCopy_answered (stack ecc s) : Answered s (execCopy stack ecc s) := by simp [execCopy]
@[simp] theorem execNot_answered (stack ecc s) : Answered s (execNot stack ecc s) := by simp [execNot]
@[simp] theorem execAnd_answered (stack ecc s) : Answered s (execAnd stack ecc s) := by simp [execAnd]
@[simp] theorem execOr_answered (stack ecc s) : Answered s (execOr stack ecc s) := by simp [execOr]
@[simp] theorem execXor_answered (stack ecc s) : Answered s (execXor stack ecc s) := by simp [execXor]
@[simp] theorem execMaj_answered (stack ecc s) : Answered s (execMaj stack ecc s) := by simp [execMaj]
@[simp] theorem execAccClear_answered (stack s) : Answered s (execAccClear stack s) := by
  simp -implicitDefEqProofs [execAccClear]
@[simp] theorem execAccLoad_answered (stack ecc s) : Answered s (execAccLoad stack ecc s) := by
  simp -implicitDefEqProofs [execAccLoad]
@[simp] theorem execAccAdd_answered (stack ecc s) : Answered s (execAccAdd stack ecc s) := by
  simp -implicitDefEqProofs [execAccAdd]
@[simp] theorem execAccStore_answered (stack s) : Answered s (execAccStore stack s) := by simp [execAccStore]
@[simp] theorem chain_pending (add c sel s) : (chain add c sel s).pending = s.pending := by simp [chain]
@[simp] theorem execChainMove_answered (stack s) : Answered s (execChainMove stack s) := by simp [execChainMove]
@[simp] theorem execChainAdd_answered (stack s) : Answered s (execChainAdd stack s) := by simp [execChainAdd]
@[simp] theorem rlSuspend_pending (st s) : (rlSuspend st s).pending = s.pending := by simp [rlSuspend]
@[simp] theorem rlResume_pending (st s) : (rlResume st s).pending = s.pending := by simp [rlResume]
@[simp] theorem rlReset_pending (s) : (rlReset s).pending = s.pending := by simp [rlReset]
@[simp] theorem execTgStart_answered (chan value s) : Answered s (execTgStart chan value s) := by simp [execTgStart]

/-! ## Machine/StrCore.lean -/

@[simp] theorem setStr_pending (c v s) : (setStr c v s).pending = s.pending := rfl
@[simp] theorem syncCtx_pending (c s) : (syncCtx c s).pending = s.pending := by
  unfold syncCtx; dsimp only; split <;> simp
@[simp] theorem strSync_pending (s) : (strSync s).pending = s.pending := by
  simp -implicitDefEqProofs [strSync]
@[simp] theorem strWait_pending (c why s) : (strWait c why s).pending = s.pending := rfl
@[simp] theorem strRun_pending (c s) : (strRun c s).pending = s.pending := rfl
@[simp] theorem strPc_pending (c n s) : (strPc c n s).pending = s.pending := rfl
@[simp] theorem strNext_pending (c s) : (strNext c s).pending = s.pending := rfl
@[simp] theorem strFault_pending (c kind va s) : (strFault c kind va s).pending = s.pending := by simp [strFault]
@[simp] theorem dropHeir_pending (c s) : (dropHeir c s).pending = s.pending := by
  simp -implicitDefEqProofs [dropHeir]
@[simp] theorem allocAt_pending (c i r sh s) : (allocAt c i r sh s).pending = s.pending := by simp [allocAt]
@[simp] theorem pushTile_pending (c base r sh s) : (pushTile c base r sh s).pending = s.pending := by simp [pushTile]
@[simp] theorem setA_pending (c i v s) : (setA c i v s).pending = s.pending := rfl
@[simp] theorem setL_pending (c i v s) : (setL c i v s).pending = s.pending := rfl
@[simp] theorem strStep_pending {op c f} (h : ∀ w t, (f w t).pending = t.pending) (s) :
    (strStep op c f s).pending = s.pending := by
  unfold strStep; dsimp only; (repeat' split) <;> simp [h]
@[simp] theorem strPieces_pending (c write k va n s) : (strPieces c write k va n s).2.2.pending = s.pending := by
  induction k generalizing va n s with
  | zero => rfl
  | succ k ih =>
    unfold strPieces
    split
    · rfl
    · split
      · rfl
      · dsimp only; split <;> simp [ih]
@[simp] theorem strRange_pending (c write va n s) : (strRange c write va n s).2.2.pending = s.pending := by simp [strRange]
@[simp] theorem strBegin_pending (c s) : (strBegin c s).pending = s.pending := rfl
@[simp] theorem strRelease_pending (c s) : (strRelease c s).pending = s.pending := rfl
@[simp] theorem strFill_pending (c bs poison s) : (strFill c bs poison s).pending = s.pending := rfl
@[simp] theorem dropTiles_pending (c s) : (dropTiles c s).pending = s.pending := rfl

/-! ## Machine/EngCore.lean -/

@[simp] theorem setEng_pending (e v s) : (setEng e v s).pending = s.pending := rfl
@[simp] theorem setStall_pending (e p s) : (setStall e p s).pending = s.pending := by simp [setStall]
@[simp] theorem noStall_pending (e s) : (noStall e s).pending = s.pending := by simp [noStall]
@[simp] theorem setV_pending (e b r l s) : (setV e b r l s).pending = s.pending := rfl
@[simp] theorem ruleStep_pending {op e f} (h : ∀ w b t, (f w b t).pending = t.pending) (s) :
    (ruleStep op e f s).pending = s.pending := by
  simp [ruleStep, h]
@[simp] theorem beat1_pending (f e w b t) : (beat1 f e w b t).pending = t.pending := rfl
@[simp] theorem beat2_pending (f e w b t) : (beat2 f e w b t).pending = t.pending := rfl
@[simp] theorem beat3_pending (f e w b t) : (beat3 f e w b t).pending = t.pending := rfl
@[simp] theorem laRead_pending (e a s) : (laRead e a s).2.2.2.pending = s.pending := by
  simp -implicitDefEqProofs [laRead]
@[simp] theorem laWrite_pending (e a v po s) : (laWrite e a v po s).pending = s.pending := by simp [laWrite]

/-! ## Machine/Rules.lean -/

@[simp] theorem ruleNopBeat_pending (_e _w _b t) : (ruleNopBeat _e _w _b t).pending = t.pending := rfl
@[simp] theorem execRuleNop_answered (eng s) : Answered s (execRuleNop eng s) := by
  simp -implicitDefEqProofs [execRuleNop]
@[simp] theorem vaddBeat_pending (e w b t) : (vaddBeat e w b t).pending = t.pending := rfl
@[simp] theorem execVadd_answered (eng s) : Answered s (execVadd eng s) := by
  simp -implicitDefEqProofs [execVadd]
@[simp] theorem vsubBeat_pending (e w b t) : (vsubBeat e w b t).pending = t.pending := rfl
@[simp] theorem execVsub_answered (eng s) : Answered s (execVsub eng s) := by
  simp -implicitDefEqProofs [execVsub]
@[simp] theorem vmulBeat_pending (e w b t) : (vmulBeat e w b t).pending = t.pending := rfl
@[simp] theorem execVmul_answered (eng s) : Answered s (execVmul eng s) := by
  simp -implicitDefEqProofs [execVmul]
@[simp] theorem vfmaBeat_pending (e w b t) : (vfmaBeat e w b t).pending = t.pending := rfl
@[simp] theorem execVfma_answered (eng s) : Answered s (execVfma eng s) := by
  simp -implicitDefEqProofs [execVfma]
@[simp] theorem vfnmaBeat_pending (e w b t) : (vfnmaBeat e w b t).pending = t.pending := rfl
@[simp] theorem execVfnma_answered (eng s) : Answered s (execVfnma eng s) := by
  simp -implicitDefEqProofs [execVfnma]
@[simp] theorem vmaxBeat_pending (e w b t) : (vmaxBeat e w b t).pending = t.pending := rfl
@[simp] theorem execVmax_answered (eng s) : Answered s (execVmax eng s) := by
  simp -implicitDefEqProofs [execVmax]
@[simp] theorem vminBeat_pending (e w b t) : (vminBeat e w b t).pending = t.pending := rfl
@[simp] theorem execVmin_answered (eng s) : Answered s (execVmin eng s) := by
  simp -implicitDefEqProofs [execVmin]
@[simp] theorem vabsBeat_pending (e w b t) : (vabsBeat e w b t).pending = t.pending := rfl
@[simp] theorem execVabs_answered (eng s) : Answered s (execVabs eng s) := by
  simp -implicitDefEqProofs [execVabs]
@[simp] theorem vnegBeat_pending (e w b t) : (vnegBeat e w b t).pending = t.pending := rfl
@[simp] theorem execVneg_answered (eng s) : Answered s (execVneg eng s) := by
  simp -implicitDefEqProofs [execVneg]
@[simp] theorem vsignBeat_pending (e w b t) : (vsignBeat e w b t).pending = t.pending := rfl
@[simp] theorem execVsign_answered (eng s) : Answered s (execVsign eng s) := by
  simp -implicitDefEqProofs [execVsign]
@[simp] theorem vselBeat_pending (e w b t) : (vselBeat e w b t).pending = t.pending := rfl
@[simp] theorem execVsel_answered (eng s) : Answered s (execVsel eng s) := by
  simp -implicitDefEqProofs [execVsel]
@[simp] theorem vcmpltBeat_pending (e w b t) : (vcmpltBeat e w b t).pending = t.pending := rfl
@[simp] theorem execVcmplt_answered (eng s) : Answered s (execVcmplt eng s) := by
  simp -implicitDefEqProofs [execVcmplt]
@[simp] theorem vrcpBeat_pending (e w b t) : (vrcpBeat e w b t).pending = t.pending := rfl
@[simp] theorem execVrcp_answered (eng s) : Answered s (execVrcp eng s) := by
  simp -implicitDefEqProofs [execVrcp]
@[simp] theorem vsqrtBeat_pending (e w b t) : (vsqrtBeat e w b t).pending = t.pending := rfl
@[simp] theorem execVsqrt_answered (eng s) : Answered s (execVsqrt eng s) := by
  simp -implicitDefEqProofs [execVsqrt]
@[simp] theorem vrsqrtBeat_pending (e w b t) : (vrsqrtBeat e w b t).pending = t.pending := rfl
@[simp] theorem execVrsqrt_answered (eng s) : Answered s (execVrsqrt eng s) := by
  simp -implicitDefEqProofs [execVrsqrt]
@[simp] theorem vdivBeat_pending (e w b t) : (vdivBeat e w b t).pending = t.pending := rfl
@[simp] theorem execVdiv_answered (eng s) : Answered s (execVdiv eng s) := by
  simp -implicitDefEqProofs [execVdiv]
@[simp] theorem drawLanes_pending (e s) : (drawLanes e s).2.pending = s.pending := rfl
@[simp] theorem vrndBeat_pending (e w b t) : (vrndBeat e w b t).pending = t.pending := by simp [vrndBeat]
@[simp] theorem execVrnd_answered (eng s) : Answered s (execVrnd eng s) := by simp [execVrnd]
@[simp] theorem emsetBeat_pending (e w b t) : (emsetBeat e w b t).pending = t.pending := rfl
@[simp] theorem execEmset_answered (eng s) : Answered s (execEmset eng s) := by
  simp -implicitDefEqProofs [execEmset]
@[simp] theorem emPut_pending (e b d f poison s) : (emPut e b d f poison s).pending = s.pending := rfl
@[simp] theorem emaddBeat_pending (e w b t) : (emaddBeat e w b t).pending = t.pending := rfl
@[simp] theorem execEmadd_answered (eng s) : Answered s (execEmadd eng s) := by
  simp -implicitDefEqProofs [execEmadd]
@[simp] theorem emupdBeat_pending (e w b t) : (emupdBeat e w b t).pending = t.pending := rfl
@[simp] theorem execEmupd_answered (eng s) : Answered s (execEmupd eng s) := by
  simp -implicitDefEqProofs [execEmupd]
@[simp] theorem emrndBeat_pending (e w b t) : (emrndBeat e w b t).pending = t.pending := rfl
@[simp] theorem execEmrnd_answered (eng s) : Answered s (execEmrnd eng s) := by
  simp -implicitDefEqProofs [execEmrnd]
@[simp] theorem srbfBeat_pending (e w b t) : (srbfBeat e w b t).pending = t.pending := rfl
@[simp] theorem execSrbf_answered (eng s) : Answered s (execSrbf eng s) := by
  simp -implicitDefEqProofs [execSrbf]
@[simp] theorem rnbfBeat_pending (e w b t) : (rnbfBeat e w b t).pending = t.pending := rfl
@[simp] theorem execRnbf_answered (eng s) : Answered s (execRnbf eng s) := by
  simp -implicitDefEqProofs [execRnbf]
@[simp] theorem vldBeat_pending (e w b t) : (vldBeat e w b t).pending = t.pending := by simp [vldBeat]
@[simp] theorem execVld_answered (eng s) : Answered s (execVld eng s) := by simp [execVld]
@[simp] theorem vstBeat_pending (e w b t) : (vstBeat e w b t).pending = t.pending := by simp [vstBeat]
@[simp] theorem execVst_answered (eng s) : Answered s (execVst eng s) := by simp [execVst]
@[simp] theorem vaccBeat_pending (e w b t) : (vaccBeat e w b t).pending = t.pending := by simp [vaccBeat]
@[simp] theorem execVacc_answered (eng s) : Answered s (execVacc eng s) := by simp [execVacc]
@[simp] theorem vrsumBeat_pending (e w b t) : (vrsumBeat e w b t).pending = t.pending := by simp [vrsumBeat]
@[simp] theorem execVrsum_answered (eng s) : Answered s (execVrsum eng s) := by simp [execVrsum]
@[simp] theorem qstatBeat_pending (e w b t) : (qstatBeat e w b t).pending = t.pending := rfl
@[simp] theorem execQstat_answered (eng s) : Answered s (execQstat eng s) := by
  simp -implicitDefEqProofs [execQstat]
@[simp] theorem ruleBeat_pending (e w b t) : (ruleBeat e w b t).pending = t.pending := by simp [ruleBeat]
@[simp] theorem execRuleEnd_answered (eng s) : Answered s (execRuleEnd eng s) := by
  unfold execRuleEnd; dsimp only; (repeat' split) <;> simp

/-! ## Machine/Engines.lean -/

@[simp] theorem engReject_pending (e slot r s) : (engReject e slot r s).pending = s.pending := by
  unfold engReject; dsimp only; split <;> simp
@[simp] theorem seedKeyed_pending (e s) : (seedKeyed e s).pending = s.pending := rfl
@[simp] theorem ungate_pending (u s) : (ungate u s).pending = s.pending := rfl
@[simp] theorem engAdmit_pending (e at_ slot s) : (engAdmit e at_ slot s).pending = s.pending := by
  simp -implicitDefEqProofs [engAdmit]
@[simp] theorem setWin_pending (p w s) : (setWin p w s).pending = s.pending := rfl
@[simp] theorem kvBorrow_pending (s) : (kvBorrow s).pending = s.pending :=
  foldl_pending (fun t p => by dsimp only; split <;> simp) _ _
@[simp] theorem execEngineBatchStart_answered (slot s) : Answered s (execEngineBatchStart slot s) := by
  simp [execEngineBatchStart]
@[simp] theorem execEngineSubmit_answered (eng value s) : Answered s (execEngineSubmit eng value s) := by simp [execEngineSubmit]
@[simp] theorem writePort_pending (e p s) : (writePort e p s).pending = s.pending := by
  unfold writePort; dsimp only; (repeat' split) <;> simp
@[simp] theorem closeOut_pending (e p s) : (closeOut e p s).pending = s.pending := rfl
@[simp] theorem writeQuad_pending (e s) : (writeQuad e s).pending = s.pending := by
  simp -implicitDefEqProofs [writeQuad]
@[simp] theorem readPort_pending (e p q s) : (readPort e p q s).pending = s.pending := by
  unfold readPort; dsimp only; (repeat' split) <;> simp -implicitDefEqProofs
@[simp] theorem readStatus_pending (e q s) : (readStatus e q s).pending = s.pending := by
  unfold readStatus; dsimp only; split <;> simp
@[simp] theorem readQuad_pending (e s) : (readQuad e s).pending = s.pending := by simp [readQuad]
@[simp] theorem clearConsts_pending (e s) : (clearConsts e s).pending = s.pending := by
  simp -implicitDefEqProofs [clearConsts]
@[simp] theorem engHalted_pending (e s) : (engHalted e s).pending = s.pending := by simp [engHalted]
@[simp] theorem countFetch_pending (e reads writes s) : (countFetch e reads writes s).pending = s.pending := by simp [countFetch]
theorem tryHalt_pending {e s t} (h : tryHalt e s = some t) : t.pending = s.pending := by
  unfold tryHalt at h; dsimp only at h
  (repeat' split at h) <;> simp at h <;> subst h <;> simp
@[simp] theorem execEngineFetch_answered (eng s) : Answered s (execEngineFetch eng s) := by
  refine answered_whole (fun t => ?_) s
  dsimp only
  split
  · simp
  · split
    · simp
    · split
      · rename_i h; simpa using tryHalt_pending h
      · split <;> simp
@[simp] theorem execEngineBatchComplete_answered (eng s) : Answered s (execEngineBatchComplete eng s) := by
  simp -implicitDefEqProofs [execEngineBatchComplete]
@[simp] theorem engHalt_pending (e s) : (engHalt e s).pending = s.pending := by
  unfold engHalt
  dsimp only
  split
  · rfl
  · split
    · split
      · rename_i h; simpa using tryHalt_pending h
      · rfl
    · rfl
@[simp] theorem execEngineHalt_answered (eng s) : Answered s (execEngineHalt eng s) := by simp [execEngineHalt]
@[simp] theorem execEngineSave_answered (eng s) : Answered s (execEngineSave eng s) := by simp [execEngineSave]
@[simp] theorem execEngineRestore_answered (eng s) : Answered s (execEngineRestore eng s) := by
  simp -implicitDefEqProofs [execEngineRestore]
@[simp] theorem ruleWrite_pending (e i v s) : (ruleWrite e i v s).pending = s.pending := by simp [ruleWrite]
@[simp] theorem execRuleStoreWrite_answered (eng index value s) : Answered s (execRuleStoreWrite eng index value s) := by
  simp [execRuleStoreWrite]
@[simp] theorem resumeRepeats_pending (l s) : (resumeRepeats l s).pending = s.pending := by simp [resumeRepeats]
@[simp] theorem deriveRun_pending (e r s) : (deriveRun e r s).pending = s.pending := by simp [deriveRun]
@[simp] theorem execDerivePass_answered (eng s) : Answered s (execDerivePass eng s) := by
  refine answered_whole (fun t => ?_) s
  dsimp only
  split <;> simp
@[simp] theorem engClear_pending (s) : (engClear s).pending = s.pending := rfl

/-! ## Machine/Random.lean -/

@[simp] theorem healthSample_pending (x s) : (healthSample x s).2.pending = s.pending := by simp [healthSample]
@[simp] theorem healthAll_pending (l s) : (healthAll l s).2.pending = s.pending := by simp [healthAll]
@[simp] theorem seedStop_pending (s) : (seedStop s).pending = s.pending := rfl
@[simp] theorem seedLane_pending (e l v s) : (seedLane e l v s).pending = s.pending := rfl
@[simp] theorem seedFeed_pending (n s) : (seedFeed n s).pending = s.pending := by
  fun_induction seedFeed <;> simp_all
@[simp] theorem rngSeedTake_pending (s) : (rngSeedTake s).2.pending = s.pending := by
  unfold rngSeedTake; split <;> simp
@[simp] theorem execRngSeedRead_answered (s) : Answered s (execRngSeedRead s) := by simp [execRngSeedRead]
@[simp] theorem sourceTest_pending (s) : (sourceTest s).pending = s.pending := rfl
@[simp] theorem sourceEnable_pending (on s) : (sourceEnable on s).pending = s.pending := by simp [sourceEnable]
@[simp] theorem execRetest_answered (s) : Answered s (execRetest s) := by simp [execRetest]
@[simp] theorem execStartupTestDone_answered (samples s) : Answered s (execStartupTestDone samples s) := by
  simp [execStartupTestDone]
@[simp] theorem sourceFail_pending (s) : (sourceFail s).pending = s.pending := by simp [sourceFail]
@[simp] theorem execNoiseBlock_answered (samples s) : Answered s (execNoiseBlock samples s) := by simp [execNoiseBlock]
@[simp] theorem execLfsrSeed_answered (value s) : Answered s (execLfsrSeed value s) := by
  simp -implicitDefEqProofs [execLfsrSeed]
@[simp] theorem execSeedDone_answered (s) : Answered s (execSeedDone s) := by simp [execSeedDone]
@[simp] theorem polyCheck_pending (s) : (polyCheck s).pending = s.pending := by
  simp -implicitDefEqProofs [polyCheck]

/-! ## Machine/RegLook.lean -/

@[simp] theorem clampFld_pending (f lo hi s) : (clampFld f lo hi s).pending = s.pending := rfl
@[simp] theorem clearRegs_pending (kind s) : (clearRegs kind s).pending = s.pending := rfl
@[simp] theorem clearFb_pending (s) : (clearFb s).pending = s.pending := rfl

/-! ## Machine/Tick.lean -/

@[simp] theorem forwardBeacon_pending (p b fwd s) : (forwardBeacon p b fwd s).pending = s.pending := by simp [forwardBeacon]
@[simp] theorem acceptSource_pending (b s) : (acceptSource b s).pending = s.pending := by simp [acceptSource]
@[simp] theorem lockLost_pending (s) : (lockLost s).pending = s.pending := by simp [lockLost]
@[simp] theorem acquire_pending (p b edge s) : (acquire p b edge s).pending = s.pending := by
  unfold acquire; dsimp only; split <;> simp
@[simp] theorem correctPhase_pending (pred edge s) : (correctPhase pred edge s).pending = s.pending := by simp [correctPhase]
@[simp] theorem compareSwitch_pending (n announced at_ plan s) : (compareSwitch n announced at_ plan s).pending = s.pending := by
  simp [compareSwitch]
@[simp] theorem tickBeacon_pending (b edge timed s) : (tickBeacon b edge timed s).pending = s.pending := by
  unfold tickBeacon; dsimp only; (repeat' split) <;> simp
@[simp] theorem clockFollow_pending (p s) : (clockFollow p s).pending = s.pending := by simp [clockFollow]
@[simp] theorem acceptBeacon_pending (p b s) : (acceptBeacon p b s).pending = s.pending := by
  unfold acceptBeacon; dsimp only; split <;> simp
@[simp] theorem execBeaconReceive_answered (port msg at_ fwd replayed s) :
    Answered s (execBeaconReceive port msg at_ fwd replayed s) := by
  simp [execBeaconReceive]
@[simp] theorem execBeaconMiss_answered (s) : Answered s (execBeaconMiss s) := by simp [execBeaconMiss]
@[simp] theorem execLockLost_answered (s) : Answered s (execLockLost s) := by simp [execLockLost]
@[simp] theorem launchTick_pending (s) : (launchTick s).pending = s.pending := by simp [launchTick]
@[simp] theorem becomeTk_pending (epoch s) : (becomeTk epoch s).pending = s.pending := by simp [becomeTk]
@[simp] theorem execTakeover_answered (s) : Answered s (execTakeover s) := by simp [execTakeover]
@[simp] theorem sendUp_pending (msg s) : (sendUp msg s).pending = s.pending := by
  unfold sendUp; split <;> simp
@[simp] theorem takeTotal_pending (total at_ s) : (takeTotal total at_ s).pending = s.pending := by simp [takeTotal]
@[simp] theorem upTotal_pending (total msg s) : (upTotal total msg s).pending = s.pending := by simp [upTotal]
@[simp] theorem execHoldRequestSend_answered (estimates hot s) : Answered s (execHoldRequestSend estimates hot s) := by
  simp [execHoldRequestSend]
@[simp] theorem execHoldRequest_answered (port msg at_ s) : Answered s (execHoldRequest port msg at_ s) := by
  simp [execHoldRequest]
@[simp] theorem takeNotice_pending (s) : (takeNotice s).pending = s.pending := by
  unfold takeNotice; dsimp only; (repeat' split) <;> simp
@[simp] theorem execLateNotice_answered (port msg at_ s) : Answered s (execLateNotice port msg at_ s) := by simp [execLateNotice]
@[simp] theorem abortShort_pending (l s) : (abortShort l s).pending = s.pending := by simp [abortShort]
@[simp] theorem finalDeadline_pending (s) : (finalDeadline s).pending = s.pending := by simp [finalDeadline]
@[simp] theorem execHoldRoundDeadline_answered (s) : Answered s (execHoldRoundDeadline s) := by simp [execHoldRoundDeadline]
@[simp] theorem edgeSlip_pending (k ext s) : (edgeSlip k ext s).pending = s.pending := by simp [edgeSlip]
@[simp] theorem takeGrant_pending (tick ext s) : (takeGrant tick ext s).pending = s.pending := by simp [takeGrant]
@[simp] theorem execHoldGrant_answered (port msg at_ fwd s) : Answered s (execHoldGrant port msg at_ fwd s) := by
  simp [execHoldGrant]
@[simp] theorem execVerdictAccept_answered (port msg at_ fwd s) : Answered s (execVerdictAccept port msg at_ fwd s) := by
  simp [execVerdictAccept]

/-! ## Machine/Boot.lean -/

@[simp] theorem showFuses_pending (s) : (showFuses s).pending = s.pending := rfl
@[simp] theorem execDieResetRelease_answered (s) : Answered s (execDieResetRelease s) := by simp [execDieResetRelease]
@[simp] theorem applyDefault_pending (e s) : (applyDefault e s).pending = s.pending := by
  unfold applyDefault; split <;> simp -implicitDefEqProofs
@[simp] theorem enableParts_pending (mask s) : (enableParts mask s).2.pending = s.pending := by simp [enableParts]
@[simp] theorem slotFails_pending (k reason sec s) : (slotFails k reason sec s).pending = s.pending := by simp [slotFails]
@[simp] theorem execImageSlotVerify_answered (flashOk s) : Answered s (execImageSlotVerify flashOk s) := by
  unfold execImageSlotVerify; (repeat' split) <;> simp -implicitDefEqProofs
@[simp] theorem applyNode_pending (b s) : (applyNode b s).pending = s.pending := rfl
@[simp] theorem deriveImage_pending (s) : (deriveImage s).pending = s.pending := by simp [deriveImage]
@[simp] theorem endImage_pending (k s) : (endImage k s).pending = s.pending := by
  unfold endImage
  extract_lets h l sec fw d s₁ s₂ s₃ s₄ s₅ s₆
  have h₄ : s₄.pending = s.pending := by simp [s₄, s₃, s₂, s₁]
  rw [each_pending (fun p t => toDetect_pending p t)]
  simp only [s₆]
  split
  · exact h₄
  · simp [h₄,s₅]
@[simp] theorem execCoreReady_answered (core s) : Answered s (execCoreReady core s) := by
  unfold execCoreReady; dsimp only; (repeat' split) <;> simp
@[simp] theorem execCoreReadyTimeout_answered (core s) : Answered s (execCoreReadyTimeout core s) := by
  unfold execCoreReadyTimeout; split <;> simp
@[simp] theorem takeSpare_pending (r s) : (takeSpare r s).pending = s.pending := rfl
@[simp] theorem logState_pending (half i v s) : (logState half i v s).pending = s.pending := rfl
@[simp] theorem logHandle_pending (half fails acc x) : (logHandle half fails acc x).2.pending = acc.2.pending := by
  unfold logHandle
  dsimp only
  (repeat' split) <;> simp
@[simp] theorem rebuildRemaps_pending (fails s) : (rebuildRemaps fails s).pending = s.pending := by
  simp -implicitDefEqProofs [rebuildRemaps]
@[simp] theorem laneRepair_pending (c l s) : (laneRepair c l s).pending = s.pending := by simp [laneRepair]
@[simp] theorem trainingFails_pending (pcs chs lanes s) : (trainingFails pcs chs lanes s).pending = s.pending := by
  simp [trainingFails]
@[simp] theorem execMemoryReady_answered (failedPc failedCh lanes repairFails s) :
    Answered s (execMemoryReady failedPc failedCh lanes repairFails s) := by
  simp [execMemoryReady]
@[simp] theorem execChannelZeroed_answered (chan s) : Answered s (execChannelZeroed chan s) := by simp [execChannelZeroed]
@[simp] theorem execDomainStart_answered (s) : Answered s (execDomainStart s) := by simp [execDomainStart]
@[simp] theorem forcedFault_pending (s) : (forcedFault s).pending = s.pending := by simp [forcedFault]
@[simp] theorem copyRing_pending (s) : (copyRing s).pending = s.pending := by simp [copyRing]
@[simp] theorem execReadyForPlan_answered (s) : Answered s (execReadyForPlan s) := by simp [execReadyForPlan]
@[simp] theorem execBootLate_answered (s) : Answered s (execBootLate s) := by simp [execBootLate]

/-! ## Machine/Claims.lean -/

@[simp] theorem execClaimAck_answered (port id s) : Answered s (execClaimAck port id s) := by simp [execClaimAck]
@[simp] theorem execCoalesceExpiry_answered (s) : Answered s (execCoalesceExpiry s) := by
  unfold execCoalesceExpiry; split <;> simp

/-! ## Machine/Plan.lean -/

@[simp] theorem planCheck_pending (s) : (planCheck s).pending = s.pending := rfl
@[simp] theorem planWrite_pending (b o bs s) : (planWrite b o bs s).pending = s.pending := by simp [planWrite]
@[simp] theorem execPlanBankWrite_answered (bank off data s) : Answered s (execPlanBankWrite bank off data s) := by
  simp [execPlanBankWrite]
@[simp] theorem disarm_pending (s) : (disarm s).pending = s.pending := by simp [disarm]
@[simp] theorem execArm_answered (force s) : Answered s (execArm force s) := by simp [execArm]
@[simp] theorem execDisarm_answered (s) : Answered s (execDisarm s) := by simp [execDisarm]

/-! ## Machine/HostCore.lean -/

@[simp] theorem hostRead_pending (q tag purpose off addr n s) : (hostRead q tag purpose off addr n s).pending = s.pending := rfl
@[simp] theorem fetchEntries_pending (q n s) : (fetchEntries q n s).pending = s.pending := by
  induction n generalizing s with
  | zero => rfl
  | succ n ih =>
    unfold fetchEntries
    dsimp only
    split
    · rfl
    · split
      · rfl
      · rw [ih]; simp
@[simp] theorem fetchData_pending (q n s) : (fetchData q n s).pending = s.pending := by
  fun_induction fetchData <;> simp_all
@[simp] theorem deliver_pending (q bs quiet s) : (deliver q bs quiet s).pending = s.pending := by simp [deliver]
@[simp] theorem finish_pending (q status detail value s) : (finish q status detail value s).pending = s.pending := by
  unfold finish; split <;> simp
@[simp] theorem startNext_pending (q n s) : (startNext q n s).pending = s.pending := by
  induction n generalizing s with
  | zero => rfl
  | succ n ih =>
    unfold startNext
    dsimp only
    (repeat' split) <;> simp [ih]
@[simp] theorem pumpQueues_pending (s) : (pumpQueues s).pending = s.pending := by simp [pumpQueues]
@[simp] theorem complete_pending (q status detail value s) : (complete q status detail value s).pending = s.pending := by
  simp [complete]
@[simp] theorem readFails_pending (r code s) : (readFails r code s).pending = s.pending := by simp [readFails]
@[simp] theorem readArrives_pending (r data s) : (readArrives r data s).pending = s.pending := by simp [readArrives]
@[simp] theorem queuesLost_pending (s) : (queuesLost s).pending = s.pending := by
  simp -implicitDefEqProofs [queuesLost]

/-! ## Machine/Matrix.lean -/

@[simp] theorem mxaLoad_pending (a n size hint uses s) : (mxaLoad a n size hint uses s).2.pending = s.pending := by simp [mxaLoad]
@[simp] theorem mxaLoads_pending (l n size hint uses s) : (mxaLoads l n size hint uses s).2.pending = s.pending := by
  simp [mxaLoads]
@[simp] theorem mxaStart_pending (d x s) : (mxaStart d x s).2.pending = s.pending := by simp [mxaStart]
@[simp] theorem mxaWeights_pending (d x s) : (mxaWeights d x s).2.pending = s.pending := by simp [mxaWeights]
@[simp] theorem mxaWrite_pending (d x acc s) : (mxaWrite d x acc s).pending = s.pending := by
  refine foldl_pending (fun t r => ?_) _ _
  dsimp only
  (repeat' split) <;> simp
@[simp] theorem mxaReject_pending (source slot r s) : (mxaReject source slot r s).pending = s.pending := by
  unfold mxaReject; split <;> simp
@[simp] theorem mxaTake_pending (source slot d bad s) : (mxaTake source slot d bad s).pending = s.pending := by simp [mxaTake]
@[simp] theorem mxaAdmit_pending (source desc slot s) : (mxaAdmit source desc slot s).pending = s.pending := by simp [mxaAdmit]
@[simp] theorem execMatrixJobStart_answered (slot s) : Answered s (execMatrixJobStart slot s) := by simp [execMatrixJobStart]
@[simp] theorem execMxaSubmit_answered (value s) : Answered s (execMxaSubmit value s) := by simp [execMxaSubmit]
@[simp] theorem mxaPass_pending (s) : (mxaPass s).pending = s.pending := by
  unfold mxaPass; split <;> simp
@[simp] theorem execMatrixPass_answered (s) : Answered s (execMatrixPass s) := by simp [execMatrixPass]
@[simp] theorem mxaFinish_pending (s) : (mxaFinish s).pending = s.pending := by
  unfold mxaFinish; split <;> simp
@[simp] theorem execMatrixJobComplete_answered (s) : Answered s (execMatrixJobComplete s) := by simp [execMatrixJobComplete]
@[simp] theorem mxaPassMany_pending (n s) : (mxaPassMany n s).pending = s.pending := by
  fun_induction mxaPassMany <;> simp_all
@[simp] theorem mxaWhole_pending (d s) : (mxaWhole d s).2.pending = s.pending := by
  unfold mxaWhole; dsimp only; split <;> simp
@[simp] theorem mxaAbandon_pending (s) : (mxaAbandon s).pending = s.pending := by
  unfold mxaAbandon; split <;> simp

/-! ## Machine/KvCore.lean -/

@[simp] theorem putNat_pending (a n v s) : (putNat a n v s).pending = s.pending := by simp [putNat]
@[simp] theorem putSeq_pending (d q opened grove tokens hash spans s) :
    (putSeq d q opened grove tokens hash spans s).pending = s.pending := by
  simp [putSeq]
@[simp] theorem putStab_pending (d q n r s) : (putStab d q n r s).pending = s.pending := by simp [putStab]
@[simp] theorem setRefs_pending (d r v s) : (setRefs d r v s).pending = s.pending := by simp [setRefs]
@[simp] theorem setRecState_pending (d r v s) : (setRecState d r v s).pending = s.pending := by simp [setRecState]
@[simp] theorem stampRec_pending (d r s) : (stampRec d r s).pending = s.pending := by simp [stampRec]
@[simp] theorem setPageRefs_pending (d i v s) : (setPageRefs d i v s).pending = s.pending := by simp [setPageRefs]
@[simp] theorem labDrop_pending (f s) : (labDrop f s).pending = s.pending := rfl
@[simp] theorem putPage_pending (p d r lp page s) : (putPage p d r lp page s).pending = s.pending := by simp [putPage]
@[simp] theorem mapPage_pending (d q n lp page s) : (mapPage d q n lp page s).pending = s.pending := by
  unfold mapPage; dsimp only; (repeat' split) <;> simp
@[simp] theorem mapRecord_pending (d q n r s) : (mapRecord d q n r s).pending = s.pending := by simp [mapRecord]
@[simp] theorem unmapRecord_pending (d q n r s) : (unmapRecord d q n r s).pending = s.pending := by simp [unmapRecord]
@[simp] theorem setFreeCount_pending (p d v s) : (setFreeCount p d v s).pending = s.pending := by simp [setFreeCount]
@[simp] theorem kvTakePage_pending (p d s) : (kvTakePage p d s).2.pending = s.pending := by simp [kvTakePage]
@[simp] theorem dropPage_pending (p d i s) : (dropPage p d i s).pending = s.pending := by simp [dropPage]
@[simp] theorem copyPage_pending (d i j s) : (copyPage d i j s).pending = s.pending := by simp [copyPage]
@[simp] theorem groveRemove_pending (d r s) : (groveRemove d r s).pending = s.pending := by
  unfold groveRemove
  split
  · rfl
  · exact each_pending (fun h t => by split <;> simp) _ _
@[simp] theorem emptyRecord_pending (p d r s) : (emptyRecord p d r s).pending = s.pending := by simp [emptyRecord]
@[simp] theorem unrefRecord_pending (p d r s) : (unrefRecord p d r s).pending = s.pending := by simp [unrefRecord]
@[simp] theorem dropRecord_pending (p d r s) : (dropRecord p d r s).pending = s.pending := by simp [dropRecord]
@[simp] theorem makeRoom_pending (p d qs need n s) : (makeRoom p d qs need n s).2.pending = s.pending := by
  fun_induction makeRoom <;> simp_all
@[simp] theorem newRecord_pending (d q n r s) : (newRecord d q n r s).pending = s.pending := by simp [newRecord]
@[simp] theorem kvRecord_pending (p d q n anew s) : (writeRecord_ p d q n anew s).pending = s.pending := by
  unfold writeRecord_; split <;> simp
@[simp] theorem writePage_pending (p d q n lp s) : (writePage p d q n lp s).pending = s.pending := by
  unfold writePage
  split
  · rfl
  · split
    · dsimp only
      rw [mapPage_pending, putPage_pending]
      split
      · rw [store_pending, kvTakePage_pending]
      · rw [kvTakePage_pending]
    · split <;> simp
@[simp] theorem labLookup_pending (p d r lp s) : (labLookup p d r lp s).2.pending = s.pending := by
  unfold labLookup; dsimp only; (repeat' split) <;> simp
@[simp] theorem pageOf_pending (p d q n lp write s) : (pageOf p d q n lp write s).2.pending = s.pending := by
  unfold pageOf; split <;> simp
@[simp] theorem firstFault_pending (d q l write s) : (firstFault d q l write s).2.pending = s.pending := by
  unfold firstFault; split
  · rfl
  · refine foldl_snd_pending _ (fun x a => ?_) _
    split
    · rfl
    · dsimp only; split <;> simp
@[simp] theorem touchMeta_pending (d q t n s) : (touchMeta d q t n s).pending = s.pending :=
  each_pending (fun k t => by split <;> simp) _ _
@[simp] theorem bufRead_pending (a n s) : (bufRead a n s).2.pending = s.pending := by simp [bufRead]
@[simp] theorem bufWrite_pending (a bf16 l s) : (bufWrite a bf16 l s).pending = s.pending := by
  unfold bufWrite; dsimp only; split <;> simp
@[simp] theorem ropeProgram_pending (e n m s) : (ropeProgram e n m s).pending = s.pending := by
  fun_induction ropeProgram <;> simp_all
@[simp] theorem rotate_pending (d e pos l s) : (rotate d e pos l s).2.pending = s.pending := by simp [rotate]
@[simp] theorem loadRun_pending (p d q layer head kind run s) : (loadRun p d q layer head kind run s).2.pending = s.pending := by
  unfold loadRun; dsimp only; split <;> simp
@[simp] theorem expandRun_pending (p d q layer j e base run s) :
    (expandRun p d q layer j e base run s).2.pending = s.pending := by
  unfold expandRun; dsimp only; split <;> simp
@[simp] theorem loadKv_pending (p d q layer j e t n s) : (loadKv p d q layer j e t n s).2.pending = s.pending := by simp [loadKv]

/-! ## Machine/Kv.lean -/

@[simp] theorem execPoolLoad_answered (pool s) : Answered s (execPoolLoad pool s) := by simp [execPoolLoad]
@[simp] theorem execPoolUnload_answered (pool s) : Answered s (execPoolUnload pool s) := by simp [execPoolUnload]
@[simp] theorem execLabFlush_answered (pool s) : Answered s (execLabFlush pool s) := by simp [execLabFlush]
@[simp] theorem winClose_pending (p s) : (winClose p s).pending = s.pending := by
  unfold winClose; split <;> simp
@[simp] theorem winDrained_pending (p s) : (winDrained p s).pending = s.pending := by
  unfold winDrained; split <;> simp
@[simp] theorem winOpen_pending (i p b bad s) : (winOpen i p b bad s).pending = s.pending := by simp [winOpen]
@[simp] theorem execKvWindowStart_answered (slot s) : Answered s (execKvWindowStart slot s) := by simp [execKvWindowStart]
@[simp] theorem execKvRequestAccept_answered (pool s) : Answered s (execKvRequestAccept pool s) := by
  refine answered_whole (fun t => ?_) s
  dsimp only
  split <;> simp
@[simp] theorem execKvWindowEnd_answered (pool s) : Answered s (execKvWindowEnd pool s) := by
  unfold execKvWindowEnd; dsimp only; split <;> simp
@[simp] theorem kvComplete_pending (p r x s) : (kvComplete p r x s).pending = s.pending := by simp [kvComplete]
@[simp] theorem kvRetryAll_pending (p s) : (kvRetryAll p s).pending = s.pending := by
  unfold kvRetryAll; split <;> simp
@[simp] theorem kvChecked_pending {d w r f} (h : ∀ t, (f t).2.pending = t.pending) (s) :
    (kvChecked d w r f s).2.pending = s.pending := by
  simp [kvChecked, h]
@[simp] theorem kvStamp_pending (d r s) : (kvStamp d r s).pending = s.pending := by simp [kvStamp]
@[simp] theorem kvTaken_pending (p w s) : (kvTaken p w s).pending = s.pending := rfl
@[simp] theorem kvRun_pending {op p f} (h : ∀ d w r t, (f d w r t).2.pending = t.pending) (s) :
    (kvRun op p f s).pending = s.pending := by
  unfold kvRun; dsimp only; (repeat' split) <;> simp [h]
@[simp] theorem nameRecord_pending (d q n r s) : (nameRecord d q n r s).pending = s.pending := by simp [nameRecord]
@[simp] theorem kvOpenDo_pending (d r s) : (kvOpenDo d r s).2.pending = s.pending := by simp [kvOpenDo]
@[simp] theorem execKvOpen_answered (pool s) : Answered s (execKvOpen pool s) := by simp [execKvOpen]
@[simp] theorem kvForkDo_pending (d r s) : (kvForkDo d r s).2.pending = s.pending := by
  unfold kvForkDo
  dsimp only
  rw [putSeq_pending]
  exact foldl_pending (fun t k => by split <;> simp) _ _
@[simp] theorem execFork_answered (pool s) : Answered s (execFork pool s) := by simp [execFork]
@[simp] theorem kvReleaseDo_pending (p d r s) : (kvReleaseDo p d r s).2.pending = s.pending := by simp [kvReleaseDo]
@[simp] theorem execRelease_answered (pool s) : Answered s (execRelease pool s) := by simp [execRelease]
@[simp] theorem kvPrepare_pending (p d r s) : (kvPrepare p d r s).2.pending = s.pending := by
  unfold kvPrepare
  extract_lets q pages ns anew fresh need recs
  split
  · rfl
  · have hm := makeRoom_pending p d [q] need (kvSpanMax d) s
    split
    rename_i ok t e
    rw [e] at hm
    split
    · exact hm
    · have hf := firstFault_pending d q pages true t
      split <;> rename_i e <;> rw [e] at hf
      · exact hf.trans hm
      · simpa using hf.trans hm
@[simp] theorem completedHash_pending (d r hp b s) : (completedHash d r hp b s).2.pending = s.pending := by simp [completedHash]
@[simp] theorem appendMeta_pending (d r again s) : (appendMeta d r again s).pending = s.pending := by simp [appendMeta]
@[simp] theorem writeVec_pending (p d q layer head kind t l s) : (writeVec p d q layer head kind t l s).pending = s.pending := by
  unfold writeVec; dsimp only; split <;> simp
@[simp] theorem groveInsert_pending (p d q b s) : (groveInsert p d q b s).pending = s.pending := by
  unfold groveInsert; dsimp only; (repeat' split) <;> simp
@[simp] theorem appendLayer_pending (p d w r s) : (appendLayer p d w r s).2.pending = s.pending := by simp [appendLayer]
@[simp] theorem kvAppendDo_pending (p d w r s) : (kvAppendDo p d w r s).2.pending = s.pending := by
  have k := kvPrepare_pending p d r s
  unfold kvAppendDo
  dsimp only
  split <;> rename_i e <;> rw [e] at k
  · exact k
  · split <;> simpa using k
@[simp] theorem execAppend_answered (pool s) : Answered s (execAppend pool s) := by simp [execAppend]
@[simp] theorem loadQueries_pending (d e r s) : (loadQueries d e r s).2.pending = s.pending := by simp [loadQueries]
@[simp] theorem loadSeq_pending (p d w q layer s) : (loadSeq p d w q layer s).2.pending = s.pending := by simp [loadSeq]
@[simp] theorem kvMapped_pending {f} (h : ∀ d w r t, (f d w r t).2.pending = t.pending) (d w r s) :
    (kvMapped f d w r s).2.pending = s.pending := by
  have k := firstFault_pending d (rqSeq r) (rqPages s d r) false s
  unfold kvMapped
  split <;> rename_i e <;> rw [e] at k
  · exact k
  · exact (h d w r _).trans k
@[simp] theorem kvAttendDo_pending (p d w r s) : (kvAttendDo p d w r s).2.pending = s.pending := by simp [kvAttendDo]
@[simp] theorem execAttend_answered (pool s) : Answered s (execAttend pool s) :=
  answered_whole (fun t => answered_done.mpr (kvRun_pending (kvMapped_pending (fun d w r t => kvAttendDo_pending pool d w r t)) t)) s
@[simp] theorem outRead_pending (bf16 a n s) : (outRead bf16 a n s).2.pending = s.pending := by simp [outRead]
@[simp] theorem kvBackDo_pending (p d w r s) : (kvBackDo p d w r s).2.pending = s.pending := by simp [kvBackDo]
@[simp] theorem execAttendBwd_answered (pool s) : Answered s (execAttendBwd pool s) :=
  answered_whole (fun t => answered_done.mpr (kvRun_pending (kvMapped_pending (fun d w r t => kvBackDo_pending pool d w r t)) t)) s
@[simp] theorem kvReadDo_pending (p d w r s) : (kvReadDo p d w r s).2.pending = s.pending := by simp [kvReadDo]
@[simp] theorem execKvRead_answered (pool s) : Answered s (execKvRead pool s) :=
  answered_whole (fun t => answered_done.mpr (kvRun_pending (kvMapped_pending (fun d w r t => kvReadDo_pending pool d w r t)) t)) s

/-! ## Machine/Module.lean -/

@[simp] theorem keptUnpowered_pending (s) : (keptUnpowered s).pending = s.pending := rfl
@[simp] theorem powerOff_pending (s) : (powerOff s).pending = s.pending := rfl
@[simp] theorem execPresenceDebounce_answered (fresh s) : Answered s (execPresenceDebounce fresh s) := by
  unfold execPresenceDebounce; dsimp only; (repeat' split) <;> simp
@[simp] theorem execPresenceLost_answered (s) : Answered s (execPresenceLost s) := by simp [execPresenceLost]
@[simp] theorem execRampComplete_answered (s) : Answered s (execRampComplete s) := by simp [execRampComplete]
@[simp] theorem execRailPowerGood_answered (straps s) : Answered s (execRailPowerGood straps s) := by simp [execRailPowerGood]
@[simp] theorem execTrip_answered (cause s) : Answered s (execTrip cause s) := by simp [execTrip]
@[simp] theorem execVinLow_answered (volts amps s) : Answered s (execVinLow volts amps s) := by simp [execVinLow]
@[simp] theorem execCoolLoss_answered (s) : Answered s (execCoolLoss s) := by simp [execCoolLoss]
@[simp] theorem execCoolLimitLift_answered (s) : Answered s (execCoolLimitLift s) := by simp [execCoolLimitLift]
@[simp] theorem execLeak_answered (s) : Answered s (execLeak s) := by simp [execLeak]
@[simp] theorem execEjectOpened_answered (s) : Answered s (execEjectOpened s) := by simp [execEjectOpened]
@[simp] theorem execEjectClosed_answered (s) : Answered s (execEjectClosed s) := by simp [execEjectClosed]
@[simp] theorem execReferenceRelock_answered (s) : Answered s (execReferenceRelock s) := by simp [execReferenceRelock]
@[simp] theorem execLossOfSignal_answered (port canRetrain s) : Answered s (execLossOfSignal port canRetrain s) := by
  simp [execLossOfSignal]

/-! ## Machine/Power.lean -/

@[simp] theorem sendLateNotice_pending (s) : (sendLateNotice s).pending = s.pending := by
  unfold sendLateNotice; dsimp only; split <;> simp
@[simp] theorem enterCritical_pending (st s) : (enterCritical st s).pending = s.pending := by simp [enterCritical]
@[simp] theorem setClass_pending (st k s) : (setClass st k s).pending = s.pending := by simp [setClass]
@[simp] theorem execTempRead_answered (stack reading s) : Answered s (execTempRead stack reading s) := by
  unfold execTempRead; split <;> simp
@[simp] theorem quiesceChans_pending (p s) : (quiesceChans p s).pending = s.pending := by simp [quiesceChans]
@[simp] theorem execStackSelfRefresh_answered (stack s) : Answered s (execStackSelfRefresh stack s) := by
  simp [execStackSelfRefresh]
@[simp] theorem rejoinReady_pending (s) : (rejoinReady s).pending = s.pending := by simp [rejoinReady]
@[simp] theorem execSelfRefreshExit_answered (stack s) : Answered s (execSelfRefreshExit stack s) := by simp [execSelfRefreshExit]
@[simp] theorem setLevel_pending (l s) : (setLevel l s).pending = s.pending := by simp [setLevel]
@[simp] theorem execThrottleUpdate_answered (pMs pS dieMax iin s) : Answered s (execThrottleUpdate pMs pS dieMax iin s) := by
  simp [execThrottleUpdate]
@[simp] theorem execOvercurrentThrottle_answered (s) : Answered s (execOvercurrentThrottle s) := by simp [execOvercurrentThrottle]
@[simp] theorem execDieHotThrottle_answered (s) : Answered s (execDieHotThrottle s) := by simp [execDieHotThrottle]
@[simp] theorem execDieHot_answered (s) : Answered s (execDieHot s) := by simp [execDieHot]
@[simp] theorem telSensors_pending (tel s) : (telSensors tel s).pending = s.pending := rfl
@[simp] theorem telRing_pending (r s) : (telRing r s).pending = s.pending := by simp [telRing]
@[simp] theorem telPacket_pending (dst r s) : (telPacket dst r s).pending = s.pending := by
  unfold telPacket; dsimp only; (repeat' split) <;> simp
@[simp] theorem telSend_pending (tick r s) : (telSend tick r s).pending = s.pending := by
  unfold telSend; split <;> simp
@[simp] theorem telemetryRecord_pending (tick unlocked tel s) : (telemetryRecord tick unlocked tel s).pending = s.pending := by
  simp [telemetryRecord]
@[simp] theorem execTelemetryInterval_answered (tel s) : Answered s (execTelemetryInterval tel s) := by
  simp [execTelemetryInterval]
@[simp] theorem execP1Entry_answered (s) : Answered s (execP1Entry s) := by simp [execP1Entry]
@[simp] theorem execP1Exit_answered (s) : Answered s (execP1Exit s) := by
  unfold execP1Exit; dsimp only; split <;> simp
@[simp] theorem p1Enter_pending (s) : (p1Enter s).pending = s.pending := by simp [p1Enter]
@[simp] theorem p1Leave_pending (s) : (p1Leave s).pending = s.pending := by simp [p1Leave]
@[simp] theorem execPstateDone_answered (s) : Answered s (execPstateDone s) := by simp [execPstateDone]
@[simp] theorem execClusterGate_answered (unit s) : Answered s (execClusterGate unit s) := by simp [execClusterGate]
@[simp] theorem execClusterUngate_answered (unit s) : Answered s (execClusterUngate unit s) := by simp [execClusterUngate]
@[simp] theorem a1Edge_pending (s) : (a1Edge s).pending = s.pending := by simp [a1Edge]
@[simp] theorem pstateRefuse_pending (req s) : (pstateRefuse req s).pending = s.pending := by simp [pstateRefuse]

/-! ## Machine/Streams.lean -/

@[simp] theorem strReject_pending (c i r s) : (strReject c i r s).pending = s.pending := by simp [strReject]
@[simp] theorem strFetch_pending (c at_ s) : (strFetch c at_ s).2.2.2.pending = s.pending := by simp [strFetch]
@[simp] theorem strAdmit_pending (c i at_ b prog s) : (strAdmit c i at_ b prog s).pending = s.pending := by
  simp -implicitDefEqProofs [strAdmit]
@[simp] theorem strStart_pending (c i at_ s) : (strStart c i at_ s).pending = s.pending := by simp [strStart]
@[simp] theorem execStreamBatchStart_answered (slot s) : Answered s (execStreamBatchStart slot s) := by
  simp [execStreamBatchStart]
@[simp] theorem execStreamNop_answered (ctx s) : Answered s (execStreamNop ctx s) := by
  simp -implicitDefEqProofs [execStreamNop]
@[simp] theorem execMovi_answered (ctx s) : Answered s (execMovi ctx s) := by
  simp -implicitDefEqProofs [execMovi]
@[simp] theorem execStreamAdd_answered (ctx s) : Answered s (execStreamAdd ctx s) := by
  simp -implicitDefEqProofs [execStreamAdd]
@[simp] theorem execAddi_answered (ctx s) : Answered s (execAddi ctx s) := by
  simp -implicitDefEqProofs [execAddi]
@[simp] theorem execMuli_answered (ctx s) : Answered s (execMuli ctx s) := by
  simp -implicitDefEqProofs [execMuli]
@[simp] theorem execLd64_answered (ctx s) : Answered s (execLd64 ctx s) := by simp [execLd64]
@[simp] theorem execSetl_answered (ctx s) : Answered s (execSetl ctx s) := by
  simp -implicitDefEqProofs [execSetl]
@[simp] theorem execSetlr_answered (ctx s) : Answered s (execSetlr ctx s) := by
  simp -implicitDefEqProofs [execSetlr]
@[simp] theorem execEndl_answered (ctx s) : Answered s (execEndl ctx s) := by simp [execEndl]
@[simp] theorem execEmit_answered (ctx s) : Answered s (execEmit ctx s) := by
  refine answered_done.mpr (strStep_pending (fun w t => ?_) s)
  dsimp only
  (repeat' split) <;> simp
@[simp] theorem execEmitw_answered (ctx s) : Answered s (execEmitw ctx s) := by
  refine answered_done.mpr (strStep_pending (fun w t => ?_) s)
  dsimp only
  (repeat' split) <;> simp
@[simp] theorem execLayer_answered (ctx s) : Answered s (execLayer ctx s) := by simp [execLayer]
@[simp] theorem execRlf_answered (ctx s) : Answered s (execRlf ctx s) := by simp [execRlf]
@[simp] theorem execStreamEnd_answered (ctx s) : Answered s (execStreamEnd ctx s) := by
  simp -implicitDefEqProofs [execStreamEnd]
theorem allocWanted_pending {queue c s t} (h : allocWanted queue c s = some t) : t.pending = s.pending := by
  unfold allocWanted at h; dsimp only at h
  (repeat' split at h) <;> simp at h <;> obtain ⟨_, _, _, rfl⟩ := h <;> simp
@[simp] theorem allocWanted_getD_pending (queue c s) : ((allocWanted queue c s).getD s).pending = s.pending := by
  cases h : allocWanted queue c s with
  | none => rfl
  | some t => exact allocWanted_pending h
@[simp] theorem execTileAllocate_answered (s) : Answered s (execTileAllocate s) := by
  unfold execTileAllocate
  dsimp only
  split
  · rename_i h
    obtain ⟨c, -, hc⟩ := List.exists_of_findSome?_eq_some h
    simpa using allocWanted_pending hc
  · simp
@[simp] theorem readLines_pending (c hint uses d l s) : (readLines c hint uses d l s).2.2.2.pending = s.pending := by
  simp -implicitDefEqProofs [readLines]
@[simp] theorem execTileReady_answered (ctx ue s) : Answered s (execTileReady ctx ue s) := by
  refine answered_whole (fun t => ?_) s
  dsimp only
  (repeat' split) <;> simp
@[simp] theorem execOutputTileCommit_answered (ctx s) : Answered s (execOutputTileCommit ctx s) := by
  refine answered_whole (fun t => ?_) s
  dsimp only
  split
  · simp
  · simp -implicitDefEqProofs
@[simp] theorem execStreamBatchComplete_answered (ctx s) : Answered s (execStreamBatchComplete ctx s) := by
  simp [execStreamBatchComplete]
@[simp] theorem execGroupDrain_answered (group s) : Answered s (execGroupDrain group s) := by
  simp -implicitDefEqProofs [execGroupDrain]
@[simp] theorem execPageMigration_answered (ctx s) : Answered s (execPageMigration ctx s) := by
  refine answered_whole (fun t => ?_) s
  dsimp only
  (repeat' split) <;> simp -implicitDefEqProofs
@[simp] theorem execContextHalt_answered (ctx s) : Answered s (execContextHalt ctx s) := by simp [execContextHalt]
@[simp] theorem strHalted_pending (c s) : (strHalted c s).pending = s.pending := rfl
@[simp] theorem execContextHalted_answered (ctx s) : Answered s (execContextHalted ctx s) := by simp [execContextHalted]
@[simp] theorem strRefetch_pending (c s) : (strRefetch c s).2.pending = s.pending := by simp [strRefetch]
@[simp] theorem execStreamResume_answered (ctx s) : Answered s (execStreamResume ctx s) := by simp [execStreamResume]
@[simp] theorem execContextSave_answered (ctx s) : Answered s (execContextSave ctx s) := by simp [execContextSave]
@[simp] theorem execContextRestore_answered (ctx s) : Answered s (execContextRestore ctx s) := by simp [execContextRestore]
@[simp] theorem execFloorWrite_answered (ctx value s) : Answered s (execFloorWrite ctx value s) := by simp [execFloorWrite]
@[simp] theorem discardSurplus_pending (v s) : (discardSurplus v s).pending = s.pending := rfl
@[simp] theorem execWaitforTrace_answered (ctx s) : Answered s (execWaitforTrace ctx s) := by
  unfold execWaitforTrace
  dsimp only
  (repeat' split) <;> simp

/-! ## Machine/Resets.lean -/

@[simp] theorem planClear_pending (s) : (planClear s).pending = s.pending := rfl
@[simp] theorem calAbandon_pending (s) : (calAbandon s).pending = s.pending := rfl
@[simp] theorem abandonRequests_pending (s) : (abandonRequests s).pending = s.pending := rfl
@[simp] theorem sweep_pending (kind s) : (sweep kind s).pending = s.pending := by simp [sweep]
@[simp] theorem resetCommon_pending (kind s) : (resetCommon kind s).pending = s.pending := by simp [resetCommon]
@[simp] theorem kvReset_pending (s) : (kvReset s).pending = s.pending := by simp [kvReset]
@[simp] theorem computeClear_pending (s) : (computeClear s).pending = s.pending := by simp [computeClear]
@[simp] theorem countReset_pending (kind s) : (countReset kind s).pending = s.pending := rfl
@[simp] theorem beginReset_pending (kind source s) : (beginReset kind source s).pending = s.pending := rfl
@[simp] theorem endReset_pending (s) : (endReset s).pending = s.pending := by
  unfold endReset; dsimp only; split <;> simp
@[simp] theorem computeWork_pending (kind late ns s) : (computeWork kind late ns s).pending = s.pending := by simp [computeWork]
@[simp] theorem planWork_pending (s) : (planWork s).pending = s.pending := by
  simp -implicitDefEqProofs [planWork]
@[simp] theorem lowReset_pending (kind source late ns s) : (lowReset kind source late ns s).pending = s.pending := by
  simp [lowReset]
@[simp] theorem flashFree_pending (a n s) : (flashFree a n s).pending = s.pending := by
  induction n generalizing a s with
  | zero => rfl
  | succ n ih => exact ih _ _
@[simp] theorem mailboxAbandon_pending (s) : (mailboxAbandon s).pending = s.pending := by
  unfold mailboxAbandon; split <;> simp
@[simp] theorem cacheFlush_pending (s) : (cacheFlush s).pending = s.pending := by simp [cacheFlush]
@[simp] theorem internalReset_pending (s) : (internalReset s).pending = s.pending := by simp [internalReset]
@[simp] theorem portsOff_pending (s) : (portsOff s).pending = s.pending := by
  simp -implicitDefEqProofs [portsOff]
@[simp] theorem tiersRest_pending (s) : (tiersRest s).pending = s.pending := by simp [tiersRest]
@[simp] theorem moduleReset_pending (source late cacheLate s) : (moduleReset source late cacheLate s).pending = s.pending := by
  simp [moduleReset]
@[simp] theorem execResetForced_answered (at_ s) : Answered s (execResetForced at_ s) := by
  unfold execResetForced; dsimp only; (repeat' split) <;> simp
@[simp] theorem rstWrite_pending (v source late cacheLate ns s) :
    (rstWrite v source late cacheLate ns s).pending = s.pending := by
  unfold rstWrite; (repeat' split) <;> simp -implicitDefEqProofs
@[simp] theorem execModuleReset_answered (key fabric late cacheLate s) :
    Answered s (execModuleReset key fabric late cacheLate s) := by
  simp [execModuleReset]
@[simp] theorem execComputeReset_answered (key fabric late ns s) : Answered s (execComputeReset key fabric late ns s) := by
  simp [execComputeReset]
@[simp] theorem execPlanReset_answered (key fabric s) : Answered s (execPlanReset key fabric s) := by simp [execPlanReset]
@[simp] theorem execPlanResetHalted_answered (at_ s) : Answered s (execPlanResetHalted at_ s) := by simp [execPlanResetHalted]
@[simp] theorem execPerst_answered (vinOk at_ late cacheLate s) : Answered s (execPerst vinOk at_ late cacheLate s) := by
  simp [execPerst]
@[simp] theorem unitsIdle_pending (s) : (unitsIdle s).pending = s.pending := rfl
@[simp] theorem enterP2_pending (s) : (enterP2 s).pending = s.pending := by simp [enterP2]

/-! ## Machine/FabMgmt.lean -/

@[simp] theorem reqCount_pending (s) : (reqCount s).pending = s.pending := rfl
@[simp] theorem noRoute_pending (arr pkt s) : (noRoute arr pkt s).pending = s.pending := by
  unfold noRoute; dsimp only; (repeat' split) <;> simp
@[simp] theorem deliverHere_pending (pkt s) : (deliverHere pkt s).pending = s.pending := by simp [deliverHere]
@[simp] theorem noteTransit_pending (arr pkt s) : (noteTransit arr pkt s).pending = s.pending := by
  unfold noteTransit; split <;> simp
@[simp] theorem forward_pending (arr pkt s) : (forward arr pkt s).pending = s.pending := by
  unfold forward; (repeat' split) <;> simp -implicitDefEqProofs
@[simp] theorem bcastDown_pending (mask pkt s) : (bcastDown mask pkt s).pending = s.pending := by simp [bcastDown]
@[simp] theorem bcast_pending (arr pkt s) : (bcast arr pkt s).pending = s.pending := by simp [bcast]
@[simp] theorem execPacketForward_answered (port pkt s) : Answered s (execPacketForward port pkt s) := by
  unfold execPacketForward; dsimp only; (repeat' split) <;> simp
@[simp] theorem response_pending (op port pkt s) : (response op port pkt s).pending = s.pending := by
  unfold response; dsimp only; (repeat' split) <;> simp
@[simp] theorem execReadData_answered (port pkt s) : Answered s (execReadData port pkt s) := by simp [execReadData]
@[simp] theorem execWriteAck_answered (port pkt s) : Answered s (execWriteAck port pkt s) := by simp [execWriteAck]
@[simp] theorem execAtomicAck_answered (port pkt s) : Answered s (execAtomicAck port pkt s) := by simp [execAtomicAck]
@[simp] theorem execRequestTimeout_answered (tag s) : Answered s (execRequestTimeout tag s) := by
  unfold execRequestTimeout; split <;> simp
@[simp] theorem handUp_pending (op pkt s) : (handUp op pkt s).pending = s.pending := by simp [handUp]
@[simp] theorem execNeighbourNotice_answered (pkt s) : Answered s (execNeighbourNotice pkt s) := by simp [execNeighbourNotice]
@[simp] theorem execDetachDone_answered (pkt s) : Answered s (execDetachDone pkt s) := by simp [execDetachDone]
@[simp] theorem execPushDone_answered (pkt s) : Answered s (execPushDone pkt s) := by simp [execPushDone]
@[simp] theorem execTelemetry_answered (pkt s) : Answered s (execTelemetry pkt s) := by simp [execTelemetry]
@[simp] theorem execJoinAnnounce_answered (port pkt s) : Answered s (execJoinAnnounce port pkt s) := by simp [execJoinAnnounce]
@[simp] theorem execJoinAnnounceRepeat_answered (s) : Answered s (execJoinAnnounceRepeat s) := by simp [execJoinAnnounceRepeat]
@[simp] theorem execJoinAccept_answered (pkt s) : Answered s (execJoinAccept pkt s) := by simp [execJoinAccept]
@[simp] theorem execJoinRefuse_answered (pkt s) : Answered s (execJoinRefuse pkt s) := by simp [execJoinRefuse]
@[simp] theorem execDetach_answered (pkt s) : Answered s (execDetach pkt s) := by simp [execDetach]
@[simp] theorem detachCompletes_pending (s) : (detachCompletes s).pending = s.pending := by simp [detachCompletes]
@[simp] theorem execDetachRequestsDrained_answered (s) : Answered s (execDetachRequestsDrained s) := by
  simp [execDetachRequestsDrained]
@[simp] theorem execFabricReset_answered (pkt late ns s) : Answered s (execFabricReset pkt late ns s) := by simp [execFabricReset]
@[simp] theorem frstGo_pending (target s) : (frstGo target s).pending = s.pending := by simp [frstGo]
@[simp] theorem execFrstGo_answered (target s) : Answered s (execFrstGo target s) := by simp [execFrstGo]
@[simp] theorem execBcast_answered (port pkt s) : Answered s (execBcast port pkt s) := by simp [execBcast]
@[simp] theorem pushDone_pending (s) : (pushDone s).pending = s.pending := by simp [pushDone]
@[simp] theorem fabricPlan_pending (seg b o bs s) : (fabricPlan seg b o bs s).pending = s.pending := by simp [fabricPlan]
@[simp] theorem execPlanSeg_answered (pkt s) : Answered s (execPlanSeg pkt s) := by simp [execPlanSeg]
@[simp] theorem execRouteCheck_answered (s) : Answered s (execRouteCheck s) := by simp [execRouteCheck]
@[simp] theorem adoptNow_pending (s) : (adoptNow s).pending = s.pending := by simp [adoptNow]
@[simp] theorem execAdoptNow_answered (s) : Answered s (execAdoptNow s) := by simp [execAdoptNow]

/-! ## Machine/Mailbox.lean -/

@[simp] theorem flashBufWrite_pending (o bs s) : (flashBufWrite o bs s).pending = s.pending := rfl
@[simp] theorem mboxDo_pending (op a n s) : (mboxDo op a n s).2.pending = s.pending := by
  unfold mboxDo; dsimp only; (repeat' split) <;> simp
@[simp] theorem mboxGo_pending (op key s) : (mboxGo op key s).pending = s.pending := by simp [mboxGo]
@[simp] theorem mboxCommand_answered (op key s) : Answered s (mboxCommand op key s) := by simp [mboxCommand]
@[simp] theorem execFlashRead_answered (s) : Answered s (execFlashRead s) := by simp [execFlashRead]
@[simp] theorem execFlashProgram_answered (key s) : Answered s (execFlashProgram key s) := by simp [execFlashProgram]
@[simp] theorem execFlashErase_answered (key s) : Answered s (execFlashErase key s) := by simp [execFlashErase]
@[simp] theorem execFuseKeyHash_answered (key s) : Answered s (execFuseKeyHash key s) := by simp [execFuseKeyHash]
@[simp] theorem execFuseRevoke_answered (key s) : Answered s (execFuseRevoke key s) := by simp [execFuseRevoke]
@[simp] theorem execFuseSvn_answered (key s) : Answered s (execFuseSvn key s) := by simp [execFuseSvn]
@[simp] theorem execFlashOpDone_answered (s) : Answered s (execFlashOpDone s) := by
  unfold execFlashOpDone; split <;> simp

/-! ## Machine/Register.lean -/

@[simp] theorem releaseHeld_pending (q s) : (releaseHeld q s).pending = s.pending := by
  unfold releaseHeld; split <;> simp
@[simp] theorem dropFetched_pending (q s) : (dropFetched q s).pending = s.pending := rfl
@[simp] theorem queueCfg_pending (q x s) : (queueCfg q x s).pending = s.pending := by simp [queueCfg]
@[simp] theorem queueTail_pending (q v s) : (queueTail q v s).pending = s.pending := by simp [queueTail]
@[simp] theorem queueHead_pending (q v s) : (queueHead q v s).pending = s.pending := by simp [queueHead]
@[simp] theorem msixFlush_pending (s) : (msixFlush s).pending = s.pending := by simp [msixFlush]
@[simp] theorem msixWrite_pending (o v s) : (msixWrite o v s).pending = s.pending := by simp [msixWrite]
@[simp] theorem windowWrite_pending (fabric k o v s) : (windowWrite fabric k o v s).pending = s.pending := by
  unfold windowWrite; split <;> simp
@[simp] theorem storeFlds_pending (r lo n x s) : (storeFlds r lo n x s).pending = s.pending :=
  each_pending (fun f t => by split <;> rfl) _ _
@[simp] theorem idWrite_pending (o x old s) : (idWrite o x old s).pending = s.pending := by simp [idWrite]
@[simp] theorem tickWrite_pending (o x s) : (tickWrite o x s).pending = s.pending := by simp [tickWrite]
@[simp] theorem elvWrite_pending (p o x s) : (elvWrite p o x s).pending = s.pending := by simp [elvWrite]
@[simp] theorem fabWrite_pending (o x s) : (fabWrite o x s).pending = s.pending := by simp [fabWrite]
@[simp] theorem calWrite_pending (o x old s) : (calWrite o x old s).pending = s.pending := by simp [calWrite]
@[simp] theorem chanWrite_pending (c o x s) : (chanWrite c o x s).pending = s.pending := by simp [chanWrite]
@[simp] theorem careWrite_pending (k o x s) : (careWrite k o x s).pending = s.pending := by
  unfold careWrite; split <;> simp
@[simp] theorem rlgWrite_pending (o x s) : (rlgWrite o x s).pending = s.pending := by
  unfold rlgWrite; (repeat' split) <;> simp -implicitDefEqProofs
@[simp] theorem strWrite_pending (c o x s) : (strWrite c o x s).pending = s.pending := by simp [strWrite]
@[simp] theorem upeWrite_pending (e o x s) : (upeWrite e o x s).pending = s.pending := by simp [upeWrite]
@[simp] theorem kvsWrite_pending (o x s) : (kvsWrite o x s).pending = s.pending := by
  unfold kvsWrite; split <;> simp
@[simp] theorem rngWrite_pending (o x old s) : (rngWrite o x old s).pending = s.pending := by simp [rngWrite]
@[simp] theorem cohWrite_pending (o x old s) : (cohWrite o x old s).pending = s.pending := by simp [cohWrite]
@[simp] theorem fumWrite_pending (o x s) : (fumWrite o x s).pending = s.pending := by
  unfold fumWrite; (repeat' split) <;> simp -implicitDefEqProofs
@[simp] theorem hstWrite_pending (o s) : (hstWrite o s).pending = s.pending := by simp [hstWrite]
theorem ownWrite_pending {o x s t} (h : ownWrite o x s = some t) : t.pending = s.pending := by
  unfold ownWrite at h; dsimp only at h
  (repeat' split at h) <;> simp at h <;> subst h <;> simp
@[simp] theorem regEffect_pending (src o x t s) : (regEffect src o x t s).pending = s.pending := by simp [regEffect]
@[simp] theorem regStore_pending (src r lo n v s) : (regStore src r lo n v s).pending = s.pending := by
  unfold regStore
  dsimp only
  split
  · rename_i h; exact ownWrite_pending h
  · simp
@[simp] theorem wordWrite_pending (src o v s) : (wordWrite src o v s).pending = s.pending := by
  unfold wordWrite; (repeat' split) <;> simp -implicitDefEqProofs
@[simp] theorem wordsWrite_pending (src n m l s) : (wordsWrite src n m l s).pending = s.pending := by
  fun_induction wordsWrite <;> simp_all
@[simp] theorem clearRead_pending (r lo n s) : (clearRead r lo n s).pending = s.pending :=
  each_pending (fun f t => by dsimp only; split <;> rfl) _ _
@[simp] theorem regFetch_pending (r lo n s) : (regFetch r lo n s).2.pending = s.pending := by simp [regFetch]
@[simp] theorem wordRead_pending (o s) : (wordRead o s).2.pending = s.pending := by
  unfold wordRead; (repeat' split) <;> simp -implicitDefEqProofs
@[simp] theorem regRead_pending (o n s) : (regRead o n s).2.pending = s.pending := by
  unfold regRead; dsimp only; (repeat' split) <;> simp
@[simp] theorem narrowRead_pending (o n s) : (narrowRead o n s).2.pending = s.pending := by simp [narrowRead]
@[simp] theorem barWrite_pending (src o bs s) : (barWrite src o bs s).pending = s.pending := by simp [barWrite]
@[simp] theorem barRead_pending (o n s) : (barRead o n s).2.pending = s.pending := by simp [barRead]
@[simp] theorem hostAnswer_pending (r) : (hostAnswer r).pending = r.2.pending := by
  unfold hostAnswer; split <;> simp
@[simp] theorem execRegisterWrite_answered (off data s) : Answered s (execRegisterWrite off data s) := by
  simp -implicitDefEqProofs [execRegisterWrite]
@[simp] theorem rcUpdate_pending (f v s) : (rcUpdate f v s).pending = s.pending := by simp [rcUpdate]
@[simp] theorem execRcRead_answered (off len same s) : Answered s (execRcRead off len same s) := by simp [execRcRead]
@[simp] theorem execLatchedLowWordRead_answered (off s) : Answered s (execLatchedLowWordRead off s) := by
  simp [execLatchedLowWordRead]

/-! ## Machine/FabServe.lean -/

@[simp] theorem serveRequest_pending {op port pkt f} (h : ∀ t, (f t).2.2.pending = t.pending) (s) :
    (serveRequest op port pkt f s).pending = s.pending := by
  simp [serveRequest, h]
@[simp] theorem regWords_pending (s n o) : (regWords s n o).2.pending = s.pending := by
  induction n generalizing s o with
  | zero => rfl
  | succ n ih => simp [regWords, ih]
@[simp] theorem doRead_pending (pkt s) : (doRead pkt s).2.2.pending = s.pending := by simp [doRead]
@[simp] theorem doWrite_pending (pkt s) : (doWrite pkt s).2.2.pending = s.pending := by simp [doWrite]
@[simp] theorem doAtomic_pending (pkt s) : (doAtomic pkt s).2.2.pending = s.pending := by simp [doAtomic]
@[simp] theorem execRead_answered (port pkt s) : Answered s (execRead port pkt s) := by simp [execRead]
@[simp] theorem execWrite_answered (port pkt s) : Answered s (execWrite port pkt s) := by simp [execWrite]
@[simp] theorem execAtomicAdd_answered (port pkt s) : Answered s (execAtomicAdd port pkt s) := by simp [execAtomicAdd]
@[simp] theorem execFetchAdd_answered (port pkt s) : Answered s (execFetchAdd port pkt s) := by simp [execFetchAdd]

/-! ## Machine/HostPort.lean -/

@[simp] theorem queueReg_answered (q o v s) : Answered s (queueReg q o v s) := by simp [queueReg]
@[simp] theorem execQueueEnable_answered (q value s) : Answered s (execQueueEnable q value s) := by simp [execQueueEnable]
@[simp] theorem execSqDoorbell_answered (q value s) : Answered s (execSqDoorbell q value s) := by simp [execSqDoorbell]
@[simp] theorem execCqHeadWrite_answered (q value s) : Answered s (execCqHeadWrite q value s) := by simp [execCqHeadWrite]
@[simp] theorem columnValue_pending (c s) : (columnValue c s).2.pending = s.pending := by
  unfold columnValue; split <;> simp
@[simp] theorem ends_pending (q status detail s) : (ends q status detail s).pending = s.pending := by
  unfold ends; split <;> simp
@[simp] theorem command_answered {f} (h : ∀ c t, (f c t).pending = t.pending) (q op s) : Answered s (command q op f s) := by
  unfold command; dsimp only; (repeat' split) <;> simp [h]
@[simp] theorem execQueueNop_answered (q s) : Answered s (execQueueNop q s) := by simp [execQueueNop]
@[simp] theorem execPlanLoad_answered (q s) : Answered s (execPlanLoad q s) := by simp [execPlanLoad]
@[simp] theorem execRouteLoad_answered (q s) : Answered s (execRouteLoad q s) := by simp [execRouteLoad]
@[simp] theorem execRuleLoad_answered (q s) : Answered s (execRuleLoad q s) := by
  refine command_answered (fun c t => ?_) _ _ s
  dsimp only
  split
  · simp
  · rw [complete_pending]
    exact each_pending (fun e t => each_pending (fun i t => ruleWrite_pending _ _ _ t) _ _) _ _
@[simp] theorem copyWrite_pending (hint a bs s) : (copyWrite hint a bs s).2.pending = s.pending := by simp [copyWrite]
@[simp] theorem execCopyIn_answered (q s) : Answered s (execCopyIn q s) := by
  refine answered_whole (fun t => ?_) s
  split
  · simp
  · split <;> simp
@[simp] theorem copyRead_pending (hint a host n s) : (copyRead hint a host n s).2.2.pending = s.pending := by simp [copyRead]
@[simp] theorem execCopyOut_answered (q s) : Answered s (execCopyOut q s) := by simp [execCopyOut]
@[simp] theorem execQueueArm_answered (q s) : Answered s (execQueueArm q s) := by simp [execQueueArm]
@[simp] theorem execQueueDisarm_answered (q s) : Answered s (execQueueDisarm q s) := by simp [execQueueDisarm]
@[simp] theorem execQueueDetach_answered (q s) : Answered s (execQueueDetach q s) := by simp [execQueueDetach]
@[simp] theorem execFence_answered (q s) : Answered s (execFence q s) := by simp [execFence]
@[simp] theorem execWriteReg_answered (q s) : Answered s (execWriteReg q s) := by simp [execWriteReg]
@[simp] theorem execReadReg_answered (q s) : Answered s (execReadReg q s) := by
  refine command_answered (fun c t => ?_) _ _ s
  have k := barRead_pending (cmdLocal c % 2 ^ 28) (cmdLen c) t
  split <;> rename_i h <;> rw [h] at k <;> simpa using k
@[simp] theorem readEnds_pending (tag s) : (readEnds tag s).pending = s.pending := rfl
@[simp] theorem execHostReadCompletion_answered (tag status data s) : Answered s (execHostReadCompletion tag status data s) := by
  unfold execHostReadCompletion; split <;> simp
@[simp] theorem aerLog_pending (m s) : (aerLog m s).pending = s.pending := rfl
@[simp] theorem execHostReadTimeout_answered (tag s) : Answered s (execHostReadTimeout tag s) := by
  unfold execHostReadTimeout; split <;> simp
@[simp] theorem execHostMemoryRequest_answered (write off len data ep s) :
    Answered s (execHostMemoryRequest write off len data ep s) := by
  simp [execHostMemoryRequest]
@[simp] theorem hostBack_pending (s) : (hostBack s).pending = s.pending := by simp [hostBack]
@[simp] theorem cfgValue_pending (i s) : (cfgValue i s).2.pending = s.pending := by
  unfold cfgValue; split <;> simp
@[simp] theorem powerState_pending (d3 s) : (powerState d3 s).pending = s.pending := by simp [powerState]
@[simp] theorem cfgWrite_pending (i v s) : (cfgWrite i v s).pending = s.pending := by
  unfold cfgWrite; split <;> simp
@[simp] theorem execConfigRequest_answered (item write value s) : Answered s (execConfigRequest item write value s) := by
  simp [execConfigRequest]
@[simp] theorem execD3hot_answered (s) : Answered s (execD3hot s) := by simp [execD3hot]
@[simp] theorem execHostLinkUp_answered (speed width s) : Answered s (execHostLinkUp speed width s) := by simp [execHostLinkUp]
@[simp] theorem linkLost_pending (s) : (linkLost s).pending = s.pending := by simp [linkLost]
@[simp] theorem execLinkDown_answered (s) : Answered s (execLinkDown s) := by simp [execLinkDown]
@[simp] theorem hostFresh_pending (s) : (hostFresh s).pending = s.pending := rfl
@[simp] theorem execHotReset_answered (s) : Answered s (execHotReset s) := by simp [execHotReset]

/-! ## Machine/Mgmt.lean -/

@[simp] theorem mgmtAnswer_pending (status bs s) : (mgmtAnswer status bs s).pending = s.pending := by simp [mgmtAnswer]
@[simp] theorem mgmtCommand_answered {f} (h : ∀ t, (f t).2.2.pending = t.pending) (pec rd s) :
    Answered s (mgmtCommand pec rd f s) := by
  unfold mgmtCommand; dsimp only; (repeat' split) <;> simp [h]
@[simp] theorem mgmtWord_pending (o s) : (mgmtWord o s).2.pending = s.pending := by simp [mgmtWord]
@[simp] theorem mgmtWords_pending (os s) : (mgmtWords os s).2.pending = s.pending := by simp [mgmtWords]
@[simp] theorem execIdentity_answered (s) : Answered s (execIdentity s) := by simp [execIdentity]
@[simp] theorem execStatus_answered (s) : Answered s (execStatus s) := by simp [execStatus]
@[simp] theorem execRegRead_answered (off width pec s) : Answered s (execRegRead off width pec s) := by simp [execRegRead]
@[simp] theorem execRegWrite_answered (off width value pec rd s) : Answered s (execRegWrite off width value pec rd s) := by
  simp [execRegWrite]
@[simp] theorem execMgtTelemetry_answered (chunk pec s) : Answered s (execMgtTelemetry chunk pec s) := by simp [execMgtTelemetry]
@[simp] theorem execFault_answered (record half pec s) : Answered s (execFault record half pec s) := by simp [execFault]
@[simp] theorem execFlashBuf_answered (off data pec rd s) : Answered s (execFlashBuf off data pec rd s) := by simp [execFlashBuf]
@[simp] theorem execFlashCmd_answered (ctl addr len fuse pec rd s) : Answered s (execFlashCmd ctl addr len fuse pec rd s) := by
  simp [execFlashCmd]
@[simp] theorem execReset_answered (key pec rd late cacheLate s) : Answered s (execReset key pec rd late cacheLate s) := by
  simp [execReset]
@[simp] theorem execLocate_answered (on pec rd s) : Answered s (execLocate on pec rd s) := by simp [execLocate]
@[simp] theorem execAlert_answered (mask pec rd s) : Answered s (execAlert mask pec rd s) := by
  unfold execAlert; split <;> simp
@[simp] theorem execAlertResponse_answered (s) : Answered s (execAlertResponse s) := by simp [execAlertResponse]

/-! ## Machine/TickEdge.lean -/

@[simp] theorem lateItem_pending (i s) : (lateItem i s).pending = s.pending := by simp [lateItem]
@[simp] theorem notIssued_pending (i s) : (notIssued i s).pending = s.pending := by simp [notIssued]
@[simp] theorem lateRule_pending (forced s) : (lateRule forced s).pending = s.pending :=
  each_pending (fun i t => by (repeat' split) <;> simp) _ _
@[simp] theorem scheduleCollective_pending (go i s) : (scheduleCollective go i s).pending = s.pending := by
  simp [scheduleCollective]
@[simp] theorem scheduleItem_pending (go i s) : (scheduleItem go i s).pending = s.pending := by simp [scheduleItem]
@[simp] theorem scheduleTick_pending (s) : (scheduleTick s).pending = s.pending := by simp [scheduleTick]
@[simp] theorem carryPlan_pending (s) : (carryPlan s).pending = s.pending := rfl
@[simp] theorem budgetSwitch_pending (s) : (budgetSwitch s).pending = s.pending := by simp [budgetSwitch]
@[simp] theorem outClear_pending (s) : (outClear s).pending = s.pending := by simp [outClear]
@[simp] theorem switchOver_pending (s) : (switchOver s).pending = s.pending := by simp [switchOver]
@[simp] theorem planEdge_pending (n s) : (planEdge n s).pending = s.pending := by simp [planEdge]
@[simp] theorem detachStart_pending (n s) : (detachStart n s).pending = s.pending := by simp [detachStart]
@[simp] theorem newTick_pending (edge s) : (newTick edge s).pending = s.pending := by
  unfold newTick; dsimp only; split <;> simp
@[simp] theorem execTickEdge_answered (tel s) : Answered s (execTickEdge tel s) := by
  unfold execTickEdge; dsimp only; (repeat' split) <;> simp
@[simp] theorem rowBegin_pending (k b c rows ecc s) : (rowBegin k b c rows ecc s).pending = s.pending := by simp [rowBegin]
@[simp] theorem rowAfter_pending (k b s) : (rowAfter k b s).pending = s.pending := by simp [rowAfter]
@[simp] theorem ruleIssue_pending {e w f} (h : ∀ b t, (f b t).pending = t.pending) (s) :
    (ruleIssue e w f s).pending = s.pending := by
  simp [ruleIssue, h]
@[simp] theorem kvBegun_pending (p s w r) : (kvBegun p s w r).pending = s.pending := by simp [kvBegun]
@[simp] theorem kvEnd_pending (p r x) : (kvEnd p r x).pending = x.2.pending := by simp [kvEnd]

/-! ## Commands and steps -/

/-- Every command answers a settled state with the queue it was given. -/
theorem exec_answered (c : Instr) (s : State) : Answered s (exec c s) := by
  cases c <;> simp

/-- What settling leaves shows the lights of R469. -/
theorem lit_settle (s : State) : Lit (settle s) := rfl

/-- A step settles what it answers: a core cycle on an empty queue, else the command at the front. -/
theorem step_settled (s : State) : ∃ t, step s = .next (settle t) := by
  unfold step
  split
  · exact ⟨_, done_eq _⟩
  · rename_i c rest _
    obtain ⟨t, ht, -⟩ := exec_answered c { s with pending := rest }
    exact ⟨t, ht⟩

/-- Settles O1: the step's branch for a queue that is not empty. -/
theorem stepRunsFront : Obligations.StepRunsFront := fun _ _ _ => rfl

/-- Settles O4: every step settles its state, whatever the lights showed before. -/
theorem lightsFollowState : Obligations.LightsFollowState := fun s _ => by
  obtain ⟨t, ht⟩ := step_settled s
  exact ⟨settle t, ht, lit_settle t⟩

/-- Settles O5: no function that a command's meaning calls writes the queue. -/
theorem commandsKeepQueue : Obligations.CommandsKeepQueue := by
  intro c s t h
  obtain ⟨u, hu, keeps⟩ := exec_answered c s
  obtain rfl : settle u = t := by rw [hu] at h; injection h
  exact keeps

end Sys2Proof.Machine
end

section
/-! PROOF. A core cycle on an empty queue (R185, R429, R510; log entry 1): what the regulators, the slices and the throttle count: O2. -/

namespace Sys2Proof.Machine

/-- What the count of the waits of granted requests leaves of a state: its moment, its queues of commands and of requests, its
cells, and every register but the stall cycles of the partitions (R185). -/
structure WaitsCounted (s t : State) : Prop where
  pending : t.pending = s.pending := by rfl
  now : t.now = s.now := by rfl
  coh : t.coh = s.coh := by rfl
  cells : t.mem.cells = s.mem.cells := by rfl
  regs : ∀ f : Fld, (∀ p < 16, f.key ≠ (memPartStallCycles p).key) → t.get f = s.get f := by intros; rfl

theorem WaitsCounted.trans {s t u : State} (h : WaitsCounted s t) (k : WaitsCounted t u) : WaitsCounted s u where
  pending := k.pending.trans h.pending
  now := k.now.trans h.now
  coh := k.coh.trans h.coh
  cells := k.cells.trans h.cells
  regs f hf := (k.regs f hf).trans (h.regs f hf)

theorem stallCount_counts {p : Nat} (hp : p < 16) (s : State) : WaitsCounted s (stallCount p s) := by
  unfold stallCount
  split
  · exact {}
  · extract_lets t l rate span w u
    have counted : WaitsCounted s u := by
      unfold u
      split
      · exact {}
      · exact { regs := fun f hf => get_bump_ne s w (hf p hp) }
    exact counted.trans {}

theorem regulatorCycle_counts (s : State) : WaitsCounted s (regulatorCycle s) :=
  each_keeps_of_mem (P := WaitsCounted s) (fun p hp t ht => by
    split
    · exact ht.trans (stallCount_counts (List.mem_range.mp hp) t)
    · exact ht) {}

/-- The registers of the partitions lie below those of the coherence block. -/
theorem stallCycles_below {p : Nat} (hp : p < 16) : (memPartStallCycles p).key < cohQueueFull.key := by
  simp only [Fld.key, memPartStallCycles, cohQueueFull]
  omega

theorem on_bump_get_ne {f g : Fld} (h : f.key ≠ g.key) (b : Bool) (n : Nat) (s : State) :
    (s.on b (fun t => t.bump g n)).get f = s.get f := by
  unfold State.on
  split
  · exact get_bump_ne s n h
  · rfl

/-- Settles O2: the regulators count waits, and of the two counts after that each writes its own field. -/
theorem stepIdles : Obligations.StepIdles := by
  intro s empty
  have waits := regulatorCycle_counts { s with now := s.now + 625 }
  have full : someQueueFull (regulatorCycle { s with now := s.now + 625 }) = someQueueFull s := by
    simp only [someQueueFull, waits.coh]
  refine ⟨settle (coreCycle s), by rw [step, empty]; rfl, ?now, by rw [settle_pending_frame, coreCycle_pending, empty], ?cells,
    fun f hfull hcap hstall => ?others, ?count⟩
  case now => simpa [coreCycle, State.on, apply_ite State.now] using waits.now
  case cells => simpa [coreCycle, State.on, apply_ite State.mem] using waits.cells
  case others =>
    simp only [settle_get_frame, coreCycle]
    rw [on_bump_get_ne hcap, on_bump_get_ne hfull, waits.regs f hstall]
    rfl
  case count =>
    have before := waits.regs cohQueueFull fun p hp e => absurd e.symm (Nat.ne_of_lt (stallCycles_below hp))
    simp only [settle_get_frame, coreCycle]
    rw [on_bump_get_ne (by decide), full, State.on, apply_ite (fun t => State.get t cohQueueFull), get_bump_self, before]
    rfl

end Sys2Proof.Machine
end

section
/-! PROOF. What a coherent agent reads after a coherent write (R175, R427, R436): the snoops of a write move the dirty copies into
the cache and change no byte, and the bytes then go where the cache holds the line or else to the tier: O40, O41. -/

namespace Sys2Proof.Machine

/-! ## What the bytes that a coherent agent reads depend on -/

/-- The parts of the state that hold bytes of memory: the cache, the tiers and the L1s. -/
structure SameStores (s t : State) : Prop where
  lines : t.mem.lines = s.mem.lines := by rfl
  cells : t.mem.cells = s.mem.cells := by rfl
  epoch : t.mem.epoch = s.mem.epoch := by rfl
  coh : t.coh = s.coh := by rfl

/-- Who may hold a line's bytes in an L1: its OWNED bit and its holders, where the cache holds the line. -/
def directory (s : State) (line : Nat) : Option (Bool × Nat) := (cached s line).map (fun l => (l.owned, l.holders))

section
variable {s t : State}

theorem l1_congr (h : t.coh = s.coh) (e : Nat) : t.l1 e = s.l1 e := by rw [State.l1, State.l1, h]

/-- The dirty copy of a line depends on the line's directory entry and on what the L1s hold of it. -/
theorem dirtyCopy_congr {line : Nat} (dir : directory t line = directory s line) (l1 : ∀ e, l1Line t e line = l1Line s e line)
    (wb : ∀ e, (t.l1 e).wb.find? (fun w => w.1 == line) = (s.l1 e).wb.find? (fun w => w.1 == line)) :
    dirtyCopy t line = dirtyCopy s line := by
  unfold directory at dir
  unfold dirtyCopy
  match ht : cached t line, hs : cached s line with
  | none, none => rfl
  | none, some k => simp [ht, hs] at dir
  | some l, none => simp [ht, hs] at dir
  | some l, some k =>
    obtain ⟨owned, holders⟩ : l.owned = k.owned ∧ l.holders = k.holders := by simpa [ht, hs] using dir
    simp only [owned, holders, l1, wb]

theorem dirtyCopy_congr_of_coh {line : Nat} (dir : directory t line = directory s line) (coh : t.coh = s.coh) :
    dirtyCopy t line = dirtyCopy s line :=
  dirtyCopy_congr dir (fun e => by rw [l1Line, l1Line, l1_congr coh]) (fun e => by rw [l1_congr coh])

theorem SameStores.cached_eq (h : SameStores s t) (line : Nat) : cached t line = cached s line := cached_congr h.lines line

theorem SameStores.dirtyCopy_eq (h : SameStores s t) (line : Nat) : dirtyCopy t line = dirtyCopy s line :=
  dirtyCopy_congr_of_coh (by rw [directory, directory, h.cached_eq]) h.coh

theorem SameStores.cacheByte_eq (h : SameStores s t) (x : Nat) : cacheByte t x = cacheByte s x := by
  simp only [cacheByte, h.cached_eq, tierByte_congr h.cells h.epoch]

theorem SameStores.nodeByte_eq (h : SameStores s t) (x : Nat) : nodeByte t x = nodeByte s x := by
  simp only [nodeByte, h.dirtyCopy_eq, h.cacheByte_eq]

theorem SameStores.whole (h : SameStores s t) (w : LinesWhole s) : LinesWhole t :=
  ⟨fun line l hl => w.1 line l (h.cached_eq line ▸ hl), fun line d hd => w.2 line d (h.dirtyCopy_eq line ▸ hd)⟩

end

section
variable (s : State)

theorem charge_sameStores (a b : Nat) : SameStores s (charge a b s) := by
  have passed := charge_passed s a b
  exact ⟨passed.lines, passed.cells, passed.epoch, passed.coh⟩

theorem guardCount_sameStores (a n : Nat) : SameStores s (guardCount a n s) := by
  unfold guardCount
  split
  · exact {}
  · obtain ⟨r, parts⟩ := raise_parts (s.bump rlgGuardCount 1) rlgEvtGuard
    rw [parts]
    exact {}

theorem guarded_sameStores (kind : Nat) (bs : List Byte) : SameStores s (guarded kind bs s).2 := by
  unfold guarded
  split <;> exact {}

end

/-! ## A snoop (R427, R436) -/

/-- What a snoop that leaves no copy at the L1s brings about: no byte reads otherwise, and the line's bytes stand in the cache or
in the tier. -/
structure Snooped (line : Nat) (s t : State) : Prop where
  bytes : ∀ x, nodeByte t x = nodeByte s x
  clean : dirtyCopy t line = none
  others : ∀ m, m ≠ line → dirtyCopy t m = dirtyCopy s m
  whole : LinesWhole t

section
variable {s : State} {line : Nat}

theorem l1_setL1 (e k : Nat) (x : L1) (s : State) : (s.setL1 e x).l1 k = if k = e then x else s.l1 k := by
  unfold State.l1 State.setL1
  split
  · rename_i h
    rw [h, Tab.get_set_self]
  · rename_i h
    exact Tab.get_set_ne _ _ _ h

/-- A snoop of a line at one L1 leaves what any L1 holds of another line. -/
theorem l1Snooped_other {m : Nat} (h : m ≠ line) (e k : Nat) (s : State) :
    l1Line (l1Snooped false line e s) k m = l1Line s k m ∧
      ((l1Snooped false line e s).l1 k).wb.find? (fun w => w.1 == m) = (s.l1 k).wb.find? (fun w => w.1 == m) := by
  have found {β : Type} (l : List (Nat × β)) :
      (l.filter (fun p => p.1 != line)).find? (fun p => p.1 == m) = l.find? (fun p => p.1 == m) := by
    rw [List.find?_filter]
    congr 1
    funext p
    by_cases hp : p.1 = m <;> simp [hp, h]
  simp only [l1Line, l1Snooped, l1_setL1, Bool.false_eq_true, if_false]
  by_cases he : k = e
  · subst he
    simp only [if_true, found, and_self]
  · simp only [if_neg he, and_self]

theorem each_l1Snooped_other {m : Nat} (h : m ≠ line) (es : List Nat) (k : Nat) (s : State) :
    l1Line (State.each es (l1Snooped false line) s) k m = l1Line s k m ∧
      ((State.each es (l1Snooped false line) s).l1 k).wb.find? (fun w => w.1 == m) = (s.l1 k).wb.find? (fun w => w.1 == m) :=
  each_keeps (fun t => l1Line t k m = l1Line s k m ∧ (t.l1 k).wb.find? (fun w => w.1 == m) = (s.l1 k).wb.find? (fun w => w.1 == m)) _
    (fun e t ht => ⟨(l1Snooped_other h e k t).1.trans ht.1, (l1Snooped_other h e k t).2.trans ht.2⟩) es s ⟨rfl, rfl⟩

theorem each_l1Snooped_mem (es : List Nat) (s : State) : (State.each es (l1Snooped false line) s).mem = s.mem :=
  each_keeps (fun t => t.mem = s.mem) (l1Snooped false line) (fun _ _ ht => ht) es s rfl

/-- A line that no L1 holds has no dirty copy. -/
theorem dirtyCopy_of_no_holder {l : CLine} (hl : cached s line = some l) (h : l.holders = 0) : dirtyCopy s line = none := by
  have lowest : lowestBit 64 l.holders = none := by rw [h]; decide
  simp only [dirtyCopy, hl, lowest, Option.bind_none, ite_self]

theorem dirtyCopy_of_not_owned {l : CLine} (hl : cached s line = some l) (h : l.owned = false) : dirtyCopy s line = none := by
  simp only [dirtyCopy, hl, h, Bool.false_eq_true, if_false]

theorem dirtyCopy_of_not_cached (h : cached s line = none) : dirtyCopy s line = none := by simp only [dirtyCopy, h]

/-- The line as a snoop that invalidates the L1 copies leaves it in the cache. -/
def snoopedLine (s : State) (line : Nat) (l : CLine) : CLine :=
  { (match dirtyCopy s line with
      | some d => { l with data := d.2.1, poison := d.2.2, dirty := true }
      | none => l : CLine) with owned := false, holders := 0 }

/-- The snooped line holds what a coherent agent read of it. -/
theorem snoopedLine_data {l : CLine} (hl : cached s line = some l) (x : Nat) (hx : x / 128 = line) :
    (snoopedLine s line l).data.getD (x % 128) 0 = nodeByte s x := by
  subst hx
  unfold snoopedLine nodeByte
  cases hd : dirtyCopy s (x / 128) with
  | some d => rfl
  | none => simp only [cacheByte, hl]

theorem snoopedLine_length {l : CLine} (w : LinesWhole s) (hl : cached s line = some l) : (snoopedLine s line l).data.length = 128 := by
  unfold snoopedLine
  cases hd : dirtyCopy s line with
  | some d => exact w.2 line d hd
  | none => exact w.1 line l hl

theorem snoopLine_eq {l : CLine} (hl : cached s line = some l) (h : l.holders ≠ 0) : snoopLine false false line s =
    State.each ((List.range 64).filter (fun e => bitOf l.holders e)) (l1Snooped false line)
      ((s.setLine line (snoopedLine s line l)).bump cohSnoopsCount ((List.range 64).filter (fun e => bitOf l.holders e)).length) := by
  simp only [snoopLine, hl, if_neg h]
  rfl

/-- Whatever the L1s hold of the line, afterwards its bytes stand in the cache, or in the tier where the cache has no such line. -/
theorem snoopLine_snooped (w : LinesWhole s) (line : Nat) : Snooped line s (snoopLine false false line s) := by
  cases hl : cached s line with
  | none =>
    have same : snoopLine false false line s = s := by simp only [snoopLine, hl]
    rw [same]
    exact ⟨fun _ => rfl, dirtyCopy_of_not_cached hl, fun _ _ => rfl, w⟩
  | some l =>
    by_cases h : l.holders = 0
    · have same : snoopLine false false line s = s := by simp only [snoopLine, hl, if_pos h]
      rw [same]
      exact ⟨fun _ => rfl, dirtyCopy_of_no_holder hl h, fun _ _ => rfl, w⟩
    · generalize ht : snoopLine false false line s = t
      rw [snoopLine_eq hl h] at ht
      have mem : t.mem = (s.setLine line (snoopedLine s line l)).mem := by rw [← ht, each_l1Snooped_mem]; rfl
      have len := snoopedLine_length w hl
      have at_ : cached t line = some (snoopedLine s line l) :=
        (cached_congr (congrArg MemState.lines mem) line).trans (cached_setLine_self (by intro e; simp [e] at len) line s)
      have away (m : Nat) (hm : m ≠ line) : cached t m = cached s m :=
        (cached_congr (congrArg MemState.lines mem) m).trans (cached_setLine_ne hm _ s)
      have clean : dirtyCopy t line = none := dirtyCopy_of_not_owned at_ rfl
      have others (m : Nat) (hm : m ≠ line) : dirtyCopy t m = dirtyCopy s m := by
        refine dirtyCopy_congr (by rw [directory, directory, away m hm]) (fun e => ?_) (fun e => ?_) <;> rw [← ht]
        · exact (each_l1Snooped_other hm _ e _).1
        · exact (each_l1Snooped_other hm _ e _).2
      refine ⟨fun x => ?bytes, clean, others, fun m k hk => ?lines, fun m d hd => ?copies⟩
      case bytes =>
        by_cases hx : x / 128 = line
        · rw [← snoopedLine_data hl x hx, nodeByte, hx, clean]
          simp only [cacheByte, hx, at_]
        · have tier : tierByte t x = tierByte s x := by simp only [tierByte, memDflt, mem]; rfl
          simp only [nodeByte, others _ hx, cacheByte, away _ hx, tier]
      case lines =>
        by_cases hm : m = line
        · subst hm
          rw [at_] at hk
          cases hk
          exact len
        · exact w.1 m k (away m hm ▸ hk)
      case copies =>
        by_cases hm : m = line
        · subst hm
          rw [clean] at hd
          cases hd
        · exact w.2 m d (others m hm ▸ hd)

end

/-! ## A byte at the coherence point, and its poison -/

section
variable {s : State}

/-- A line of the cache rewritten with as many bytes and the same directory entry leaves every dirty copy. -/
theorem setLine_dirtyCopy {line : Nat} {l k : CLine} (hl : cached s line = some l) (len : k.data.length = 128)
    (owned : k.owned = l.owned) (holders : k.holders = l.holders) (m : Nat) : dirtyCopy (s.setLine line k) m = dirtyCopy s m := by
  refine dirtyCopy_congr_of_coh ?_ rfl
  by_cases hm : m = line
  · subst hm
    rw [directory, directory, cached_setLine_self (by intro e; simp [e] at len), hl, Option.map_some, Option.map_some, owned, holders]
  · rw [directory, directory, cached_setLine_ne hm]

theorem setLine_whole {line : Nat} {l k : CLine} (w : LinesWhole s) (hl : cached s line = some l) (len : k.data.length = 128)
    (owned : k.owned = l.owned) (holders : k.holders = l.holders) : LinesWhole (s.setLine line k) := by
  refine ⟨fun m j hj => ?_, fun m d hd => w.2 m d (setLine_dirtyCopy hl len owned holders m ▸ hd)⟩
  by_cases hm : m = line
  · subst hm
    rw [cached_setLine_self (by intro e; simp [e] at len)] at hj
    cases hj
    exact len
  · exact w.1 m j (cached_setLine_ne hm _ s ▸ hj)

theorem cacheByte_setLine {line : Nat} {k : CLine} (len : k.data.length = 128) (x : Nat) :
    cacheByte (s.setLine line k) x = if x / 128 = line then k.data.getD (x % 128) 0 else cacheByte s x := by
  split
  · rename_i hx
    simp only [cacheByte, hx, cached_setLine_self (show k.data ≠ [] by intro e; simp [e] at len)]
  · rename_i hx
    simp only [cacheByte, cached_setLine_ne hx]
    rfl

theorem cacheByte_tierPut {a : Nat} (h : cached s (a / 128) = none) (b : Byte) (x : Nat) :
    cacheByte (tierPut a b s) x = if x = a then b else cacheByte s x := by
  have same : cached (tierPut a b s) (x / 128) = cached s (x / 128) := rfl
  split
  · rename_i hx
    subst hx
    simp only [cacheByte, same, h, tierByte_put_self]
  · rename_i hx
    simp only [cacheByte, same, tierByte_put_ne s b hx]

theorem cachePut_dirtyCopy (w : LinesWhole s) (a : Nat) (b : Byte) (m : Nat) : dirtyCopy (cachePut a b s) m = dirtyCopy s m := by
  unfold cachePut
  split
  · rename_i l hl
    exact setLine_dirtyCopy (k := { l with data := l.data.set (a % 128) b, dirty := true }) hl (by simpa using w.1 _ l hl) rfl rfl m
  · exact dirtyCopy_congr_of_coh rfl rfl

theorem cachePut_whole (w : LinesWhole s) (a : Nat) (b : Byte) : LinesWhole (cachePut a b s) := by
  unfold cachePut
  split
  · rename_i l hl
    exact setLine_whole (k := { l with data := l.data.set (a % 128) b, dirty := true }) w hl (by simpa using w.1 _ l hl) rfl rfl
  · exact ⟨w.1, w.2⟩

theorem cachePut_cacheByte (w : LinesWhole s) (a : Nat) (b : Byte) (x : Nat) :
    cacheByte (cachePut a b s) x = if x = a then b else cacheByte s x := by
  unfold cachePut
  split
  · rename_i l hl
    have len := w.1 _ l hl
    rw [cacheByte_setLine (by simpa using len)]
    by_cases same : x = a
    · subst same
      simp [Nat.mod_lt, len]
    · rw [if_neg same]
      split
      · rename_i hx
        have off : a % 128 ≠ x % 128 := by omega
        simp only [cacheByte, hx, hl, List.getD_eq_getElem?_getD, List.getElem?_set_ne off]
      · rfl
  · rename_i hl
    exact cacheByte_tierPut hl b x

/-- A byte put where no dirty copy of its line stands is read back, and every other byte as before. -/
theorem cachePut_nodeByte (w : LinesWhole s) {a : Nat} (clean : dirtyCopy s (a / 128) = none) (b : Byte) (x : Nat) :
    nodeByte (cachePut a b s) x = if x = a then b else nodeByte s x := by
  rw [nodeByte, nodeByte, cachePut_dirtyCopy w, cachePut_cacheByte w]
  by_cases hx : x = a
  · subst hx
    simp only [clean, if_true]
  · simp only [if_neg hx]

/-- A line of the cache rewritten with the same bytes and the same directory entry: no byte reads otherwise. -/
theorem setLine_nodeByte {line : Nat} {l k : CLine} (w : LinesWhole s) (hl : cached s line = some l) (data : k.data = l.data)
    (owned : k.owned = l.owned) (holders : k.holders = l.holders) :
    LinesWhole (s.setLine line k) ∧ ∀ x, nodeByte (s.setLine line k) x = nodeByte s x := by
  have len : k.data.length = 128 := data ▸ w.1 _ l hl
  refine ⟨setLine_whole w hl len owned holders, fun x => ?_⟩
  have same : cacheByte (s.setLine line k) x = cacheByte s x := by
    rw [cacheByte_setLine len]
    split
    · rename_i hx
      simp only [cacheByte, hx, hl, data]
    · rfl
  rw [nodeByte, nodeByte, setLine_dirtyCopy hl len owned holders, same]

/-- Poison moves no byte. -/
theorem poisonPut_nodeByte (w : LinesWhole s) (a : Nat) (v : Bool) :
    LinesWhole (poisonPut a v s) ∧ ∀ x, nodeByte (poisonPut a v s) x = nodeByte s x := by
  unfold poisonPut
  split
  · rename_i l hl
    extract_lets q m old
    exact setLine_nodeByte (k := { l with poison := if v then Nat.lor old m else old }) w hl rfl rfl rfl
  · exact ⟨⟨w.1, w.2⟩, fun x => rfl⟩

end

/-! ## The three passes of a write -/

/-- The snoop of one line that a write touches, with what moves at a channel charged (R186, R436). -/
def snoopCharge (a n : Nat) (t : State) (i : Nat) : State :=
  let l := a / 128 + i
  let t := snoopLine false false l t
  if (cached t l).isSome then t
  else charge (l * 128) (if a / granule a = (a + n - 1) / granule a then granule a else 128) t

/-- The snoops of all the lines that a write touches. -/
def snoopPass (a n : Nat) (s : State) : State := (List.range ((a + n - 1) / 128 - a / 128 + 1)).foldl (snoopCharge a n) s

/-- The bytes put where they are served (R175). -/
def bytePass (a n : Nat) (bs : List Byte) (s : State) : State :=
  (List.range n).foldl (fun t i => if refusal t (a + i) = 0 then cachePut (a + i) (bs.getD i 0) t else t) s

/-- The poison of the whole granules cleared (R215). -/
def poisonPass (a n : Nat) (s : State) : State :=
  (List.range ((a + n - 1) / granule a - a / granule a + 1)).foldl
    (fun t i =>
      let b := (a / granule a + i) * granule a
      if a ≤ b ∧ b + granule a ≤ a + n ∧ refusal t b = 0 then poisonPut b false t else t) s

/-- The bytes that a write stores: free values in a DEST range of a batch that is not covered (R267). -/
def storedBytes (a : Nat) (bs : List Byte) (s : State) : List Byte :=
  if guardKind s a bs.length = 2 then leBytes bs.length s.takeFree.1 else bs

/-- The state in which a write's snoops begin. -/
def guardedWrite (a : Nat) (bs : List Byte) (s : State) : State :=
  (guarded (if guardKind s a bs.length = 2 then 2 else 0) bs (guardCount a bs.length s)).2

theorem guardCount_free (a n : Nat) (s : State) : (guardCount a n s).free = s.free := by
  unfold guardCount
  split
  · rfl
  · rw [raise_free_frame, bump_free_frame]

theorem guarded_fst (a : Nat) (bs : List Byte) (s : State) :
    (guarded (if guardKind s a bs.length = 2 then 2 else 0) bs (guardCount a bs.length s)).1 = storedBytes a bs s := by
  unfold guarded storedBytes
  split <;> simp [State.takeFree, guardCount_free]

theorem nodeWrite_passes {bs : List Byte} (h : bs ≠ []) (a : Nat) (s : State) : nodeWrite a bs s =
    poisonPass a bs.length (bytePass a bs.length (storedBytes a bs s) (snoopPass a bs.length (guardedWrite a bs s))) := by
  rw [← guarded_fst]
  exact if_neg (fun e => h (List.length_eq_zero_iff.mp e))

theorem guardedWrite_sameStores (a : Nat) (bs : List Byte) (s : State) : SameStores s (guardedWrite a bs s) := by
  have counted := guardCount_sameStores s a bs.length
  have guarded := guarded_sameStores (guardCount a bs.length s) (if guardKind s a bs.length = 2 then 2 else 0) bs
  exact ⟨guarded.lines.trans counted.lines, guarded.cells.trans counted.cells, guarded.epoch.trans counted.epoch,
    guarded.coh.trans counted.coh⟩

/-- The placing fields of partitions are none of those that a write counts in. -/
theorem Placed.uncounted {g : Fld} (h : Placed g) : Uncounted g :=
  ⟨h.ne (by decide), ⟨h.ne (by decide), h.ne (by decide)⟩, fun p => h.ne (by simp [Fld.key, memPartBytesCount]; omega)⟩

theorem snoopCharge_get (a n : Nat) (t : State) (i : Nat) {g : Fld} (h : Uncounted g) : (snoopCharge a n t i).get g = t.get g := by
  unfold snoopCharge
  dsimp only
  split
  · exact snoopLine_get t _ _ _ h.1
  · rw [charge_get _ _ _ h, snoopLine_get t _ _ _ h.1]

/-- What a write counts before its bytes are stored moves no partition. -/
theorem snoopPass_refusal (a n b : Nat) (bs : List Byte) (s : State) :
    refusal (snoopPass a n (guardedWrite a bs s)) b = refusal s b := by
  refine refusal_congr (fun g hg => ?_) b
  rw [snoopPass, foldl_get g _ (fun t i => snoopCharge_get a n t i hg.uncounted), guardedWrite, guarded_get,
    guardCount_get _ _ _ hg.uncounted]

section
variable {s : State} (w : LinesWhole s)
include w

theorem snoopCharge_snooped (a n i : Nat) : Snooped (a / 128 + i) s (snoopCharge a n s i) := by
  have snooped := snoopLine_snooped w (a / 128 + i)
  unfold snoopCharge
  dsimp only
  split
  · exact snooped
  · have stores := charge_sameStores (snoopLine false false (a / 128 + i) s) ((a / 128 + i) * 128)
      (if a / granule a = (a + n - 1) / granule a then granule a else 128)
    exact ⟨fun x => (stores.nodeByte_eq x).trans (snooped.bytes x), (stores.dirtyCopy_eq _).trans snooped.clean,
      fun m hm => (stores.dirtyCopy_eq m).trans (snooped.others m hm), stores.whole snooped.whole⟩

/-- After the snoops of the first `k` lines every byte reads as before, and no L1 holds a dirty copy of those lines. -/
theorem foldl_snoopCharge_spec (a n k : Nat) : LinesWhole ((List.range k).foldl (snoopCharge a n) s) ∧
    (∀ x, nodeByte ((List.range k).foldl (snoopCharge a n) s) x = nodeByte s x) ∧
    ∀ i < k, dirtyCopy ((List.range k).foldl (snoopCharge a n) s) (a / 128 + i) = none := by
  induction k with
  | zero => exact ⟨w, fun _ => rfl, fun i hi => absurd hi (Nat.not_lt_zero i)⟩
  | succ k ih =>
    obtain ⟨whole, bytes, clean⟩ := ih
    have snooped := snoopCharge_snooped whole a n k
    rw [List.range_succ, List.foldl_append, List.foldl_cons, List.foldl_nil]
    refine ⟨snooped.whole, fun x => (snooped.bytes x).trans (bytes x), fun i hi => ?_⟩
    by_cases last : i = k
    · rw [last]
      exact snooped.clean
    · exact (snooped.others _ (by omega)).trans (clean i (by omega))

/-- The lines of the snoops are those of the written bytes. -/
theorem snoopPass_spec (a n : Nat) : LinesWhole (snoopPass a n s) ∧ (∀ x, nodeByte (snoopPass a n s) x = nodeByte s x) ∧
    ∀ i < n, dirtyCopy (snoopPass a n s) ((a + i) / 128) = none := by
  obtain ⟨whole, bytes, clean⟩ := foldl_snoopCharge_spec w a n ((a + n - 1) / 128 - a / 128 + 1)
  refine ⟨whole, bytes, fun i hi => ?_⟩
  have line : (a + i) / 128 = a / 128 + ((a + i) / 128 - a / 128) := by omega
  rw [line]
  exact clean _ (by omega)

/-- The first bytes of the range put in their places; whether a byte is served does not change. -/
theorem bytePass_spec {a n : Nat} (clean : ∀ i < n, dirtyCopy s ((a + i) / 128) = none) (bs : List Byte) :
    LinesWhole (bytePass a n bs s) ∧ (∀ x, refusal (bytePass a n bs s) x = refusal s x) ∧
      (∀ m, dirtyCopy (bytePass a n bs s) m = dirtyCopy s m) ∧
      ∀ x, nodeByte (bytePass a n bs s) x = if a ≤ x ∧ x < a + n ∧ refusal s x = 0 then bs.getD (x - a) 0 else nodeByte s x := by
  induction n with
  | zero => exact ⟨w, fun _ => rfl, fun _ => rfl, fun x => (if_neg (by omega)).symm⟩
  | succ n ih =>
    obtain ⟨whole, served, copies, bytes⟩ := ih (fun i hi => clean i (by omega))
    have last : bytePass a (n + 1) bs s = if refusal (bytePass a n bs s) (a + n) = 0
        then cachePut (a + n) (bs.getD n 0) (bytePass a n bs s) else bytePass a n bs s := by
      rw [bytePass, List.range_succ, List.foldl_append]
      rfl
    rw [last, served]
    split
    · rename_i ok
      refine ⟨cachePut_whole whole _ _, fun x => (refusal_congr (fun g _ => cachePut_get _ _ _ g) x).trans (served x),
        fun m => (cachePut_dirtyCopy whole _ _ m).trans (copies m), fun x => ?_⟩
      rw [cachePut_nodeByte whole ((copies _).trans (clean n (by omega))), bytes]
      by_cases here : x = a + n
      · subst here
        rw [if_pos rfl, if_pos ⟨by omega, by omega, ok⟩, Nat.add_sub_cancel_left]
      · rw [if_neg here]
        exact if_congr ⟨fun h => ⟨h.1, by omega, h.2.2⟩, fun h => ⟨h.1, by omega, h.2.2⟩⟩ rfl rfl
    · rename_i refused
      refine ⟨whole, served, copies, fun x => (bytes x).trans
        (if_congr ⟨fun h => ⟨h.1, by omega, h.2.2⟩, fun h => ⟨h.1, ?_, h.2.2⟩⟩ rfl rfl)⟩
      have : x ≠ a + n := fun e => refused (e ▸ h.2.2)
      omega

theorem poisonPass_spec (a n : Nat) : LinesWhole (poisonPass a n s) ∧ ∀ x, nodeByte (poisonPass a n s) x = nodeByte s x := by
  refine foldl_keeps (fun t => LinesWhole t ∧ ∀ x, nodeByte t x = nodeByte s x) _ (fun t i h => ?_) _ s ⟨w, fun _ => rfl⟩
  dsimp only
  split
  · obtain ⟨whole, bytes⟩ := poisonPut_nodeByte h.1 ((a / granule a + i) * granule a) false
    exact ⟨whole, fun x => (bytes x).trans (h.2 x)⟩
  · exact h

/-- A coherent write of bytes stores each one that is served and changes no other. -/
theorem nodeWrite_nodeByte {bs : List Byte} (some_ : bs ≠ []) (a x : Nat) : nodeByte (nodeWrite a bs s) x =
    if a ≤ x ∧ x < a + bs.length ∧ refusal s x = 0 then (storedBytes a bs s).getD (x - a) 0 else nodeByte s x := by
  have start := guardedWrite_sameStores a bs s
  obtain ⟨whole, before, clean⟩ := snoopPass_spec (start.whole w) a bs.length
  obtain ⟨whole, -, -, stored⟩ := bytePass_spec whole clean (storedBytes a bs s)
  rw [nodeWrite_passes some_, (poisonPass_spec whole a bs.length).2, stored, before, start.nodeByte_eq, snoopPass_refusal]

end

/-- Settles O40: each byte of the range is served, so each is stored. -/
theorem coherentWriteReadsBack : Obligations.CoherentWriteReadsBack := by
  intro s a bs whole served
  by_cases none_ : bs = []
  · subst none_
    exact ⟨fun i hi => absurd hi (Nat.not_lt_zero i), fun _ _ => rfl, fun _ _ _ => rfl⟩
  · refine ⟨fun i hi => ?inside, fun x hx => ?outside, fun f hf bytes => ?regs⟩
    case inside =>
      rw [nodeWrite_nodeByte whole none_, if_pos ⟨by omega, by omega, served i hi⟩, Nat.add_sub_cancel_left]
      rfl
    case outside => rw [nodeWrite_nodeByte whole none_, if_neg (by omega)]
    case regs =>
      simp only [List.mem_cons, List.not_mem_nil, or_false, not_or] at hf
      exact nodeWrite_get s a bs ⟨hf.1, hf.2, bytes⟩

/-- Settles O41: no byte of the range is served, so none is stored. -/
theorem refusedWriteStoresNothing : Obligations.RefusedWriteStoresNothing := by
  intro s a bs whole refused x
  by_cases none_ : bs = []
  · subst none_
    rfl
  · rw [nodeWrite_nodeByte whole none_, if_neg]
    rintro ⟨low, high, served⟩
    exact refused (x - a) (by omega) (by rwa [Nat.add_sub_cancel' low])

end Sys2Proof.Machine
end

section
/-! PROOF. Accesses, grants, partitions and translations of memory (chapter 05, R366): O15. -/

namespace Sys2Proof.Machine

/-! ## Requests of one line (R175, R190, R193, R198) -/

/-- An atomic that no rule rejects is performed. -/
theorem atomicStatus_eq_zero {s : State} {fmt a x : Nat} (format : fmt < 6) (ok : atomicOk fmt x = true) (served : refusal s a = 0)
    (aligned : a % atomicSize fmt = 0) : atomicStatus s fmt a x = 0 := by
  have form : ¬(6 ≤ fmt ∨ (!atomicOk fmt x) = true) := by simp [ok]; omega
  rw [atomicStatus, if_neg form, if_neg (not_not.mpr served), if_neg (not_not.mpr aligned)]

/-- The adder's turn, or that of the data of a line, at a line whose first request has issued. -/
theorem onTurn_guard {s : State} {l : Nat} {x : Bool} (issued : s.mem.flying.contains l = true) (kind : x = false)
    (turn : onTurn s (l * 128) [] = true) : ¬((!s.mem.flying.contains l || x || !onTurn s (l * 128) []) = true) := by
  rw [issued, kind, turn]
  decide

/-- The first request of a busy line that is no atomic completes with the line's data. -/
theorem execLineFillDone_of_busy {line : BitVec 41} {ecc : List (Nat × Ecc)} {r : MReq} {rest : List MReq} {s : State}
    (busy : Tab.get [] s.mem.busy line.toNat = r :: rest) (issued : s.mem.flying.contains line.toNat = true) (kind : r.kind ≠ 2)
    (turn : onTurn s (line.toNat * 128) [] = true) :
    execLineFillDone line ecc s = done (completeBusy line.toNat ecc s) := by
  simp only [execLineFillDone, busy]
  exact if_neg (onTurn_guard issued (by simpa using kind) turn)

theorem execAdderComplete_of_busy {line : BitVec 41} {ecc : List (Nat × Ecc)} {r : MReq} {rest : List MReq} {s : State}
    (busy : Tab.get [] s.mem.busy line.toNat = r :: rest) (issued : s.mem.flying.contains line.toNat = true) (kind : r.kind = 2)
    (turn : onTurn s (line.toNat * 128) [] = true) :
    execAdderComplete line ecc s = done (completeBusy line.toNat ecc s) := by
  simp only [execAdderComplete, busy]
  exact if_neg (onTurn_guard issued (by simpa using kind) turn)

/-- Settles O15: the guards of each command leave one branch of its meaning. -/
theorem memoryCompletes : Obligations.MemoryCompletes := by
  refine ⟨?access, ?refused, ?atomic, ?deadline, ?split, ?regulator, ?fill, ?fetch, ?adder, ?enable, ?disable, ?flush, ?rate, ?inval⟩
  case access =>
    rintro q wr a d n h u dl s m rfl some_ served
    simp only [exec_memoryAccess, execMemoryAccess]
    rw [if_neg some_, if_neg (not_not.mpr served)]
    rfl
  case refused =>
    intro q a n h u dl s some_ fits refused
    have whole : min n (128 - a.toNat % 128) = n := Nat.min_eq_left fits
    have own : q.val ≠ 584 := by omega
    simp only [exec_memoryAccess, execMemoryAccess, Bool.false_eq_true, if_false, whole]
    rw [if_neg some_, if_pos refused, refuseAccess, if_neg own]
    rfl
  case atomic =>
    intro q a f g x s format ok served aligned
    simp only [exec_atomicRequest, execAtomicRequest, atomicStatus_eq_zero format ok served aligned]
    rfl
  case deadline =>
    rintro p r s u arb first rfl
    simp only [exec_missGrant, execMissGrant, missGrant, arb, if_true, first]
    rfl
  case split =>
    rintro p k c r s u el arb rfl class_ first rfl
    simp only [exec_missGrant, execMissGrant, missGrant, arb, Bool.false_eq_true, if_false, class_, first]
    rfl
  case regulator =>
    rintro p r s u next level ends rfl
    simp only [exec_regulatorIssue, execRegulatorIssue, nextGranted, next, level, ends, Bool.not_true, Bool.false_eq_true, false_and,
      or_self, if_false]
    rfl
  case fill =>
    intro l ecc r rest s busy issued kind turn
    rw [exec_lineFillDone, execLineFillDone_of_busy busy issued (by omega) turn]
    simp only [completeBusy, busy]
    rw [if_neg (by omega), if_neg (by omega)]
    rfl
  case fetch =>
    intro l ecc r rest s busy issued kind turn
    rw [exec_lineFillDone, execLineFillDone_of_busy busy issued (by omega) turn]
    simp only [completeBusy, busy]
    rw [if_neg (by omega), if_pos kind]
    rfl
  case adder =>
    intro l ecc r rest s busy issued kind turn
    rw [exec_adderComplete, execAdderComplete_of_busy busy issued kind turn]
    simp only [completeBusy, busy]
    rw [if_pos kind]
    rfl
  case enable =>
    rintro p c s u rfl disabled idle
    simp only [exec_partitionEnable, execPartitionEnable, disabled, idle, Bool.false_eq_true, if_false]
    exact ⟨fun ok => by simp only [ok]; rfl, fun k cause => by simp only [cause]; rfl⟩
  case disable =>
    rintro p c s u rfl enabled
    exact if_pos enabled
  case flush =>
    rintro p s u draining quiet unused rfl
    simp only [exec_flushDone, execFlushDone, draining, quiet, unused, Bool.not_true, Bool.or_self, Bool.false_eq_true, if_false]
    rfl
  case rate => exact fun p v s => ⟨rfl, rfl⟩
  case inval =>
    rintro v s u rfl go all
    simp only [exec_mmuInval, execMmuInval, go, all, Bool.not_true, Bool.false_eq_true, false_or]
    rfl

end Sys2Proof.Machine
end

section
/-! PROOF. What the tiers hold and a command leaves: the functions of the model that neither write a byte of the tiers nor lay a
frame out anew, and the commands that call no other (R174, R180): O58. -/

namespace Sys2Proof.Machine

/-- What the bytes of the tiers depend on: the cells that are listed, and the layout epochs that say how the others read. -/
def State.tiers (s : State) : Tab Byte × Tab Nat := (s.mem.cells, s.mem.epoch)

theorem tiers_congr {s t : State} (cells : t.mem.cells = s.mem.cells) (epoch : t.mem.epoch = s.mem.epoch) : t.tiers = s.tiers := by
  rw [State.tiers, State.tiers, cells, epoch]

/-- Equal tiers read the same bytes. -/
theorem tierByte_of_tiers {s t : State} (h : t.tiers = s.tiers) (a : Nat) : tierByte t a = tierByte s a :=
  tierByte_congr (congrArg Prod.fst h) (congrArg Prod.snd h) a

/-! ## Updates of the state

A state written out field by field has the tiers of its memory. -/

@[simp] theorem tiers_mk (pending regs now free sent tick ports fab cal mem care coh rlg tlb str upe mxa kvs rng fum flt host mod
      lights boot rst flash) :
    (State.mk pending regs now free sent tick ports fab cal mem care coh rlg tlb str upe mxa kvs rng fum flt host mod lights boot rst
      flash).tiers = (mem.cells, mem.epoch) := by
  rw [State.tiers]

@[simp] theorem tiers_of_mem (s : State) : (s.mem.cells, s.mem.epoch) = s.tiers := by rw [State.tiers]

section
variable (s : State)

@[simp] theorem set_tiers (f : Fld) (v : Nat) : (s.set f v).tiers = s.tiers := tiers_congr rfl rfl
@[simp] theorem bump_tiers (f : Fld) (n : Nat) : (s.bump f n).tiers = s.tiers := tiers_congr rfl rfl
@[simp] theorem clear_tiers (f : Fld) : (s.clear f).tiers = s.tiers := tiers_congr rfl rfl
@[simp] theorem emit_tiers (o : Out) : (s.emit o).tiers = s.tiers := tiers_congr rfl rfl
@[simp] theorem setL1_tiers (e : Nat) (x : L1) : (s.setL1 e x).tiers = s.tiers := tiers_congr rfl rfl
@[simp] theorem reach_tiers (n : Nat) : (s.reach n).tiers = s.tiers := tiers_congr rfl rfl
@[simp] theorem takeFree_tiers : (s.takeFree.2).tiers = s.tiers := tiers_congr rfl rfl
@[simp] theorem settle_tiers : (settle s).tiers = s.tiers := tiers_congr rfl rfl
@[simp] theorem alert_tiers (k : Nat) : (alert k s).tiers = s.tiers := tiers_congr rfl rfl
@[simp] theorem onTick_tiers (f : TickState → TickState) : (s.onTick f).tiers = s.tiers := tiers_congr rfl rfl
@[simp] theorem onPort_tiers (p : Nat) (f : Port → Port) : (s.onPort p f).tiers = s.tiers := tiers_congr rfl rfl
@[simp] theorem onFab_tiers (f : FabState → FabState) : (s.onFab f).tiers = s.tiers := tiers_congr rfl rfl
@[simp] theorem onCal_tiers (f : CalState → CalState) : (s.onCal f).tiers = s.tiers := tiers_congr rfl rfl
@[simp] theorem onBoot_tiers (f : BootState → BootState) : (s.onBoot f).tiers = s.tiers := tiers_congr rfl rfl
@[simp] theorem onEng_tiers (e : Nat) (f : Eng → Eng) : (s.onEng e f).tiers = s.tiers := tiers_congr rfl rfl
@[simp] theorem onFlt_tiers (f : FltState → FltState) : (s.onFlt f).tiers = s.tiers := tiers_congr rfl rfl
@[simp] theorem onHost_tiers (f : HostState → HostState) : (s.onHost f).tiers = s.tiers := tiers_congr rfl rfl
@[simp] theorem onQueue_tiers (q : Nat) (f : HQueue → HQueue) : (s.onQueue q f).tiers = s.tiers := tiers_congr rfl rfl
@[simp] theorem onMod_tiers (f : ModState → ModState) : (s.onMod f).tiers = s.tiers := tiers_congr rfl rfl
@[simp] theorem onFum_tiers (f : FumState → FumState) : (s.onFum f).tiers = s.tiers := tiers_congr rfl rfl
@[simp] theorem onRng_tiers (f : RngState → RngState) : (s.onRng f).tiers = s.tiers := tiers_congr rfl rfl
@[simp] theorem onRst_tiers (f : RstState → RstState) : (s.onRst f).tiers = s.tiers := tiers_congr rfl rfl
@[simp] theorem onRlg_tiers (f : RlgState → RlgState) : (s.onRlg f).tiers = s.tiers := tiers_congr rfl rfl
@[simp] theorem onCtx_tiers (c : Nat) (f : StrCtx → StrCtx) : (s.onCtx c f).tiers = s.tiers := tiers_congr rfl rfl
@[simp] theorem sendMsg_tiers (m : CMsg) : (sendMsg m s).tiers = s.tiers := tiers_congr rfl rfl
@[simp] theorem takeMsg_tiers (m : CMsg) : (takeMsg m s).tiers = s.tiers := tiers_congr rfl rfl
@[simp] theorem setLine_tiers (n : Nat) (l : CLine) : (s.setLine n l).tiers = s.tiers := tiers_congr rfl rfl
@[simp] theorem setPoison_tiers (a : Nat) (v : Bool) : (s.setPoison a v).tiers = s.tiers := tiers_congr rfl rfl
@[simp] theorem raise_tiers (f : Fld) : (raise f s).tiers = s.tiers := tiers_congr (by rw [raise_mem_frame]) (by rw [raise_mem_frame])

end

/-! ## Branches and folds -/

@[simp] theorem tiers_ite (c : Prop) [Decidable c] (s t : State) : (if c then s else t).tiers = if c then s.tiers else t.tiers :=
  apply_ite State.tiers c s t

section
variable {α β : Type}

@[simp] theorem each_tiers {f : α → State → State} (h : ∀ a t, (f a t).tiers = t.tiers) (l : List α) (s : State) :
    (State.each l f s).tiers = s.tiers := foldl_proj State.tiers (fun t a => h a t) l s

@[simp] theorem foldl_tiers {f : State → α → State} (h : ∀ t a, (f t a).tiers = t.tiers) (l : List α) (s : State) :
    (l.foldl f s).tiers = s.tiers := foldl_proj State.tiers h l s

@[simp] theorem foldl_snd_tiers {f : β × State → α → β × State} (h : ∀ x a, (f x a).2.tiers = x.2.tiers) (l : List α)
    (x : β × State) : (l.foldl f x).2.tiers = x.2.tiers := foldl_proj (fun x => x.2.tiers) h l x

end

/-! ## Outcomes -/

/-- The outcome is a settled next state with the tiers of `s`. -/
def TiersKept (s : State) (o : Host.Outcome State Fault Refusal) : Prop := ∃ t, o = .next (settle t) ∧ t.tiers = s.tiers

@[simp] theorem tiersKept_done {s t : State} : TiersKept s (done t) ↔ t.tiers = s.tiers := by
  refine ⟨?_, fun h => ⟨t, rfl, h⟩⟩
  rintro ⟨u, h, hu⟩
  injection h with h
  exact (congrArg State.tiers h : (settle t).tiers = (settle u).tiers).trans hu

@[simp] theorem tiersKept_ite {s : State} {c : Prop} [Decidable c] {x y : Host.Outcome State Fault Refusal} :
    TiersKept s (if c then x else y) ↔ if c then TiersKept s x else TiersKept s y := by
  split <;> rfl

/-- A register write that carries out a command keeps the tiers when the command does. -/
@[simp] theorem after_tiers {s : State} {o : Host.Outcome State Fault Refusal} (h : TiersKept s o) :
    (after s o).tiers = s.tiers := by
  obtain ⟨t, rfl, ht⟩ := h
  exact ht

/-! ## Machine/Ops.lean -/

@[simp] theorem on_tiers {b f} (h : ∀ t, (f t).tiers = t.tiers) (s) : (State.on b f s).tiers = s.tiers := by simp [State.on, h]
@[simp] theorem sendVector_tiers (v s) : (sendVector v s).tiers = s.tiers := by simp [sendVector]
@[simp] theorem setBucket_tiers (p v s) : (setBucket p v s).tiers = s.tiers := tiers_congr rfl rfl
@[simp] theorem charge_tiers (a b s) : (charge a b s).tiers = s.tiers := by unfold charge; split <;> simp
@[simp] theorem poisonPut_tiers (a v s) : (poisonPut a v s).tiers = s.tiers := by unfold poisonPut; split <;> simp
@[simp] theorem l1Snooped_tiers (keepS line e s) : (l1Snooped keepS line e s).tiers = s.tiers := tiers_congr rfl rfl
@[simp] theorem snoopLine_tiers (keepS discard line s) : (snoopLine keepS discard line s).tiers = s.tiers := by
  unfold snoopLine; split <;> simp
@[simp] theorem guardCount_tiers (a n s) : (guardCount a n s).tiers = s.tiers := by simp [guardCount]
@[simp] theorem guarded_tiers (kind bs s) : (guarded kind bs s).2.tiers = s.tiers := by simp [guarded]
@[simp] theorem nodePoisonWrite_tiers (a n s) : (nodePoisonWrite a n s).tiers = s.tiers := by simp [nodePoisonWrite]
@[simp] theorem refusedAt_tiers (a s) : (refusedAt a s).tiers = s.tiers := by simp [refusedAt]
@[simp] theorem sample_tiers (s) : (sample s).tiers = s.tiers := tiers_congr rfl rfl
@[simp] theorem raiseAlert_tiers (f k s) : (raiseAlert f k s).tiers = s.tiers := by simp [raiseAlert]
@[simp] theorem bootTime_tiers (i s) : (bootTime i s).tiers = s.tiers := by simp [bootTime]

/-! ## Machine/MemCare.lean -/

@[simp] theorem callRemap_tiers (c u count cause s) : (callRemap c u count cause s).tiers = s.tiers := tiers_congr rfl rfl
@[simp] theorem eccCorrected_tiers (c u lanes s) : (eccCorrected c u lanes s).tiers = s.tiers := by
  unfold eccCorrected; dsimp only; split <;> simp
@[simp] theorem setLatent_tiers (place e s) : (setLatent place e s).tiers = s.tiers := tiers_congr rfl rfl
@[simp] theorem failedAnswer_tiers (a s) : (failedAnswer a s).tiers = s.tiers := by unfold failedAnswer; (repeat' split) <;> simp
@[simp] theorem laneSuspect_tiers (c s) : (laneSuspect c s).tiers = s.tiers := by
  unfold laneSuspect; dsimp only; (repeat' split) <;> simp
@[simp] theorem scrubPass_tiers (c s) : (scrubPass c s).tiers = s.tiers := by simp [scrubPass]
@[simp] theorem remapRecord_tiers (r s) : (remapRecord r s).tiers = s.tiers := by
  unfold remapRecord; dsimp only; (repeat' split) <;> simp
@[simp] theorem flashProgram_tiers (o bs s) : (flashProgram o bs s).tiers = s.tiers := tiers_congr rfl rfl
@[simp] theorem flashErase_tiers (o n s) : (flashErase o n s).tiers = s.tiers := tiers_congr rfl rfl
@[simp] theorem logFull_tiers (chan s) : (logFull chan s).tiers = s.tiers := by simp [logFull]
@[simp] theorem execLogCompaction_tiersKept (s) : TiersKept s (execLogCompaction s) := by simp [execLogCompaction]
@[simp] theorem tgStart_tiers (c v rlgBusy s) : (tgStart c v rlgBusy s).tiers = s.tiers := by simp [tgStart]

/-! ## Machine/MemCore.lean -/

@[simp] theorem setQueue_tiers (p l s) : (setQueue p l s).tiers = s.tiers := tiers_congr rfl rfl
@[simp] theorem setGranted_tiers (p l s) : (setGranted p l s).tiers = s.tiers := tiers_congr rfl rfl
@[simp] theorem setBusy_tiers (line l s) : (setBusy line l s).tiers = s.tiers := tiers_congr rfl rfl
@[simp] theorem setCredit_tiers (p c s) : (setCredit p c s).tiers = s.tiers := tiers_congr rfl rfl
@[simp] theorem autowake_tiers (s) : (autowake s).tiers = s.tiers := by simp [autowake]
@[simp] theorem missGrant_tiers (p s) : (missGrant p s).tiers = s.tiers := by
  unfold missGrant; dsimp only; (repeat' split) <;> simp
@[simp] theorem stallCount_tiers (p s) : (stallCount p s).tiers = s.tiers := by unfold stallCount; split <;> simp
@[simp] theorem issue_tiers (p r s) : (issue p r s).tiers = s.tiers := by simp [issue]
@[simp] theorem takeTurn_tiers (a s) : (takeTurn a s).tiers = s.tiers := by unfold takeTurn; split <;> simp
@[simp] theorem grantUntil_tiers (p r n s) : (grantUntil p r n s).tiers = s.tiers := by fun_induction grantUntil <;> simp_all
@[simp] theorem waitLevel_tiers (p r s) : (waitLevel p r s).tiers = s.tiers := by simp [waitLevel]
@[simp] theorem issueUntil_tiers (p r n s) : (issueUntil p r n s).tiers = s.tiers := by
  induction n generalizing s with
  | zero => rfl
  | succ n ih => unfold issueUntil; split <;> simp [ih]
@[simp] theorem tierPass_tiers (r s) : (tierPass r s).tiers = s.tiers := by unfold tierPass; split <;> simp
@[simp] theorem dropLine_tiers (line s) : (dropLine line s).tiers = s.tiers := tiers_congr rfl rfl
@[simp] theorem freeLine_tiers (line s) : (freeLine line s).tiers = s.tiers := by simp [freeLine]
@[simp] theorem hitLine_tiers (line hint l s) : (hitLine line hint l s).tiers = s.tiers := by simp [hitLine]
@[simp] theorem ncHit_tiers (req line s) : (ncHit req line s).tiers = s.tiers := by unfold ncHit; split <;> simp

/-! ## Machine/SliceCore.lean -/

@[simp] theorem toTier_tiers (r s) : (toTier r s).tiers = s.tiers := by unfold toTier; split <;> simp
@[simp] theorem setTxn_tiers (t s) : (setTxn t s).tiers = s.tiers := tiers_congr rfl rfl
@[simp] theorem dropTxn_tiers (line s) : (dropTxn line s).tiers = s.tiers := tiers_congr rfl rfl
@[simp] theorem setPendingQueue_tiers (sl l s) : (setPendingQueue sl l s).tiers = s.tiers := by simp [setPendingQueue]
@[simp] theorem enqueue_tiers (r s) : (enqueue r s).tiers = s.tiers := by simp [enqueue]
@[simp] theorem openTxn_tiers (k es r s) : (openTxn k es r s).tiers = s.tiers := by simp [openTxn]
@[simp] theorem grant_tiers (r s) : (grant r s).tiers = s.tiers := by unfold grant; dsimp only; (repeat' split) <;> simp
@[simp] theorem answer_tiers (r bs po s) : (answer r bs po s).tiers = s.tiers := tiers_congr rfl rfl
@[simp] theorem l1Put_tiers (e line v s) : (l1Put e line v s).tiers = s.tiers := tiers_congr rfl rfl
@[simp] theorem l1Remove_tiers (e line s) : (l1Remove e line s).tiers = s.tiers := tiers_congr rfl rfl
@[simp] theorem l1Open_tiers (e q s) : (l1Open e q s).tiers = s.tiers := tiers_congr rfl rfl
@[simp] theorem l1Close_tiers (e tag s) : (l1Close e tag s).tiers = s.tiers := tiers_congr rfl rfl
@[simp] theorem clearHolder_tiers (e line s) : (clearHolder e line s).tiers = s.tiers := by unfold clearHolder; split <;> simp
@[simp] theorem shareHolder_tiers (line s) : (shareHolder line s).tiers = s.tiers := by unfold shareHolder; split <;> simp
@[simp] theorem dropSnoop_tiers (x s) : (dropSnoop x s).tiers = s.tiers := tiers_congr rfl rfl
@[simp] theorem freeWb_tiers (e line s) : (freeWb e line s).tiers = s.tiers := tiers_congr rfl rfl
@[simp] theorem supersede_tiers (e line s) : (supersede e line s).tiers = s.tiers := by simp [supersede]

/-! ## Machine/Memory.lean -/

@[simp] theorem execMissGrant_tiersKept (part s) : TiersKept s (execMissGrant part s) := by simp [execMissGrant]
@[simp] theorem partRefuse_tiers (p cause s) : (partRefuse p cause s).tiers = s.tiers := by simp [partRefuse]
@[simp] theorem refill_tiers (p s) : (refill p s).tiers = s.tiers := tiers_congr rfl rfl
@[simp] theorem settleBucket_tiers (p s) : (settleBucket p s).tiers = s.tiers := by simp [settleBucket]
@[simp] theorem writeArb_tiers (p v s) : (writeArb p v s).tiers = s.tiers := by simp [writeArb]
@[simp] theorem writeTierMode_tiers (p v s) : (writeTierMode p v s).tiers = s.tiers := by simp [writeTierMode]
@[simp] theorem clearRefused_tiers (p v s) : (clearRefused p v s).tiers = s.tiers := by simp [clearRefused]
@[simp] theorem execPartitionDisable_tiersKept (part cfg s) : TiersKept s (execPartitionDisable part cfg s) := by
  simp [execPartitionDisable]
@[simp] theorem execRegulatorWrite_tiersKept (part burst value s) : TiersKept s (execRegulatorWrite part burst value s) := by
  simp [execRegulatorWrite]
@[simp] theorem writeRange_tiers (p v s) : (writeRange p v s).tiers = s.tiers := by simp [writeRange]
@[simp] theorem writeSplit_tiers (p v s) : (writeSplit p v s).tiers = s.tiers := by simp [writeSplit]
@[simp] theorem regulatorCycle_tiers (s) : (regulatorCycle s).tiers = s.tiers := by simp [regulatorCycle]

/-! ## Machine/Cycle.lean -/

@[simp] theorem coreCycle_tiers (s) : (coreCycle s).tiers = s.tiers := by simp [coreCycle]

/-! ## Machine/Wire.lean -/

@[simp] theorem emitFlit_tiers (p typ seq replayed nak mid s) :
    (emitFlit p typ seq replayed nak mid s).tiers = s.tiers := tiers_congr rfl rfl
@[simp] theorem sendNew_tiers (p ctrl mid s) : (sendNew p ctrl mid s).tiers = s.tiers := tiers_congr rfl rfl
@[simp] theorem drainWait_tiers (p ctrl s) : (drainWait p ctrl s).tiers = s.tiers := by simp [drainWait]
@[simp] theorem offerFlit_tiers (p ctrl mid s) : (offerFlit p ctrl mid s).tiers = s.tiers := by simp [offerFlit]
@[simp] theorem sendCtrl_tiers (p kind content s) : (sendCtrl p kind content s).tiers = s.tiers := by simp [sendCtrl]
@[simp] theorem drainVc_tiers (p vc s) : (drainVc p vc s).tiers = s.tiers := by simp [drainVc]
@[simp] theorem drainHeld_tiers (p s) : (drainHeld p s).tiers = s.tiers := by simp [drainHeld]
@[simp] theorem sendPacket_tiers (p pkt s) : (sendPacket p pkt s).tiers = s.tiers := by simp [sendPacket]
@[simp] theorem sendIdle_tiers (p nak s) : (sendIdle p nak s).tiers = s.tiers := tiers_congr rfl rfl
@[simp] theorem sendProbes_tiers (p n s) : (sendProbes p n s).tiers = s.tiers := by simp [sendProbes]
@[simp] theorem sendTick_tiers (p kind content s) : (sendTick p kind content s).tiers = s.tiers := by simp [sendTick]
@[simp] theorem sendCtrlMask_tiers (mask kind content s) : (sendCtrlMask mask kind content s).tiers = s.tiers := by
  simp [sendCtrlMask]
@[simp] theorem claimRetraining_tiers (p cause s) : (claimRetraining p cause s).tiers = s.tiers := by simp [claimRetraining]
@[simp] theorem clockTo_tiers (src p s) : (clockTo src p s).tiers = s.tiers := by simp [clockTo]
@[simp] theorem clockLost_tiers (p s) : (clockLost p s).tiers = s.tiers := by simp [clockLost]
@[simp] theorem acquireLost_tiers (p s) : (acquireLost p s).tiers = s.tiers := by simp [acquireLost]
@[simp] theorem enterRetrain_tiers (p s) : (enterRetrain p s).tiers = s.tiers := by simp [enterRetrain]
@[simp] theorem resend_tiers (p ctrl s) : (resend p ctrl s).tiers = s.tiers := by simp [resend]

/-! ## Machine/FabCore.lean -/

@[simp] theorem sendVc_tiers (arr pkt s) : (sendVc arr pkt s).tiers = s.tiers := by
  unfold sendVc; dsimp only; (repeat' split) <;> simp
@[simp] theorem respond_tiers (arr dst op tag status data s) : (respond arr dst op tag status data s).tiers = s.tiers := by
  simp [respond]
@[simp] theorem sendMgmt_tiers (dst op payload s) : (sendMgmt dst op payload s).tiers = s.tiers := by simp [sendMgmt]
@[simp] theorem consume_tiers (p pkt s) : (consume p pkt s).tiers = s.tiers := by simp [consume]
@[simp] theorem consumeAny_tiers (pkt s) : (consumeAny pkt s).tiers = s.tiers := by unfold consumeAny; split <;> simp
@[simp] theorem take_tiers (p pkt s) : (take p pkt s).tiers = s.tiers := by simp [take]
@[simp] theorem consumeCtrl_tiers (p kind msg s) : (consumeCtrl p kind msg s).tiers = s.tiers := by
  unfold consumeCtrl; split <;> simp
@[simp] theorem routeCheck_tiers (s) : (routeCheck s).tiers = s.tiers := by simp [routeCheck]
@[simp] theorem routeWrite_tiers (b o bs s) : (routeWrite b o bs s).tiers = s.tiers := by simp [routeWrite]
@[simp] theorem member_tiers (s) : (member s).tiers = s.tiers := by simp [member]
@[simp] theorem loadBeaconPort_tiers (rank s) : (loadBeaconPort rank s).tiers = s.tiers := by simp [loadBeaconPort]
@[simp] theorem routeSwap_tiers (s) : (routeSwap s).tiers = s.tiers := by unfold routeSwap; dsimp only; split <;> simp
@[simp] theorem neighbourUp_tiers (p s) : (neighbourUp p s).tiers = s.tiers := by simp [neighbourUp]
@[simp] theorem announceAll_tiers (s) : (announceAll s).tiers = s.tiers := by simp [announceAll]

/-! ## Machine/Links.lean -/

@[simp] theorem latchModes_tiers (p s) : (latchModes p s).tiers = s.tiers := tiers_congr rfl rfl
@[simp] theorem sendPages_tiers (p s) : (sendPages p s).tiers = s.tiers := by simp [sendPages]
@[simp] theorem enter_tiers (p st s) : (enter p st s).tiers = s.tiers := tiers_congr rfl rfl
@[simp] theorem toDetect_tiers (p s) : (toDetect p s).tiers = s.tiers := by simp [toDetect]
@[simp] theorem toExchange_tiers (p s) : (toExchange p s).tiers = s.tiers := by simp [toExchange]
@[simp] theorem nextAttempt_tiers (p s) : (nextAttempt p s).tiers = s.tiers := by simp [nextAttempt]
@[simp] theorem execSignalDetect_tiersKept (port s) : TiersKept s (execSignalDetect port s) := by simp [execSignalDetect]
@[simp] theorem takePage_tiers (p lane body s) : (takePage p lane body s).tiers = s.tiers := by simp [takePage]
@[simp] theorem markSilent_tiers (p s) : (markSilent p s).tiers = s.tiers := by unfold markSilent; split <;> simp
@[simp] theorem execDelayProbe_tiersKept (port tx turn replayed s) : TiersKept s (execDelayProbe port tx turn replayed s) := by
  simp [execDelayProbe]
@[simp] theorem setDelay_tiers (p rtt s) : (setDelay p rtt s).tiers = s.tiers := tiers_congr rfl rfl
@[simp] theorem takeReply_tiers (p echo turn ret s) : (takeReply p echo turn ret s).tiers = s.tiers := by simp [takeReply]
@[simp] theorem execMeasureTimeout_tiersKept (port s) : TiersKept s (execMeasureTimeout port s) := by simp [execMeasureTimeout]
@[simp] theorem comeUp_tiers (p s) : (comeUp p s).tiers = s.tiers := by simp [comeUp]
@[simp] theorem execDownBackoff_tiersKept (port s) : TiersKept s (execDownBackoff port s) := by simp [execDownBackoff]
@[simp] theorem lpAnswer_tiers (p s) : (lpAnswer p s).tiers = s.tiers := by simp [lpAnswer]
@[simp] theorem lpAsk_tiers (p s) : (lpAsk p s).tiers = s.tiers := by simp [lpAsk]
@[simp] theorem lpDelayed_tiers (p s) : (lpDelayed p s).tiers = s.tiers := by simp [lpDelayed]
@[simp] theorem countFec_tiers (p cw s) : (countFec p cw s).tiers = s.tiers :=
  each_tiers (fun c t => by dsimp only; split <;> simp) _ _
@[simp] theorem sendNak_tiers (p ctrl s) : (sendNak p ctrl s).tiers = s.tiers := tiers_congr rfl rfl
@[simp] theorem takeAck_tiers (p ctrl last s) : (takeAck p ctrl last s).tiers = s.tiers := by simp [takeAck]
@[simp] theorem execNakRepeat_tiersKept (port ctrl s) : TiersKept s (execNakRepeat port ctrl s) := by simp [execNakRepeat]
@[simp] theorem execAckIdleSend_tiersKept (port s) : TiersKept s (execAckIdleSend port s) := by simp [execAckIdleSend]
@[simp] theorem execUnfence_tiersKept (port s) : TiersKept s (execUnfence port s) := by simp [execUnfence]
@[simp] theorem execLpRequest_tiersKept (port s) : TiersKept s (execLpRequest port s) := by simp [execLpRequest]
@[simp] theorem execLpAcknowledge_tiersKept (port s) : TiersKept s (execLpAcknowledge port s) := by simp [execLpAcknowledge]
@[simp] theorem execLpExit_tiersKept (port s) : TiersKept s (execLpExit port s) := by simp [execLpExit]
@[simp] theorem quitAll_tiers (s) : (quitAll s).tiers = s.tiers := by simp [quitAll]

/-! ## Machine/Slots.lean -/

@[simp] theorem setSlot_tiers (i v s) : (setSlot i v s).tiers = s.tiers := tiers_congr rfl rfl
@[simp] theorem endSlot_tiers (i v s) : (endSlot i v s).tiers = s.tiers := tiers_congr rfl rfl
@[simp] theorem startSlot_tiers (i s) : (startSlot i s).tiers = s.tiers := by simp [startSlot]
@[simp] theorem finishSlot_tiers (i v s) : (finishSlot i v s).tiers = s.tiers := by simp [finishSlot]
@[simp] theorem completeSlot_tiers (i s) : (completeSlot i s).tiers = s.tiers := by simp [completeSlot]
@[simp] theorem detachSlots_tiers (s) : (detachSlots s).tiers = s.tiers := tiers_congr rfl rfl

/-! ## Machine/CalCore.lean -/

@[simp] theorem sendPart_tiers (mask d i p w flags contrib es s) :
    (sendPart mask d i p w flags contrib es s).tiers = s.tiers := by
  simp [sendPart]
@[simp] theorem noteFail_tiers (i s) : (noteFail i s).tiers = s.tiers := by simp [noteFail]
@[simp] theorem dropEntries_tiers (i s) : (dropEntries i s).tiers = s.tiers := tiers_congr rfl rfl
@[simp] theorem keepDesc_tiers (i b t s) : (keepDesc i b t s).tiers = s.tiers := tiers_congr rfl rfl
@[simp] theorem cancelPlain_tiers (i s) : (cancelPlain i s).tiers = s.tiers := by simp [cancelPlain]
@[simp] theorem launchBeacon_tiers (kind kindData s) : (launchBeacon kind kindData s).tiers = s.tiers := by simp [launchBeacon]
@[simp] theorem clearClaims_tiers (s) : (clearClaims s).tiers = s.tiers := by simp [clearClaims]
@[simp] theorem stepReset_tiers (s) : (stepReset s).tiers = s.tiers := tiers_congr rfl rfl
@[simp] theorem completeDependents_tiers (i s) : (completeDependents i s).tiers = s.tiers := by simp [completeDependents]
@[simp] theorem endConfirm_tiers (v i s) : (endConfirm v i s).tiers = s.tiers := by simp [endConfirm]

/-! ## Machine/Collective.lean -/

@[simp] theorem setEntry_tiers (k e s) : (setEntry k e s).tiers = s.tiers := tiers_congr rfl rfl
@[simp] theorem vcDrop_tiers (stale s) : (vcDrop stale s).tiers = s.tiers := tiers_congr rfl rfl
@[simp] theorem execCalResume_tiersKept (s) : TiersKept s (execCalResume s) := by simp [execCalResume]

/-! ## Machine/Coherence.lean -/

@[simp] theorem execEvictAck_tiersKept (eng tag line s) : TiersKept s (execEvictAck eng tag line s) := by
  unfold execEvictAck; split <;> simp
@[simp] theorem execWbAck_tiersKept (eng tag line s) : TiersKept s (execWbAck eng tag line s) := by
  unfold execWbAck; split <;> simp
@[simp] theorem execWbSuperseded_tiersKept (eng tag line s) : TiersKept s (execWbSuperseded eng tag line s) := by
  unfold execWbSuperseded; split <;> simp
@[simp] theorem cohSettle_tiers (late s) : (cohSettle late s).tiers = s.tiers := tiers_congr rfl rfl
@[simp] theorem l1Lost_tiers (s) : (l1Lost s).tiers = s.tiers := tiers_congr rfl rfl
@[simp] theorem fenceGo_tiers (kind s) : (fenceGo kind s).tiers = s.tiers := by simp [fenceGo]
@[simp] theorem execEngineFenceWb_tiersKept (s) : TiersKept s (execEngineFenceWb s) := by simp [execEngineFenceWb]
@[simp] theorem execEngineFenceWbinv_tiersKept (s) : TiersKept s (execEngineFenceWbinv s) := by simp [execEngineFenceWbinv]
@[simp] theorem execFabricFence_tiersKept (s) : TiersKept s (execFabricFence s) := by simp [execFabricFence]
@[simp] theorem fenceEnd_tiers (s) : (fenceEnd s).tiers = s.tiers := by simp [fenceEnd]
@[simp] theorem execFabricFenceComplete_tiersKept (s) :
    TiersKept s (execFabricFenceComplete s) := by simp [execFabricFenceComplete]

/-! ## Machine/Mmu.lean -/

@[simp] theorem tlbAdd_tiers (e s) : (tlbAdd e s).tiers = s.tiers := by simp [tlbAdd]
@[simp] theorem tlbDrop_tiers (f s) : (tlbDrop f s).tiers = s.tiers := tiers_congr rfl rfl
@[simp] theorem execMmuInval_tiersKept (value s) : TiersKept s (execMmuInval value s) := by simp [execMmuInval]

/-! ## Machine/RowLogic.lean -/

@[simp] theorem discardLine_tiers (line s) : (discardLine line s).tiers = s.tiers := by simp [discardLine]
@[simp] theorem fencePending_tiers (s) : (fencePending s).tiers = s.tiers := tiers_congr rfl rfl
@[simp] theorem fenceReport_tiers (f s) : (fenceReport f s).tiers = s.tiers := by simp [fenceReport]
@[simp] theorem fenceIssue_tiers (by_ who s) : (fenceIssue by_ who s).tiers = s.tiers := by simp [fenceIssue]
@[simp] theorem execRlFenceGo_tiersKept (s) : TiersKept s (execRlFenceGo s) := by simp [execRlFenceGo]
@[simp] theorem execRlFenceComplete_tiersKept (s) : TiersKept s (execRlFenceComplete s) := by
  unfold execRlFenceComplete; split <;> simp
@[simp] theorem setBatch_tiers (st b s) : (setBatch st b s).tiers = s.tiers := tiers_congr rfl rfl
@[simp] theorem rlEnd_tiers (st b s) : (rlEnd st b s).tiers = s.tiers := by simp [rlEnd]
@[simp] theorem accPut_tiers (chan bank bs poison s) : (accPut chan bank bs poison s).tiers = s.tiers := tiers_congr rfl rfl
@[simp] theorem chain_tiers (add c sel s) : (chain add c sel s).tiers = s.tiers := by simp [chain]
@[simp] theorem rlSuspend_tiers (st s) : (rlSuspend st s).tiers = s.tiers := by simp [rlSuspend]
@[simp] theorem rlResume_tiers (st s) : (rlResume st s).tiers = s.tiers := by simp [rlResume]
@[simp] theorem rlReset_tiers (s) : (rlReset s).tiers = s.tiers := by simp [rlReset]
@[simp] theorem execTgStart_tiersKept (chan value s) : TiersKept s (execTgStart chan value s) := by simp [execTgStart]

/-! ## Machine/StrCore.lean -/

@[simp] theorem setStr_tiers (c v s) : (setStr c v s).tiers = s.tiers := tiers_congr rfl rfl
@[simp] theorem syncCtx_tiers (c s) : (syncCtx c s).tiers = s.tiers := by unfold syncCtx; dsimp only; split <;> simp
@[simp] theorem strSync_tiers (s) : (strSync s).tiers = s.tiers := by simp [strSync]
@[simp] theorem strWait_tiers (c why s) : (strWait c why s).tiers = s.tiers := tiers_congr rfl rfl
@[simp] theorem strRun_tiers (c s) : (strRun c s).tiers = s.tiers := tiers_congr rfl rfl
@[simp] theorem strPc_tiers (c n s) : (strPc c n s).tiers = s.tiers := tiers_congr rfl rfl
@[simp] theorem strNext_tiers (c s) : (strNext c s).tiers = s.tiers := tiers_congr rfl rfl
@[simp] theorem dropHeir_tiers (c s) : (dropHeir c s).tiers = s.tiers := by simp [dropHeir]
@[simp] theorem allocAt_tiers (c i r sh s) : (allocAt c i r sh s).tiers = s.tiers := by simp [allocAt]
@[simp] theorem pushTile_tiers (c base r sh s) : (pushTile c base r sh s).tiers = s.tiers := by simp [pushTile]
@[simp] theorem setA_tiers (c i v s) : (setA c i v s).tiers = s.tiers := tiers_congr rfl rfl
@[simp] theorem setL_tiers (c i v s) : (setL c i v s).tiers = s.tiers := tiers_congr rfl rfl
@[simp] theorem strBegin_tiers (c s) : (strBegin c s).tiers = s.tiers := tiers_congr rfl rfl
@[simp] theorem strRelease_tiers (c s) : (strRelease c s).tiers = s.tiers := tiers_congr rfl rfl
@[simp] theorem strFill_tiers (c bs poison s) : (strFill c bs poison s).tiers = s.tiers := tiers_congr rfl rfl
@[simp] theorem dropTiles_tiers (c s) : (dropTiles c s).tiers = s.tiers := tiers_congr rfl rfl

/-! ## Machine/EngCore.lean -/

@[simp] theorem setEng_tiers (e v s) : (setEng e v s).tiers = s.tiers := tiers_congr rfl rfl
@[simp] theorem setStall_tiers (e p s) : (setStall e p s).tiers = s.tiers := by simp [setStall]
@[simp] theorem noStall_tiers (e s) : (noStall e s).tiers = s.tiers := by simp [noStall]
@[simp] theorem setV_tiers (e b r l s) : (setV e b r l s).tiers = s.tiers := tiers_congr rfl rfl
@[simp] theorem ruleStep_tiers {op e f} (h : ∀ w b t, (f w b t).tiers = t.tiers) (s) : (ruleStep op e f s).tiers = s.tiers := by
  simp [ruleStep, h]

/-! ## Machine/Rules.lean -/

@[simp] theorem ruleNopBeat_tiers (_e _w _b t) : (ruleNopBeat _e _w _b t).tiers = t.tiers := tiers_congr rfl rfl
@[simp] theorem execRuleNop_tiersKept (eng s) : TiersKept s (execRuleNop eng s) := by simp [execRuleNop]
@[simp] theorem vaddBeat_tiers (e w b t) : (vaddBeat e w b t).tiers = t.tiers := tiers_congr rfl rfl
@[simp] theorem execVadd_tiersKept (eng s) : TiersKept s (execVadd eng s) := by simp [execVadd]
@[simp] theorem vsubBeat_tiers (e w b t) : (vsubBeat e w b t).tiers = t.tiers := tiers_congr rfl rfl
@[simp] theorem execVsub_tiersKept (eng s) : TiersKept s (execVsub eng s) := by simp [execVsub]
@[simp] theorem vmulBeat_tiers (e w b t) : (vmulBeat e w b t).tiers = t.tiers := tiers_congr rfl rfl
@[simp] theorem execVmul_tiersKept (eng s) : TiersKept s (execVmul eng s) := by simp [execVmul]
@[simp] theorem vfmaBeat_tiers (e w b t) : (vfmaBeat e w b t).tiers = t.tiers := tiers_congr rfl rfl
@[simp] theorem execVfma_tiersKept (eng s) : TiersKept s (execVfma eng s) := by simp [execVfma]
@[simp] theorem vfnmaBeat_tiers (e w b t) : (vfnmaBeat e w b t).tiers = t.tiers := tiers_congr rfl rfl
@[simp] theorem execVfnma_tiersKept (eng s) : TiersKept s (execVfnma eng s) := by simp [execVfnma]
@[simp] theorem vmaxBeat_tiers (e w b t) : (vmaxBeat e w b t).tiers = t.tiers := tiers_congr rfl rfl
@[simp] theorem execVmax_tiersKept (eng s) : TiersKept s (execVmax eng s) := by simp [execVmax]
@[simp] theorem vminBeat_tiers (e w b t) : (vminBeat e w b t).tiers = t.tiers := tiers_congr rfl rfl
@[simp] theorem execVmin_tiersKept (eng s) : TiersKept s (execVmin eng s) := by simp [execVmin]
@[simp] theorem vabsBeat_tiers (e w b t) : (vabsBeat e w b t).tiers = t.tiers := tiers_congr rfl rfl
@[simp] theorem execVabs_tiersKept (eng s) : TiersKept s (execVabs eng s) := by simp [execVabs]
@[simp] theorem vnegBeat_tiers (e w b t) : (vnegBeat e w b t).tiers = t.tiers := tiers_congr rfl rfl
@[simp] theorem execVneg_tiersKept (eng s) : TiersKept s (execVneg eng s) := by simp [execVneg]
@[simp] theorem vsignBeat_tiers (e w b t) : (vsignBeat e w b t).tiers = t.tiers := tiers_congr rfl rfl
@[simp] theorem execVsign_tiersKept (eng s) : TiersKept s (execVsign eng s) := by simp [execVsign]
@[simp] theorem vselBeat_tiers (e w b t) : (vselBeat e w b t).tiers = t.tiers := tiers_congr rfl rfl
@[simp] theorem execVsel_tiersKept (eng s) : TiersKept s (execVsel eng s) := by simp [execVsel]
@[simp] theorem vcmpltBeat_tiers (e w b t) : (vcmpltBeat e w b t).tiers = t.tiers := tiers_congr rfl rfl
@[simp] theorem execVcmplt_tiersKept (eng s) : TiersKept s (execVcmplt eng s) := by simp [execVcmplt]
@[simp] theorem vrcpBeat_tiers (e w b t) : (vrcpBeat e w b t).tiers = t.tiers := tiers_congr rfl rfl
@[simp] theorem execVrcp_tiersKept (eng s) : TiersKept s (execVrcp eng s) := by simp [execVrcp]
@[simp] theorem vsqrtBeat_tiers (e w b t) : (vsqrtBeat e w b t).tiers = t.tiers := tiers_congr rfl rfl
@[simp] theorem execVsqrt_tiersKept (eng s) : TiersKept s (execVsqrt eng s) := by simp [execVsqrt]
@[simp] theorem vrsqrtBeat_tiers (e w b t) : (vrsqrtBeat e w b t).tiers = t.tiers := tiers_congr rfl rfl
@[simp] theorem execVrsqrt_tiersKept (eng s) : TiersKept s (execVrsqrt eng s) := by simp [execVrsqrt]
@[simp] theorem vdivBeat_tiers (e w b t) : (vdivBeat e w b t).tiers = t.tiers := tiers_congr rfl rfl
@[simp] theorem execVdiv_tiersKept (eng s) : TiersKept s (execVdiv eng s) := by simp [execVdiv]
@[simp] theorem drawLanes_tiers (e s) : (drawLanes e s).2.tiers = s.tiers := tiers_congr rfl rfl
@[simp] theorem vrndBeat_tiers (e w b t) : (vrndBeat e w b t).tiers = t.tiers := by simp [vrndBeat]
@[simp] theorem execVrnd_tiersKept (eng s) : TiersKept s (execVrnd eng s) := by simp [execVrnd]
@[simp] theorem emsetBeat_tiers (e w b t) : (emsetBeat e w b t).tiers = t.tiers := tiers_congr rfl rfl
@[simp] theorem execEmset_tiersKept (eng s) : TiersKept s (execEmset eng s) := by simp [execEmset]
@[simp] theorem emaddBeat_tiers (e w b t) : (emaddBeat e w b t).tiers = t.tiers := tiers_congr rfl rfl
@[simp] theorem execEmadd_tiersKept (eng s) : TiersKept s (execEmadd eng s) := by simp [execEmadd]
@[simp] theorem emupdBeat_tiers (e w b t) : (emupdBeat e w b t).tiers = t.tiers := tiers_congr rfl rfl
@[simp] theorem execEmupd_tiersKept (eng s) : TiersKept s (execEmupd eng s) := by simp [execEmupd]
@[simp] theorem emrndBeat_tiers (e w b t) : (emrndBeat e w b t).tiers = t.tiers := tiers_congr rfl rfl
@[simp] theorem execEmrnd_tiersKept (eng s) : TiersKept s (execEmrnd eng s) := by simp [execEmrnd]
@[simp] theorem srbfBeat_tiers (e w b t) : (srbfBeat e w b t).tiers = t.tiers := tiers_congr rfl rfl
@[simp] theorem execSrbf_tiersKept (eng s) : TiersKept s (execSrbf eng s) := by simp [execSrbf]
@[simp] theorem rnbfBeat_tiers (e w b t) : (rnbfBeat e w b t).tiers = t.tiers := tiers_congr rfl rfl
@[simp] theorem execRnbf_tiersKept (eng s) : TiersKept s (execRnbf eng s) := by simp [execRnbf]
@[simp] theorem qstatBeat_tiers (e w b t) : (qstatBeat e w b t).tiers = t.tiers := tiers_congr rfl rfl
@[simp] theorem execQstat_tiersKept (eng s) : TiersKept s (execQstat eng s) := by simp [execQstat]
@[simp] theorem execRuleEnd_tiersKept (eng s) : TiersKept s (execRuleEnd eng s) := by
  unfold execRuleEnd; dsimp only; (repeat' split) <;> simp

/-! ## Machine/Engines.lean -/

@[simp] theorem seedKeyed_tiers (e s) : (seedKeyed e s).tiers = s.tiers := tiers_congr rfl rfl
@[simp] theorem ungate_tiers (u s) : (ungate u s).tiers = s.tiers := tiers_congr rfl rfl
@[simp] theorem setWin_tiers (p w s) : (setWin p w s).tiers = s.tiers := tiers_congr rfl rfl
@[simp] theorem kvBorrow_tiers (s) : (kvBorrow s).tiers = s.tiers :=
  foldl_tiers (fun t p => by dsimp only; split <;> simp) _ _
@[simp] theorem closeOut_tiers (e p s) : (closeOut e p s).tiers = s.tiers := tiers_congr rfl rfl
@[simp] theorem readPort_tiers (e p q s) : (readPort e p q s).tiers = s.tiers := by
  unfold readPort; dsimp only; (repeat' split) <;> simp
@[simp] theorem clearConsts_tiers (e s) : (clearConsts e s).tiers = s.tiers := by simp [clearConsts]
@[simp] theorem engHalted_tiers (e s) : (engHalted e s).tiers = s.tiers := by simp [engHalted]
@[simp] theorem countFetch_tiers (e reads writes s) : (countFetch e reads writes s).tiers = s.tiers := by simp [countFetch]
@[simp] theorem ruleWrite_tiers (e i v s) : (ruleWrite e i v s).tiers = s.tiers := by simp [ruleWrite]
@[simp] theorem execRuleStoreWrite_tiersKept (eng index value s) : TiersKept s (execRuleStoreWrite eng index value s) := by
  simp [execRuleStoreWrite]
@[simp] theorem engClear_tiers (s) : (engClear s).tiers = s.tiers := tiers_congr rfl rfl

/-! ## Machine/Random.lean -/

@[simp] theorem healthSample_tiers (x s) : (healthSample x s).2.tiers = s.tiers := by simp [healthSample]
@[simp] theorem healthAll_tiers (l s) : (healthAll l s).2.tiers = s.tiers := by simp [healthAll]
@[simp] theorem seedStop_tiers (s) : (seedStop s).tiers = s.tiers := tiers_congr rfl rfl
@[simp] theorem seedLane_tiers (e l v s) : (seedLane e l v s).tiers = s.tiers := tiers_congr rfl rfl
@[simp] theorem seedFeed_tiers (n s) : (seedFeed n s).tiers = s.tiers := by fun_induction seedFeed <;> simp_all
@[simp] theorem rngSeedTake_tiers (s) : (rngSeedTake s).2.tiers = s.tiers := by unfold rngSeedTake; split <;> simp
@[simp] theorem execRngSeedRead_tiersKept (s) : TiersKept s (execRngSeedRead s) := by simp [execRngSeedRead]
@[simp] theorem sourceTest_tiers (s) : (sourceTest s).tiers = s.tiers := tiers_congr rfl rfl
@[simp] theorem sourceEnable_tiers (on s) : (sourceEnable on s).tiers = s.tiers := by simp [sourceEnable]
@[simp] theorem execRetest_tiersKept (s) : TiersKept s (execRetest s) := by simp [execRetest]
@[simp] theorem execStartupTestDone_tiersKept (samples s) : TiersKept s (execStartupTestDone samples s) := by
  simp [execStartupTestDone]
@[simp] theorem execLfsrSeed_tiersKept (value s) : TiersKept s (execLfsrSeed value s) := by simp [execLfsrSeed]
@[simp] theorem execSeedDone_tiersKept (s) : TiersKept s (execSeedDone s) := by simp [execSeedDone]
@[simp] theorem polyCheck_tiers (s) : (polyCheck s).tiers = s.tiers := by simp [polyCheck]

/-! ## Machine/RegLook.lean -/

@[simp] theorem clampFld_tiers (f lo hi s) : (clampFld f lo hi s).tiers = s.tiers := tiers_congr rfl rfl
@[simp] theorem clearRegs_tiers (kind s) : (clearRegs kind s).tiers = s.tiers := tiers_congr rfl rfl
@[simp] theorem clearFb_tiers (s) : (clearFb s).tiers = s.tiers := tiers_congr rfl rfl

/-! ## Machine/Tick.lean -/

@[simp] theorem forwardBeacon_tiers (p b fwd s) : (forwardBeacon p b fwd s).tiers = s.tiers := by simp [forwardBeacon]
@[simp] theorem acquire_tiers (p b edge s) : (acquire p b edge s).tiers = s.tiers := by unfold acquire; dsimp only; split <;> simp
@[simp] theorem correctPhase_tiers (pred edge s) : (correctPhase pred edge s).tiers = s.tiers := by simp [correctPhase]
@[simp] theorem clockFollow_tiers (p s) : (clockFollow p s).tiers = s.tiers := by simp [clockFollow]
@[simp] theorem execBeaconMiss_tiersKept (s) : TiersKept s (execBeaconMiss s) := by simp [execBeaconMiss]
@[simp] theorem becomeTk_tiers (epoch s) : (becomeTk epoch s).tiers = s.tiers := by simp [becomeTk]
@[simp] theorem sendUp_tiers (msg s) : (sendUp msg s).tiers = s.tiers := by unfold sendUp; split <;> simp
@[simp] theorem takeTotal_tiers (total at_ s) : (takeTotal total at_ s).tiers = s.tiers := by simp [takeTotal]
@[simp] theorem upTotal_tiers (total msg s) : (upTotal total msg s).tiers = s.tiers := by simp [upTotal]
@[simp] theorem execHoldRequestSend_tiersKept (estimates hot s) : TiersKept s (execHoldRequestSend estimates hot s) := by
  simp [execHoldRequestSend]
@[simp] theorem execHoldRequest_tiersKept (port msg at_ s) : TiersKept s (execHoldRequest port msg at_ s) := by
  simp [execHoldRequest]

/-! ## Machine/Boot.lean -/

@[simp] theorem showFuses_tiers (s) : (showFuses s).tiers = s.tiers := tiers_congr rfl rfl
@[simp] theorem execDieResetRelease_tiersKept (s) : TiersKept s (execDieResetRelease s) := by simp [execDieResetRelease]
@[simp] theorem applyDefault_tiers (e s) : (applyDefault e s).tiers = s.tiers := by unfold applyDefault; split <;> simp
@[simp] theorem slotFails_tiers (k reason sec s) : (slotFails k reason sec s).tiers = s.tiers := by simp [slotFails]
@[simp] theorem execImageSlotVerify_tiersKept (flashOk s) : TiersKept s (execImageSlotVerify flashOk s) := by
  unfold execImageSlotVerify; (repeat' split) <;> simp
@[simp] theorem applyNode_tiers (b s) : (applyNode b s).tiers = s.tiers := tiers_congr rfl rfl
@[simp] theorem deriveImage_tiers (s) : (deriveImage s).tiers = s.tiers := by simp [deriveImage]
@[simp] theorem execCoreReadyTimeout_tiersKept (core s) : TiersKept s (execCoreReadyTimeout core s) := by
  unfold execCoreReadyTimeout; split <;> simp
@[simp] theorem takeSpare_tiers (r s) : (takeSpare r s).tiers = s.tiers := tiers_congr rfl rfl
@[simp] theorem logState_tiers (half i v s) : (logState half i v s).tiers = s.tiers := tiers_congr rfl rfl
@[simp] theorem laneRepair_tiers (c l s) : (laneRepair c l s).tiers = s.tiers := by simp [laneRepair]
@[simp] theorem execChannelZeroed_tiersKept (chan s) : TiersKept s (execChannelZeroed chan s) := by simp [execChannelZeroed]
@[simp] theorem execDomainStart_tiersKept (s) : TiersKept s (execDomainStart s) := by simp [execDomainStart]

/-! ## Machine/Claims.lean -/

@[simp] theorem execClaimAck_tiersKept (port id s) : TiersKept s (execClaimAck port id s) := by simp [execClaimAck]

/-! ## Machine/Plan.lean -/

@[simp] theorem planCheck_tiers (s) : (planCheck s).tiers = s.tiers := tiers_congr rfl rfl
@[simp] theorem planWrite_tiers (b o bs s) : (planWrite b o bs s).tiers = s.tiers := by simp [planWrite]
@[simp] theorem execPlanBankWrite_tiersKept (bank off data s) : TiersKept s (execPlanBankWrite bank off data s) := by
  simp [execPlanBankWrite]
@[simp] theorem disarm_tiers (s) : (disarm s).tiers = s.tiers := by simp [disarm]
@[simp] theorem execArm_tiersKept (force s) : TiersKept s (execArm force s) := by simp [execArm]
@[simp] theorem execDisarm_tiersKept (s) : TiersKept s (execDisarm s) := by simp [execDisarm]

/-! ## Machine/HostCore.lean -/

@[simp] theorem hostRead_tiers (q tag purpose off addr n s) :
    (hostRead q tag purpose off addr n s).tiers = s.tiers := tiers_congr rfl rfl
@[simp] theorem fetchEntries_tiers (q n s) : (fetchEntries q n s).tiers = s.tiers := by
  induction n generalizing s with
  | zero => rfl
  | succ n ih =>
    unfold fetchEntries
    dsimp only
    split
    · rfl
    · split
      · rfl
      · rw [ih]; simp
@[simp] theorem fetchData_tiers (q n s) : (fetchData q n s).tiers = s.tiers := by fun_induction fetchData <;> simp_all
@[simp] theorem deliver_tiers (q bs quiet s) : (deliver q bs quiet s).tiers = s.tiers := by simp [deliver]
@[simp] theorem finish_tiers (q status detail value s) : (finish q status detail value s).tiers = s.tiers := by
  unfold finish; split <;> simp
@[simp] theorem startNext_tiers (q n s) : (startNext q n s).tiers = s.tiers := by
  induction n generalizing s with
  | zero => rfl
  | succ n ih =>
    unfold startNext
    dsimp only
    (repeat' split) <;> simp [ih]
@[simp] theorem pumpQueues_tiers (s) : (pumpQueues s).tiers = s.tiers := by simp [pumpQueues]
@[simp] theorem complete_tiers (q status detail value s) : (complete q status detail value s).tiers = s.tiers := by
  simp [complete]
@[simp] theorem readFails_tiers (r code s) : (readFails r code s).tiers = s.tiers := by simp [readFails]
@[simp] theorem readArrives_tiers (r data s) : (readArrives r data s).tiers = s.tiers := by simp [readArrives]
@[simp] theorem queuesLost_tiers (s) : (queuesLost s).tiers = s.tiers := by simp [queuesLost]

/-! ## Machine/Matrix.lean -/

@[simp] theorem mxaFinish_tiers (s) : (mxaFinish s).tiers = s.tiers := by unfold mxaFinish; split <;> simp
@[simp] theorem execMatrixJobComplete_tiersKept (s) : TiersKept s (execMatrixJobComplete s) := by simp [execMatrixJobComplete]
@[simp] theorem mxaAbandon_tiers (s) : (mxaAbandon s).tiers = s.tiers := by unfold mxaAbandon; split <;> simp

/-! ## Machine/KvCore.lean -/

@[simp] theorem labDrop_tiers (f s) : (labDrop f s).tiers = s.tiers := tiers_congr rfl rfl
@[simp] theorem labLookup_tiers (p d r lp s) : (labLookup p d r lp s).2.tiers = s.tiers := by
  unfold labLookup; dsimp only; (repeat' split) <;> simp

/-! ## Machine/Kv.lean -/

@[simp] theorem execPoolUnload_tiersKept (pool s) : TiersKept s (execPoolUnload pool s) := by simp [execPoolUnload]
@[simp] theorem execLabFlush_tiersKept (pool s) : TiersKept s (execLabFlush pool s) := by simp [execLabFlush]
@[simp] theorem winClose_tiers (p s) : (winClose p s).tiers = s.tiers := by unfold winClose; split <;> simp
@[simp] theorem winDrained_tiers (p s) : (winDrained p s).tiers = s.tiers := by unfold winDrained; split <;> simp
@[simp] theorem execKvWindowEnd_tiersKept (pool s) : TiersKept s (execKvWindowEnd pool s) := by
  unfold execKvWindowEnd; dsimp only; split <;> simp
@[simp] theorem kvTaken_tiers (p w s) : (kvTaken p w s).tiers = s.tiers := tiers_congr rfl rfl
@[simp] theorem completedHash_tiers (d r hp b s) : (completedHash d r hp b s).2.tiers = s.tiers := by simp [completedHash]

/-! ## Machine/Module.lean -/

@[simp] theorem execPresenceDebounce_tiersKept (fresh s) : TiersKept s (execPresenceDebounce fresh s) := by
  unfold execPresenceDebounce; dsimp only; (repeat' split) <;> simp
@[simp] theorem execRampComplete_tiersKept (s) : TiersKept s (execRampComplete s) := by simp [execRampComplete]
@[simp] theorem execRailPowerGood_tiersKept (straps s) : TiersKept s (execRailPowerGood straps s) := by simp [execRailPowerGood]
@[simp] theorem execCoolLimitLift_tiersKept (s) : TiersKept s (execCoolLimitLift s) := by simp [execCoolLimitLift]
@[simp] theorem execEjectOpened_tiersKept (s) : TiersKept s (execEjectOpened s) := by simp [execEjectOpened]
@[simp] theorem execEjectClosed_tiersKept (s) : TiersKept s (execEjectClosed s) := by simp [execEjectClosed]
@[simp] theorem execReferenceRelock_tiersKept (s) : TiersKept s (execReferenceRelock s) := by simp [execReferenceRelock]

/-! ## Machine/Power.lean -/

@[simp] theorem rejoinReady_tiers (s) : (rejoinReady s).tiers = s.tiers := by simp [rejoinReady]
@[simp] theorem execSelfRefreshExit_tiersKept (stack s) :
    TiersKept s (execSelfRefreshExit stack s) := by simp [execSelfRefreshExit]
@[simp] theorem setLevel_tiers (l s) : (setLevel l s).tiers = s.tiers := by simp [setLevel]
@[simp] theorem execOvercurrentThrottle_tiersKept (s) :
    TiersKept s (execOvercurrentThrottle s) := by simp [execOvercurrentThrottle]
@[simp] theorem execDieHotThrottle_tiersKept (s) : TiersKept s (execDieHotThrottle s) := by simp [execDieHotThrottle]
@[simp] theorem execDieHot_tiersKept (s) : TiersKept s (execDieHot s) := by simp [execDieHot]
@[simp] theorem telSensors_tiers (tel s) : (telSensors tel s).tiers = s.tiers := tiers_congr rfl rfl
@[simp] theorem telPacket_tiers (dst r s) : (telPacket dst r s).tiers = s.tiers := by
  unfold telPacket; dsimp only; (repeat' split) <;> simp
@[simp] theorem telSend_tiers (tick r s) : (telSend tick r s).tiers = s.tiers := by unfold telSend; split <;> simp
@[simp] theorem execP1Entry_tiersKept (s) : TiersKept s (execP1Entry s) := by simp [execP1Entry]
@[simp] theorem execP1Exit_tiersKept (s) : TiersKept s (execP1Exit s) := by unfold execP1Exit; dsimp only; split <;> simp
@[simp] theorem execClusterGate_tiersKept (unit s) : TiersKept s (execClusterGate unit s) := by simp [execClusterGate]
@[simp] theorem execClusterUngate_tiersKept (unit s) : TiersKept s (execClusterUngate unit s) := by simp [execClusterUngate]
@[simp] theorem a1Edge_tiers (s) : (a1Edge s).tiers = s.tiers := by simp [a1Edge]
@[simp] theorem pstateRefuse_tiers (req s) : (pstateRefuse req s).tiers = s.tiers := by simp [pstateRefuse]

/-! ## Machine/Streams.lean -/

@[simp] theorem strAdmit_tiers (c i at_ b prog s) : (strAdmit c i at_ b prog s).tiers = s.tiers := by simp [strAdmit]
theorem allocWanted_tiers {queue c s t} (h : allocWanted queue c s = some t) : t.tiers = s.tiers := by
  unfold allocWanted at h; dsimp only at h
  (repeat' split at h) <;> simp at h <;> obtain ⟨_, _, _, rfl⟩ := h <;> simp
@[simp] theorem allocWanted_getD_tiers (queue c s) : ((allocWanted queue c s).getD s).tiers = s.tiers := by
  cases h : allocWanted queue c s with
  | none => rfl
  | some t => exact allocWanted_tiers h
@[simp] theorem execTileAllocate_tiersKept (s) : TiersKept s (execTileAllocate s) := by
  unfold execTileAllocate
  dsimp only
  split
  · rename_i h
    obtain ⟨c, -, hc⟩ := List.exists_of_findSome?_eq_some h
    simpa using allocWanted_tiers hc
  · simp
@[simp] theorem execStreamBatchComplete_tiersKept (ctx s) : TiersKept s (execStreamBatchComplete ctx s) := by
  simp [execStreamBatchComplete]
@[simp] theorem execGroupDrain_tiersKept (group s) : TiersKept s (execGroupDrain group s) := by simp [execGroupDrain]
@[simp] theorem execContextHalt_tiersKept (ctx s) : TiersKept s (execContextHalt ctx s) := by simp [execContextHalt]
@[simp] theorem strHalted_tiers (c s) : (strHalted c s).tiers = s.tiers := tiers_congr rfl rfl
@[simp] theorem execContextHalted_tiersKept (ctx s) : TiersKept s (execContextHalted ctx s) := by simp [execContextHalted]
@[simp] theorem execFloorWrite_tiersKept (ctx value s) : TiersKept s (execFloorWrite ctx value s) := by simp [execFloorWrite]
@[simp] theorem discardSurplus_tiers (v s) : (discardSurplus v s).tiers = s.tiers := tiers_congr rfl rfl

/-! ## Machine/Resets.lean -/

@[simp] theorem planClear_tiers (s) : (planClear s).tiers = s.tiers := tiers_congr rfl rfl
@[simp] theorem calAbandon_tiers (s) : (calAbandon s).tiers = s.tiers := tiers_congr rfl rfl
@[simp] theorem abandonRequests_tiers (s) : (abandonRequests s).tiers = s.tiers := tiers_congr rfl rfl
@[simp] theorem sweep_tiers (kind s) : (sweep kind s).tiers = s.tiers := by simp [sweep]
@[simp] theorem resetCommon_tiers (kind s) : (resetCommon kind s).tiers = s.tiers := by simp [resetCommon]
@[simp] theorem countReset_tiers (kind s) : (countReset kind s).tiers = s.tiers := tiers_congr rfl rfl
@[simp] theorem beginReset_tiers (kind source s) : (beginReset kind source s).tiers = s.tiers := tiers_congr rfl rfl
@[simp] theorem endReset_tiers (s) : (endReset s).tiers = s.tiers := by unfold endReset; dsimp only; split <;> simp
@[simp] theorem flashFree_tiers (a n s) : (flashFree a n s).tiers = s.tiers := by
  induction n generalizing a s with
  | zero => rfl
  | succ n ih => exact ih _ _
@[simp] theorem mailboxAbandon_tiers (s) : (mailboxAbandon s).tiers = s.tiers := by unfold mailboxAbandon; split <;> simp
@[simp] theorem internalReset_tiers (s) : (internalReset s).tiers = s.tiers := by simp [internalReset]
@[simp] theorem portsOff_tiers (s) : (portsOff s).tiers = s.tiers := by simp [portsOff]
@[simp] theorem execPlanResetHalted_tiersKept (at_ s) : TiersKept s (execPlanResetHalted at_ s) := by simp [execPlanResetHalted]
@[simp] theorem unitsIdle_tiers (s) : (unitsIdle s).tiers = s.tiers := tiers_congr rfl rfl

/-! ## Machine/FabMgmt.lean -/

@[simp] theorem reqCount_tiers (s) : (reqCount s).tiers = s.tiers := tiers_congr rfl rfl
@[simp] theorem deliverHere_tiers (pkt s) : (deliverHere pkt s).tiers = s.tiers := by simp [deliverHere]
@[simp] theorem noteTransit_tiers (arr pkt s) : (noteTransit arr pkt s).tiers = s.tiers := by unfold noteTransit; split <;> simp
@[simp] theorem bcastDown_tiers (mask pkt s) : (bcastDown mask pkt s).tiers = s.tiers := by simp [bcastDown]
@[simp] theorem bcast_tiers (arr pkt s) : (bcast arr pkt s).tiers = s.tiers := by simp [bcast]
@[simp] theorem handUp_tiers (op pkt s) : (handUp op pkt s).tiers = s.tiers := by simp [handUp]
@[simp] theorem execNeighbourNotice_tiersKept (pkt s) : TiersKept s (execNeighbourNotice pkt s) := by simp [execNeighbourNotice]
@[simp] theorem execDetachDone_tiersKept (pkt s) : TiersKept s (execDetachDone pkt s) := by simp [execDetachDone]
@[simp] theorem execPushDone_tiersKept (pkt s) : TiersKept s (execPushDone pkt s) := by simp [execPushDone]
@[simp] theorem execTelemetry_tiersKept (pkt s) : TiersKept s (execTelemetry pkt s) := by simp [execTelemetry]
@[simp] theorem execJoinAnnounce_tiersKept (port pkt s) : TiersKept s (execJoinAnnounce port pkt s) := by simp [execJoinAnnounce]
@[simp] theorem execJoinAnnounceRepeat_tiersKept (s) : TiersKept s (execJoinAnnounceRepeat s) := by simp [execJoinAnnounceRepeat]
@[simp] theorem execJoinAccept_tiersKept (pkt s) : TiersKept s (execJoinAccept pkt s) := by simp [execJoinAccept]
@[simp] theorem execDetach_tiersKept (pkt s) : TiersKept s (execDetach pkt s) := by simp [execDetach]
@[simp] theorem detachCompletes_tiers (s) : (detachCompletes s).tiers = s.tiers := by simp [detachCompletes]
@[simp] theorem frstGo_tiers (target s) : (frstGo target s).tiers = s.tiers := by simp [frstGo]
@[simp] theorem execFrstGo_tiersKept (target s) : TiersKept s (execFrstGo target s) := by simp [execFrstGo]
@[simp] theorem execBcast_tiersKept (port pkt s) : TiersKept s (execBcast port pkt s) := by simp [execBcast]
@[simp] theorem pushDone_tiers (s) : (pushDone s).tiers = s.tiers := by simp [pushDone]
@[simp] theorem fabricPlan_tiers (seg b o bs s) : (fabricPlan seg b o bs s).tiers = s.tiers := by simp [fabricPlan]
@[simp] theorem execPlanSeg_tiersKept (pkt s) : TiersKept s (execPlanSeg pkt s) := by simp [execPlanSeg]
@[simp] theorem execRouteCheck_tiersKept (s) : TiersKept s (execRouteCheck s) := by simp [execRouteCheck]
@[simp] theorem adoptNow_tiers (s) : (adoptNow s).tiers = s.tiers := by simp [adoptNow]
@[simp] theorem execAdoptNow_tiersKept (s) : TiersKept s (execAdoptNow s) := by simp [execAdoptNow]

/-! ## Machine/Mailbox.lean -/

@[simp] theorem flashBufWrite_tiers (o bs s) : (flashBufWrite o bs s).tiers = s.tiers := tiers_congr rfl rfl
@[simp] theorem mboxDo_tiers (op a n s) : (mboxDo op a n s).2.tiers = s.tiers := by
  unfold mboxDo; dsimp only; (repeat' split) <;> simp
@[simp] theorem mboxGo_tiers (op key s) : (mboxGo op key s).tiers = s.tiers := by simp [mboxGo]
@[simp] theorem mboxCommand_tiersKept (op key s) : TiersKept s (mboxCommand op key s) := by simp [mboxCommand]
@[simp] theorem execFlashRead_tiersKept (s) : TiersKept s (execFlashRead s) := by simp [execFlashRead]
@[simp] theorem execFlashProgram_tiersKept (key s) : TiersKept s (execFlashProgram key s) := by simp [execFlashProgram]
@[simp] theorem execFlashErase_tiersKept (key s) : TiersKept s (execFlashErase key s) := by simp [execFlashErase]
@[simp] theorem execFuseKeyHash_tiersKept (key s) : TiersKept s (execFuseKeyHash key s) := by simp [execFuseKeyHash]
@[simp] theorem execFuseRevoke_tiersKept (key s) : TiersKept s (execFuseRevoke key s) := by simp [execFuseRevoke]
@[simp] theorem execFuseSvn_tiersKept (key s) : TiersKept s (execFuseSvn key s) := by simp [execFuseSvn]
@[simp] theorem execFlashOpDone_tiersKept (s) : TiersKept s (execFlashOpDone s) := by unfold execFlashOpDone; split <;> simp

/-! ## Machine/Register.lean -/

@[simp] theorem releaseHeld_tiers (q s) : (releaseHeld q s).tiers = s.tiers := by unfold releaseHeld; split <;> simp
@[simp] theorem dropFetched_tiers (q s) : (dropFetched q s).tiers = s.tiers := tiers_congr rfl rfl
@[simp] theorem queueCfg_tiers (q x s) : (queueCfg q x s).tiers = s.tiers := by simp [queueCfg]
@[simp] theorem queueTail_tiers (q v s) : (queueTail q v s).tiers = s.tiers := by simp [queueTail]
@[simp] theorem queueHead_tiers (q v s) : (queueHead q v s).tiers = s.tiers := by simp [queueHead]
@[simp] theorem msixFlush_tiers (s) : (msixFlush s).tiers = s.tiers := by simp [msixFlush]
@[simp] theorem msixWrite_tiers (o v s) : (msixWrite o v s).tiers = s.tiers := by simp [msixWrite]
@[simp] theorem windowWrite_tiers (fabric k o v s) : (windowWrite fabric k o v s).tiers = s.tiers := by
  unfold windowWrite; split <;> simp
@[simp] theorem storeFlds_tiers (r lo n x s) : (storeFlds r lo n x s).tiers = s.tiers :=
  each_tiers (fun f t => by split <;> rfl) _ _
@[simp] theorem idWrite_tiers (o x old s) : (idWrite o x old s).tiers = s.tiers := by simp [idWrite]
@[simp] theorem tickWrite_tiers (o x s) : (tickWrite o x s).tiers = s.tiers := by simp [tickWrite]
@[simp] theorem fabWrite_tiers (o x s) : (fabWrite o x s).tiers = s.tiers := by simp [fabWrite]
@[simp] theorem rngWrite_tiers (o x old s) : (rngWrite o x old s).tiers = s.tiers := by simp [rngWrite]
@[simp] theorem cohWrite_tiers (o x old s) : (cohWrite o x old s).tiers = s.tiers := by simp [cohWrite]
@[simp] theorem fumWrite_tiers (o x s) : (fumWrite o x s).tiers = s.tiers := by unfold fumWrite; (repeat' split) <;> simp
@[simp] theorem hstWrite_tiers (o s) : (hstWrite o s).tiers = s.tiers := by simp [hstWrite]
@[simp] theorem clearRead_tiers (r lo n s) : (clearRead r lo n s).tiers = s.tiers :=
  each_tiers (fun f t => by dsimp only; split <;> rfl) _ _
@[simp] theorem regFetch_tiers (r lo n s) : (regFetch r lo n s).2.tiers = s.tiers := by simp [regFetch]
@[simp] theorem wordRead_tiers (o s) : (wordRead o s).2.tiers = s.tiers := by unfold wordRead; (repeat' split) <;> simp
@[simp] theorem regRead_tiers (o n s) : (regRead o n s).2.tiers = s.tiers := by
  unfold regRead; dsimp only; (repeat' split) <;> simp
@[simp] theorem narrowRead_tiers (o n s) : (narrowRead o n s).2.tiers = s.tiers := by simp [narrowRead]
@[simp] theorem barRead_tiers (o n s) : (barRead o n s).2.tiers = s.tiers := by simp [barRead]
@[simp] theorem hostAnswer_tiers (r) : (hostAnswer r).tiers = r.2.tiers := by unfold hostAnswer; split <;> simp
@[simp] theorem rcUpdate_tiers (f v s) : (rcUpdate f v s).tiers = s.tiers := by simp [rcUpdate]
@[simp] theorem execRcRead_tiersKept (off len same s) : TiersKept s (execRcRead off len same s) := by simp [execRcRead]
@[simp] theorem execLatchedLowWordRead_tiersKept (off s) : TiersKept s (execLatchedLowWordRead off s) := by
  simp [execLatchedLowWordRead]

/-! ## Machine/FabServe.lean -/

@[simp] theorem regWords_tiers (s n o) : (regWords s n o).2.tiers = s.tiers := by
  induction n generalizing s o with
  | zero => rfl
  | succ n ih => simp [regWords, ih]

/-! ## Machine/HostPort.lean -/

@[simp] theorem columnValue_tiers (c s) : (columnValue c s).2.tiers = s.tiers := by unfold columnValue; split <;> simp
@[simp] theorem ends_tiers (q status detail s) : (ends q status detail s).tiers = s.tiers := by unfold ends; split <;> simp
@[simp] theorem command_tiersKept {f} (h : ∀ c t, (f c t).tiers = t.tiers) (q op s) : TiersKept s (command q op f s) := by
  unfold command; dsimp only; (repeat' split) <;> simp [h]
@[simp] theorem execQueueNop_tiersKept (q s) : TiersKept s (execQueueNop q s) := by simp [execQueueNop]
@[simp] theorem execPlanLoad_tiersKept (q s) : TiersKept s (execPlanLoad q s) := by simp [execPlanLoad]
@[simp] theorem execRouteLoad_tiersKept (q s) : TiersKept s (execRouteLoad q s) := by simp [execRouteLoad]
@[simp] theorem execRuleLoad_tiersKept (q s) : TiersKept s (execRuleLoad q s) := by
  refine command_tiersKept (fun c t => ?_) _ _ s
  dsimp only
  split
  · simp
  · rw [complete_tiers]
    exact each_tiers (fun e t => each_tiers (fun i t => ruleWrite_tiers _ _ _ t) _ _) _ _
@[simp] theorem execQueueArm_tiersKept (q s) : TiersKept s (execQueueArm q s) := by simp [execQueueArm]
@[simp] theorem execQueueDisarm_tiersKept (q s) : TiersKept s (execQueueDisarm q s) := by simp [execQueueDisarm]
@[simp] theorem execQueueDetach_tiersKept (q s) : TiersKept s (execQueueDetach q s) := by simp [execQueueDetach]
@[simp] theorem execFence_tiersKept (q s) : TiersKept s (execFence q s) := by simp [execFence]
@[simp] theorem execReadReg_tiersKept (q s) : TiersKept s (execReadReg q s) := by
  refine command_tiersKept (fun c t => ?_) _ _ s
  have k := barRead_tiers (cmdLocal c % 2 ^ 28) (cmdLen c) t
  split <;> rename_i h <;> rw [h] at k <;> simpa using k
@[simp] theorem readEnds_tiers (tag s) : (readEnds tag s).tiers = s.tiers := tiers_congr rfl rfl
@[simp] theorem execHostReadCompletion_tiersKept (tag status data s) :
    TiersKept s (execHostReadCompletion tag status data s) := by
  unfold execHostReadCompletion; split <;> simp
@[simp] theorem aerLog_tiers (m s) : (aerLog m s).tiers = s.tiers := tiers_congr rfl rfl
@[simp] theorem execHostReadTimeout_tiersKept (tag s) : TiersKept s (execHostReadTimeout tag s) := by
  unfold execHostReadTimeout; split <;> simp
@[simp] theorem hostBack_tiers (s) : (hostBack s).tiers = s.tiers := by simp [hostBack]
@[simp] theorem cfgValue_tiers (i s) : (cfgValue i s).2.tiers = s.tiers := by unfold cfgValue; split <;> simp
@[simp] theorem powerState_tiers (d3 s) : (powerState d3 s).tiers = s.tiers := by simp [powerState]
@[simp] theorem cfgWrite_tiers (i v s) : (cfgWrite i v s).tiers = s.tiers := by unfold cfgWrite; split <;> simp
@[simp] theorem execConfigRequest_tiersKept (item write value s) : TiersKept s (execConfigRequest item write value s) := by
  simp [execConfigRequest]
@[simp] theorem execD3hot_tiersKept (s) : TiersKept s (execD3hot s) := by simp [execD3hot]
@[simp] theorem execHostLinkUp_tiersKept (speed width s) : TiersKept s (execHostLinkUp speed width s) := by simp [execHostLinkUp]
@[simp] theorem linkLost_tiers (s) : (linkLost s).tiers = s.tiers := by simp [linkLost]
@[simp] theorem execLinkDown_tiersKept (s) : TiersKept s (execLinkDown s) := by simp [execLinkDown]
@[simp] theorem hostFresh_tiers (s) : (hostFresh s).tiers = s.tiers := tiers_congr rfl rfl
@[simp] theorem execHotReset_tiersKept (s) : TiersKept s (execHotReset s) := by simp [execHotReset]

/-! ## Machine/Mgmt.lean -/

@[simp] theorem mgmtAnswer_tiers (status bs s) : (mgmtAnswer status bs s).tiers = s.tiers := by simp [mgmtAnswer]
@[simp] theorem mgmtCommand_tiersKept {f} (h : ∀ t, (f t).2.2.tiers = t.tiers) (pec rd s) :
    TiersKept s (mgmtCommand pec rd f s) := by
  unfold mgmtCommand; dsimp only; (repeat' split) <;> simp [h]
@[simp] theorem mgmtWord_tiers (o s) : (mgmtWord o s).2.tiers = s.tiers := by simp [mgmtWord]
@[simp] theorem mgmtWords_tiers (os s) : (mgmtWords os s).2.tiers = s.tiers := by simp [mgmtWords]
@[simp] theorem execIdentity_tiersKept (s) : TiersKept s (execIdentity s) := by simp [execIdentity]
@[simp] theorem execStatus_tiersKept (s) : TiersKept s (execStatus s) := by simp [execStatus]
@[simp] theorem execRegRead_tiersKept (off width pec s) : TiersKept s (execRegRead off width pec s) := by simp [execRegRead]
@[simp] theorem execMgtTelemetry_tiersKept (chunk pec s) :
    TiersKept s (execMgtTelemetry chunk pec s) := by simp [execMgtTelemetry]
@[simp] theorem execFault_tiersKept (record half pec s) : TiersKept s (execFault record half pec s) := by simp [execFault]
@[simp] theorem execFlashBuf_tiersKept (off data pec rd s) :
    TiersKept s (execFlashBuf off data pec rd s) := by simp [execFlashBuf]
@[simp] theorem execLocate_tiersKept (on pec rd s) : TiersKept s (execLocate on pec rd s) := by simp [execLocate]
@[simp] theorem execAlertResponse_tiersKept (s) : TiersKept s (execAlertResponse s) := by simp [execAlertResponse]

/-! ## Machine/TickEdge.lean -/

@[simp] theorem scheduleCollective_tiers (go i s) : (scheduleCollective go i s).tiers = s.tiers := by simp [scheduleCollective]
@[simp] theorem scheduleItem_tiers (go i s) : (scheduleItem go i s).tiers = s.tiers := by simp [scheduleItem]
@[simp] theorem carryPlan_tiers (s) : (carryPlan s).tiers = s.tiers := tiers_congr rfl rfl
@[simp] theorem budgetSwitch_tiers (s) : (budgetSwitch s).tiers = s.tiers := by simp [budgetSwitch]
@[simp] theorem outClear_tiers (s) : (outClear s).tiers = s.tiers := by simp [outClear]
@[simp] theorem switchOver_tiers (s) : (switchOver s).tiers = s.tiers := by simp [switchOver]
@[simp] theorem detachStart_tiers (n s) : (detachStart n s).tiers = s.tiers := by simp [detachStart]
@[simp] theorem newTick_tiers (edge s) : (newTick edge s).tiers = s.tiers := by unfold newTick; dsimp only; split <;> simp

/-! ## Commands -/

/-- A command that `storesNothing` lists keeps the tiers; for one that it does not list there is nothing to show. -/
theorem exec_tiersKept {c : Instr} (h : storesNothing c = true) (s : State) : TiersKept s (exec c s) := by
  cases c <;> cases h <;> simp

/-- Settles O58: no function that a listed command's meaning calls writes a byte of the tiers or lays a frame out anew. -/
theorem tierUntouched : Obligations.TierUntouched := by
  intro c s t listed h
  obtain ⟨u, hu, kept⟩ := exec_tiersKept listed s
  obtain rfl : settle u = t := by rw [hu] at h; injection h
  exact tierByte_of_tiers kept

end Sys2Proof.Machine
end

section
/-! PROOF. The canonical form of memory (R174, R180): every function of the model writes the cells by `tierPut`, drops those of a
frame that is laid out anew, or drops all of them with the power, and each of the three keeps the form: O6. -/

namespace Sys2Proof.Machine

/-! ## The form, and what it takes to keep it -/

/-- Dropping entries keeps keys rising and values apart from the default. -/
theorem Tab.wfFrom_filter {α : Type} [DecidableEq α] (d : α) (p : Nat × α → Bool) (lo : Option Nat) (t : Tab α)
    (h : Tab.wfFrom d lo t = true) : Tab.wfFrom d lo (t.filter p) = true := by
  induction t generalizing lo with
  | nil => rfl
  | cons c t ih =>
    obtain ⟨k, v⟩ := c
    simp only [Tab.wfFrom, Bool.and_eq_true] at h
    obtain ⟨⟨above, value⟩, rest⟩ := h
    by_cases kept : p (k, v) = true
    · simp only [List.filter_cons_of_pos kept, Tab.wfFrom, above, value, ih _ rest, Bool.and_self]
    · rw [List.filter_cons_of_neg kept]
      refine ih lo (Tab.wfFrom_mono d t (fun x hx => ?_) rest)
      cases lo with
      | none => rfl
      | some l => simp only [Tab.above, decide_eq_true_eq] at *; omega

/-- Tiers in canonical form stay so from the first to the second. -/
structure KeepsForm (x y : Tab Byte × Tab Nat) : Prop where
  wf : Memory.wf x.1 = true → Memory.wf y.1 = true

@[simp] theorem keepsForm_refl (x : Tab Byte × Tab Nat) : KeepsForm x x := ⟨id⟩

theorem KeepsForm.trans {x y z : Tab Byte × Tab Nat} (h : KeepsForm x y) (k : KeepsForm y z) : KeepsForm x z :=
  ⟨k.wf ∘ h.wf⟩

@[simp] theorem keepsForm_ite {x y z : Tab Byte × Tab Nat} (c : Prop) [Decidable c] :
    KeepsForm x (if c then y else z) ↔ if c then KeepsForm x y else KeepsForm x z := by
  split <;> rfl

/-- A fold keeps the form when each of its applications does. -/
theorem foldl_keepsForm {α β : Type} (p : β → Tab Byte × Tab Nat) {f : β → α → β}
    (h : ∀ x a, KeepsForm (p x) (p (f x a))) (l : List α) (x : β) : KeepsForm (p x) (p (l.foldl f x)) := by
  induction l generalizing x with
  | nil => exact keepsForm_refl _
  | cons a l ih => exact (h x a).trans (ih (f x a))

section
variable {α β γ δ : Type} {μ : Tab Byte × Tab Nat} {l : List α}

@[simp] theorem each_form {f : α → State → State} (h : ∀ a t, KeepsForm (State.tiers t) (f a t).tiers) {s : State}
    (hs : KeepsForm μ s.tiers) : KeepsForm μ (State.each l f s).tiers :=
  hs.trans (foldl_keepsForm State.tiers (fun t a => h a t) l s)

@[simp] theorem foldl_form {f : State → α → State} (h : ∀ t a, KeepsForm (State.tiers t) (f t a).tiers) {s : State}
    (hs : KeepsForm μ s.tiers) : KeepsForm μ (l.foldl f s).tiers := hs.trans (foldl_keepsForm State.tiers h l s)

@[simp] theorem foldl_fst_form {f : State × β → α → State × β} (h : ∀ x a, KeepsForm x.1.tiers (f x a).1.tiers)
    {x : State × β} (hs : KeepsForm μ x.1.tiers) : KeepsForm μ (l.foldl f x).1.tiers :=
  hs.trans (foldl_keepsForm (fun x => x.1.tiers) h l x)

@[simp] theorem foldl_snd_form {f : β × State → α → β × State} (h : ∀ x a, KeepsForm x.2.tiers (f x a).2.tiers)
    {x : β × State} (hs : KeepsForm μ x.2.tiers) : KeepsForm μ (l.foldl f x).2.tiers :=
  hs.trans (foldl_keepsForm (fun x => x.2.tiers) h l x)

@[simp] theorem foldl_snd_snd_form {f : β × γ × State → α → β × γ × State}
    (h : ∀ x a, KeepsForm x.2.2.tiers (f x a).2.2.tiers) {x : β × γ × State} (hs : KeepsForm μ x.2.2.tiers) :
    KeepsForm μ (l.foldl f x).2.2.tiers :=
  hs.trans (foldl_keepsForm (fun x => x.2.2.tiers) h l x)

@[simp] theorem foldl_snd_snd_snd_form {f : β × γ × δ × State → α → β × γ × δ × State}
    (h : ∀ x a, KeepsForm x.2.2.2.tiers (f x a).2.2.2.tiers) {x : β × γ × δ × State} (hs : KeepsForm μ x.2.2.2.tiers) :
    KeepsForm μ (l.foldl f x).2.2.2.tiers :=
  hs.trans (foldl_keepsForm (fun x => x.2.2.2.tiers) h l x)

end

/-! ## Outcomes -/

/-- The outcome is a settled next state whose memory is in canonical form when that of `s` is. -/
def FormKept (s : State) (o : Host.Outcome State Fault Refusal) : Prop :=
  ∃ t, o = .next (settle t) ∧ KeepsForm s.tiers t.tiers

/-- A command that keeps the tiers keeps their form. -/
theorem TiersKept.formKept {s : State} {o : Host.Outcome State Fault Refusal} (h : TiersKept s o) : FormKept s o := by
  obtain ⟨t, rfl, ht⟩ := h
  exact ⟨t, rfl, ht ▸ keepsForm_refl _⟩

@[simp] theorem formKept_done {s t : State} : FormKept s (done t) ↔ KeepsForm s.tiers t.tiers := by
  refine ⟨?_, fun h => ⟨t, rfl, h⟩⟩
  rintro ⟨u, h, hu⟩
  injection h with h
  exact (congrArg State.tiers h : (settle t).tiers = (settle u).tiers) ▸ hu

@[simp] theorem formKept_ite {s : State} {c : Prop} [Decidable c] {x y : Host.Outcome State Fault Refusal} :
    FormKept s (if c then x else y) ↔ if c then FormKept s x else FormKept s y := by
  split <;> rfl

section
variable {μ : Tab Byte × Tab Nat} {s : State}

@[simp] theorem after_form {o : Host.Outcome State Fault Refusal} (hs : KeepsForm μ s.tiers) (h : FormKept s o) :
    KeepsForm μ (after s o).tiers := by
  obtain ⟨t, rfl, ht⟩ := h
  exact hs.trans ht

/-! ## The model's functions, file by file

A lemma takes that the form was kept up to the state its function is given, so that a chain of stores is followed call by call. A
call of `simp` follows such a chain two calls deep; where a function chains more, the states between are taken one by one or the
side goals are left to a second call. -/

/-! ## Machine/Ops.lean -/

@[simp] theorem tierPut_form {a b} (hs : KeepsForm μ s.tiers) : KeepsForm μ (tierPut a b s).tiers :=
  ⟨fun wf => Tab.wf_set 0 _ _ _ (hs.wf wf)⟩
@[simp] theorem cachePut_form {a b} (hs : KeepsForm μ s.tiers) : KeepsForm μ (cachePut a b s).tiers := by
  unfold cachePut; split <;> simp [hs]
@[simp] theorem nodeWrite_form {a bs} (hs : KeepsForm μ s.tiers) :
    KeepsForm μ (nodeWrite a bs s).tiers := by simp [nodeWrite, hs]
@[simp] theorem ringWrite_form {rcd} (hs : KeepsForm μ s.tiers) :
    KeepsForm μ (ringWrite rcd s).tiers := by simp [ringWrite, hs]
@[simp] theorem writeRecord_form {cls code unit repeats info action tick claim} (hs : KeepsForm μ s.tiers) :
    KeepsForm μ (writeRecord cls code unit repeats info action tick claim s).tiers := by
  simp [writeRecord, hs]
@[simp] theorem coalEnd_form {c} (hs : KeepsForm μ s.tiers) : KeepsForm μ (coalEnd c s).tiers := by simp [coalEnd, hs]
@[simp] theorem coalExpire_form (hs : KeepsForm μ s.tiers) : KeepsForm μ (coalExpire s).tiers := by simp [coalExpire, hs]
@[simp] theorem faultCore_form {c code unit info action claim} (hs : KeepsForm μ s.tiers) :
    KeepsForm μ (faultCore c code unit info action claim s).tiers := by
  unfold faultCore; dsimp only; (repeat' split) <;> simp (disch := simp [hs])
@[simp] theorem fault_form {c code unit info action claim} (hs : KeepsForm μ s.tiers) :
    KeepsForm μ (fault c code unit info action claim s).tiers := by
  simp [fault, hs]
@[simp] theorem formKept_whole {f} (h : ∀ t, FormKept t (f t)) (s) : FormKept s (whole f s) := by
  obtain ⟨t, ht, hp⟩ := h s
  by_cases served : Served s t
  · exact ⟨t, whole_served ht served, hp⟩
  · exact ⟨_, whole_held ht served, by simp⟩
@[simp] theorem mapErr_form {req a} (hs : KeepsForm μ s.tiers) : KeepsForm μ (mapErr req a s).tiers := by simp [mapErr, hs]
@[simp] theorem reportUe_form {c a} (hs : KeepsForm μ s.tiers) : KeepsForm μ (reportUe c a s).tiers := by simp [reportUe, hs]

/-! ## Machine/MemCare.lean -/

@[simp] theorem softRemapStart_form {c u count cause} (hs : KeepsForm μ s.tiers) :
    KeepsForm μ (softRemapStart c u count cause s).tiers := by
  unfold softRemapStart; dsimp only; (repeat' split) <;> simp [hs]
@[simp] theorem startDue_form (hs : KeepsForm μ s.tiers) : KeepsForm μ (startDue s).tiers := by simp [startDue, hs]
@[simp] theorem eccUncorrectable_form {c u a} (hs : KeepsForm μ s.tiers) :
    KeepsForm μ (eccUncorrectable c u a s).tiers := by simp [eccUncorrectable, hs]
@[simp] theorem eccOutcome_form {c u a e} (hs : KeepsForm μ s.tiers) : KeepsForm μ (eccOutcome c u a e s).tiers := by
  unfold eccOutcome; dsimp only; (repeat' split) <;> simp [hs]
@[simp] theorem decodeAll_form {as ecc} (hs : KeepsForm μ s.tiers) : KeepsForm μ (decodeAll as ecc s).tiers := by
  unfold decodeAll; split
  · exact hs
  · exact each_form (fun a t => by split <;> simp) hs
@[simp] theorem eccLine_form {line ecc} (hs : KeepsForm μ s.tiers) : KeepsForm μ (eccLine line ecc s).tiers := by
  simp (disch := simp [hs]) [eccLine]
@[simp] theorem storeFound_form {store line} (hs : KeepsForm μ s.tiers) : KeepsForm μ (storeFound store line s).tiers := by
  simp [storeFound, hs]
@[simp] theorem execScrubRead_formKept (chan ecc s) : FormKept s (execScrubRead chan ecc s) := by simp [execScrubRead]
@[simp] theorem softRemapEnd_form {r} (hs : KeepsForm μ s.tiers) : KeepsForm μ (softRemapEnd r s).tiers := by
  simp [softRemapEnd, hs]
@[simp] theorem softRemapsEnd_form {p} (hs : KeepsForm μ s.tiers) :
    KeepsForm μ (softRemapsEnd p s).tiers := by simp [softRemapsEnd, hs]
@[simp] theorem execSoftRemapDone_formKept (chan s) : FormKept s (execSoftRemapDone chan s) := by
  unfold execSoftRemapDone; split <;> simp
@[simp] theorem execRemapReq_formKept (stack value s) : FormKept s (execRemapReq stack value s) := by
  unfold execRemapReq; split <;> simp
@[simp] theorem execRemapLogAppend_formKept (s) : FormKept s (execRemapLogAppend s) := by
  unfold execRemapLogAppend; dsimp only; (repeat' split) <;> simp
@[simp] theorem tgAccess_form {c mode first flips i acc} (hs : KeepsForm μ acc.1.tiers) :
    KeepsForm μ (tgAccess c mode first flips i acc).1.tiers := by
  simp [tgAccess, apply_ite Prod.fst, hs]
@[simp] theorem tgRun_form {c vis flips ecc} (hs : KeepsForm μ s.tiers) : KeepsForm μ (tgRun c vis flips ecc s).tiers := by
  have k {m f} : KeepsForm μ (vis.foldl (fun acc i => tgAccess c m f flips i acc) (s, 0, 0, none)).1.tiers := by simp [hs]
  simp (disch := simp [k]) [tgRun, k]
@[simp] theorem tgAbort_form {c} (hs : KeepsForm μ s.tiers) : KeepsForm μ (tgAbort c s).tiers := by simp [tgAbort, hs]
@[simp] theorem execTgStop_formKept (chan s) : FormKept s (execTgStop chan s) := by simp [execTgStop]
@[simp] theorem execTgDone_formKept (chan flips ecc s) : FormKept s (execTgDone chan flips ecc s) := by simp [execTgDone]

/-! ## Machine/MemCore.lean -/

@[simp] theorem tierWrite_form {a bs} (hs : KeepsForm μ s.tiers) :
    KeepsForm μ (tierWrite a bs s).tiers := by simp [tierWrite, hs]
@[simp] theorem writeBack_form {line data poison} (hs : KeepsForm μ s.tiers) :
    KeepsForm μ (writeBack line data poison s).tiers := by simp [writeBack, hs]
@[simp] theorem evictLine_form {line} (hs : KeepsForm μ s.tiers) : KeepsForm μ (evictLine line s).tiers := by
  unfold evictLine; dsimp only; split <;> simp [hs]
@[simp] theorem allocLine_form {line l} (hs : KeepsForm μ s.tiers) : KeepsForm μ (allocLine line l s).tiers := by
  unfold allocLine; split <;> simp [hs]
@[simp] theorem lineAccess_form {req write a n data hint uses} (hs : KeepsForm μ s.tiers) :
    KeepsForm μ (lineAccess req write a n data hint uses s).2.2.tiers := by
  unfold lineAccess
  extract_lets line off gk s₁ s₂
  have h₂ : KeepsForm μ s₂.tiers := by
    simp only [s₂]; (repeat' split) <;> simp [s₁, hs]
  have hg : KeepsForm μ (guarded (if write = true ∧ gk = 2 then 2 else 0) data s₂).2.tiers := by simpa using h₂
  generalize guarded (if write = true ∧ gk = 2 then 2 else 0) data s₂ = x at hg ⊢
  obtain ⟨data, t⟩ := x
  dsimp only at hg ⊢
  cases hc : cached t line with
  | some l => simp [hg]
  | none =>
    simp only [guarded_tiers]
    split
    · split <;> simp [hg]
    · split
      · split
        · simp [hg]
        · split <;> simp [hg]
      · simp [hg]
@[simp] theorem adderDo_form {fmt a x} (hs : KeepsForm μ s.tiers) :
    KeepsForm μ (adderDo fmt a x s).2.2.tiers := by simp [adderDo, hs]
@[simp] theorem flushLine_form {line} (hs : KeepsForm μ s.tiers) :
    KeepsForm μ (flushLine line s).tiers := by simp [flushLine, hs]

/-! ## Machine/SliceCore.lean -/

@[simp] theorem ready_form {r} (hs : KeepsForm μ s.tiers) : KeepsForm μ (ready r s).tiers := by
  unfold ready; dsimp only; (repeat' split) <;> simp [hs]
@[simp] theorem serve_form {r} (hs : KeepsForm μ s.tiers) : KeepsForm μ (serve r s).tiers := by
  unfold serve; dsimp only; split <;> simp [hs]
@[simp] theorem arrive_form {r} (hs : KeepsForm μ s.tiers) : KeepsForm μ (arrive r s).tiers := by
  unfold arrive; dsimp only; split <;> simp [hs]
@[simp] theorem pump_form {sl} (hs : KeepsForm μ s.tiers) : KeepsForm μ (pump sl s).tiers := by simp [pump, hs]
@[simp] theorem pumpLine_form {line} (hs : KeepsForm μ s.tiers) : KeepsForm μ (pumpLine line s).tiers := by simp [pumpLine, hs]
@[simp] theorem closeTxn_form {line} (hs : KeepsForm μ s.tiers) : KeepsForm μ (closeTxn line s).tiers := by
  unfold closeTxn; split <;> simp [hs]
@[simp] theorem advance_form {line} (hs : KeepsForm μ s.tiers) : KeepsForm μ (advance line s).tiers := by
  unfold advance; split <;> simp [hs]
@[simp] theorem release_form {line} (hs : KeepsForm μ s.tiers) : KeepsForm μ (release line s).tiers := by simp [release, hs]
@[simp] theorem l1Check_form {e line} (hs : KeepsForm μ s.tiers) : KeepsForm μ (l1Check e line s).tiers := by
  unfold l1Check; split <;> simp [hs]
@[simp] theorem takeDirty_form {line data poison} (hs : KeepsForm μ s.tiers) :
    KeepsForm μ (takeDirty line data poison s).tiers := by
  unfold takeDirty; split <;> simp [hs]
@[simp] theorem receiveGrant_form {k st e tag line} (hs : KeepsForm μ s.tiers) :
    KeepsForm μ (receiveGrant k st e tag line s).tiers := by
  unfold receiveGrant; dsimp only; (repeat' split) <;> simp [hs]
@[simp] theorem answerSnoop_form {k e slice tag line} (hs : KeepsForm μ s.tiers) :
    KeepsForm μ (answerSnoop k e slice tag line s).tiers := by
  unfold answerSnoop; dsimp only; (repeat' split) <;> simp [hs]
@[simp] theorem protocolFault_form {cause e line} (hs : KeepsForm μ s.tiers) :
    KeepsForm μ (protocolFault cause e line s).tiers := by
  simp [protocolFault, hs]
@[simp] theorem rspEffect_form {k x m} (hs : KeepsForm μ s.tiers) : KeepsForm μ (rspEffect k x m s).tiers := by
  unfold rspEffect; split <;> simp [hs]
@[simp] theorem receiveRsp_form {k e slice tag line} (hs : KeepsForm μ s.tiers) :
    KeepsForm μ (receiveRsp k e slice tag line s).tiers := by
  unfold receiveRsp; dsimp only; (repeat' split) <;> simp [hs]
@[simp] theorem completeBusy_form {line ecc} (hs : KeepsForm μ s.tiers) : KeepsForm μ (completeBusy line ecc s).tiers := by
  unfold completeBusy; split
  · exact hs
  · extract_lets t u
    have ht : KeepsForm μ t.tiers := by simp [t, hs]
    have hu : KeepsForm μ u.tiers := by simp [u, ht]
    split
    · simp [ht]
    · split
      · simp [hu]
      · simp [ht]
@[simp] theorem finishBusy_form {line} (hs : KeepsForm μ s.tiers) : KeepsForm μ (finishBusy line s).tiers := by
  unfold finishBusy; dsimp only; (repeat' split) <;> simp [hs]
@[simp] theorem deliverMsg_form {m} (hs : KeepsForm μ s.tiers) : KeepsForm μ (deliverMsg m s).tiers := by
  unfold deliverMsg; split <;> simp [hs]
@[simp] theorem settleSteps_form {line n} (hs : KeepsForm μ s.tiers) : KeepsForm μ (settleSteps line n s).tiers := by
  fun_induction settleSteps <;> simp_all
@[simp] theorem settleLine_form {line} (hs : KeepsForm μ s.tiers) :
    KeepsForm μ (settleLine line s).tiers := by simp [settleLine, hs]
@[simp] theorem lineUse_form {req write a n data hint uses d} (hs : KeepsForm μ s.tiers) :
    KeepsForm μ (lineUse req write a n data hint uses d s).2.2.tiers := by
  simp [lineUse, hs]
@[simp] theorem getPieces_form {req hint uses d l} (hs : KeepsForm μ s.tiers) :
    KeepsForm μ (getPieces req hint uses d l s).2.tiers := by
  induction l generalizing s with
  | nil => exact hs
  | cons p ps ih => unfold getPieces; split <;> simp [ih, hs]
@[simp] theorem useGet_form {req a n hint uses d} (hs : KeepsForm μ s.tiers) :
    KeepsForm μ (useGet req a n hint uses d s).2.tiers := by simp [useGet, hs]
@[simp] theorem useRead_form {req a n hint uses} (hs : KeepsForm μ s.tiers) :
    KeepsForm μ (useRead req a n hint uses s).2.2.2.tiers := by
  simp [useRead, hs]
@[simp] theorem usePut_form {req a bs hint uses d} (hs : KeepsForm μ s.tiers) :
    KeepsForm μ (usePut req a bs hint uses d s).2.2.tiers := by
  simp [usePut, hs]
@[simp] theorem useWrite_form {req a bs hint uses} (hs : KeepsForm μ s.tiers) :
    KeepsForm μ (useWrite req a bs hint uses s).2.tiers := by
  simp [useWrite, hs]
@[simp] theorem touch_form {req a n} (hs : KeepsForm μ s.tiers) : KeepsForm μ (touch req a n s).tiers := by simp [touch, hs]
@[simp] theorem store_form {req a bs} (hs : KeepsForm μ s.tiers) : KeepsForm μ (store req a bs s).tiers := by simp [store, hs]
@[simp] theorem copyRange_form {req a b n} (hs : KeepsForm μ s.tiers) :
    KeepsForm μ (copyRange req a b n s).tiers := by simp [copyRange, hs]
@[simp] theorem atomicNow_form {req fmt a x} (hs : KeepsForm μ s.tiers) :
    KeepsForm μ (atomicNow req fmt a x s).2.2.tiers := by
  unfold atomicNow
  extract_lets t u v
  have hu : KeepsForm μ u.tiers := by simp [u, t, hs]
  exact adderDo_form (by simp [v, hu])
@[simp] theorem l1MakeRoom_form {e line} (hs : KeepsForm μ s.tiers) : KeepsForm μ (l1MakeRoom e line s).tiers := by
  unfold l1MakeRoom; dsimp only; (repeat' split) <;> simp [hs]
@[simp] theorem l1Bring_form {e line write} (hs : KeepsForm μ s.tiers) : KeepsForm μ (l1Bring e line write s).tiers := by
  unfold l1Bring
  extract_lets t w u x v
  have ht : KeepsForm μ t.tiers := by simp [t, hs]
  have hw : KeepsForm μ w.tiers := by simp [w, ht]
  have hu : KeepsForm μ u.tiers := by simp [u, ht]
  have hx : KeepsForm μ x.tiers := by simp [x, hu]
  have hv : KeepsForm μ v.tiers := by simp only [v]; (repeat' split) <;> simp [hu, hx]
  split
  · (repeat' split) <;> simp [ht, hw]
  · split <;> simp [hv]
@[simp] theorem l1Read_form {e a n} (hs : KeepsForm μ s.tiers) : KeepsForm μ (l1Read e a n s).2.2.2.tiers := by
  unfold l1Read; dsimp only; (repeat' split) <;> simp [hs]
@[simp] theorem l1Write_form {e a bs poison} (hs : KeepsForm μ s.tiers) : KeepsForm μ (l1Write e a bs poison s).2.tiers := by
  unfold l1Write; dsimp only; (repeat' split) <;> simp [hs]

/-! ## Machine/Memory.lean -/

@[simp] theorem refuseAccess_form {r} (hs : KeepsForm μ s.tiers) :
    KeepsForm μ (refuseAccess r s).tiers := by simp [refuseAccess, hs]
@[simp] theorem execMemoryAccess_formKept (req write addr data len hint uses deadline s) :
    FormKept s (execMemoryAccess req write addr data len hint uses deadline s) := by
  simp [execMemoryAccess]
@[simp] theorem execAtomicRequest_formKept (req addr fmt fetch operand s) :
    FormKept s (execAtomicRequest req addr fmt fetch operand s) := by
  simp [execAtomicRequest]
@[simp] theorem execRegulatorIssue_formKept (part s) : FormKept s (execRegulatorIssue part s) := by
  unfold execRegulatorIssue; dsimp only; split <;> simp
@[simp] theorem execLineFillDone_formKept (line ecc s) : FormKept s (execLineFillDone line ecc s) := by
  unfold execLineFillDone; dsimp only; split <;> simp
@[simp] theorem execAdderComplete_formKept (line ecc s) : FormKept s (execAdderComplete line ecc s) := by
  unfold execAdderComplete; dsimp only; split <;> simp
@[simp] theorem freshFrame_form {f} (hs : KeepsForm μ s.tiers) : KeepsForm μ (freshFrame f s).tiers :=
  ⟨fun wf => Tab.wfFrom_filter 0 _ none _ (hs.wf wf)⟩
@[simp] theorem layOut_form {p} (hs : KeepsForm μ s.tiers) : KeepsForm μ (layOut p s).tiers := by simp [layOut, hs]
@[simp] theorem stopGenerators_form {p} (hs : KeepsForm μ s.tiers) : KeepsForm μ (stopGenerators p s).tiers := by
  simp (disch := simp [hs]) [stopGenerators, hs]
@[simp] theorem enablePart_form {p} (hs : KeepsForm μ s.tiers) : KeepsForm μ (enablePart p s).tiers := by simp [enablePart, hs]
@[simp] theorem execPartitionEnable_formKept (part cfg s) : FormKept s (execPartitionEnable part cfg s) := by
  unfold execPartitionEnable; dsimp only; (repeat' split) <;> simp
@[simp] theorem execFlushDone_formKept (part s) : FormKept s (execFlushDone part s) := by simp [execFlushDone]

/-! ## Machine/Cycle.lean -/

/-! ## Machine/Wire.lean -/

@[simp] theorem portDown_form {p cause} (hs : KeepsForm μ s.tiers) :
    KeepsForm μ (portDown p cause s).tiers := by simp [portDown, hs]
@[simp] theorem claimAndRetrain_form {p cause code} (hs : KeepsForm μ s.tiers) :
    KeepsForm μ (claimAndRetrain p cause code s).tiers := by
  simp [claimAndRetrain, hs]
@[simp] theorem exhaust_form {p} (hs : KeepsForm μ s.tiers) : KeepsForm μ (exhaust p s).tiers := by simp [exhaust, hs]

/-! ## Machine/FabCore.lean -/

/-! ## Machine/Links.lean -/

@[simp] theorem exchangePage_form {p lane body inverted} (hs : KeepsForm μ s.tiers) :
    KeepsForm μ (exchangePage p lane body inverted s).tiers := by
  unfold exchangePage; dsimp only; split <;> simp [hs]
@[simp] theorem execCapabilityPage_formKept (port lane inverted body crc at_ s) :
    FormKept s (execCapabilityPage port lane inverted body crc at_ s) := by
  unfold execCapabilityPage; dsimp only; (repeat' split) <;> simp
@[simp] theorem execExchangeTimeout_formKept (port s) : FormKept s (execExchangeTimeout port s) := by simp [execExchangeTimeout]
@[simp] theorem failAttempt_form {p cause lanes} (hs : KeepsForm μ s.tiers) :
    KeepsForm μ (failAttempt p cause lanes s).tiers := by simp [failAttempt, hs]
@[simp] theorem execTrainingDone_formKept (port ok lanes s) : FormKept s (execTrainingDone port ok lanes s) := by
  simp [execTrainingDone]
@[simp] theorem execTrainTimeout_formKept (port lanes s) : FormKept s (execTrainTimeout port lanes s) := by
  simp [execTrainTimeout]
@[simp] theorem execAlignTimeout_formKept (port lanes s) : FormKept s (execAlignTimeout port lanes s) := by
  simp [execAlignTimeout]
@[simp] theorem execAlignDone_formKept (port mapOk lanes s) : FormKept s (execAlignDone port mapOk lanes s) := by
  simp [execAlignDone]
@[simp] theorem execDelayReply_formKept (port echo turn ret s) : FormKept s (execDelayReply port echo turn ret s) := by
  simp [execDelayReply]
@[simp] theorem execVerifyEnd_formKept (port uncorrectable corrected received crcError lanes s) :
    FormKept s (execVerifyEnd port uncorrectable corrected received crcError lanes s) := by
  simp [execVerifyEnd]
@[simp] theorem execPortEnable_formKept (port on s) : FormKept s (execPortEnable port on s) := by simp [execPortEnable]
@[simp] theorem closeEpisode_form {p} (hs : KeepsForm μ s.tiers) :
    KeepsForm μ (closeEpisode p s).tiers := by simp [closeEpisode, hs]
@[simp] theorem execEpisodeWindowClose_formKept (port s) : FormKept s (execEpisodeWindowClose port s) := by
  simp [execEpisodeWindowClose]
@[simp] theorem replayNow_form {p ctrl} (hs : KeepsForm μ s.tiers) :
    KeepsForm μ (replayNow p ctrl s).tiers := by simp [replayNow, hs]
@[simp] theorem replay_form {p ctrl} (hs : KeepsForm μ s.tiers) : KeepsForm μ (replay p ctrl s).tiers := by simp [replay, hs]
@[simp] theorem takeSpace_form {p ctrl h} (hs : KeepsForm μ s.tiers) :
    KeepsForm μ (takeSpace p ctrl h s).tiers := by simp [takeSpace, hs]
@[simp] theorem takeHeader_form {p f} (hs : KeepsForm μ s.tiers) :
    KeepsForm μ (takeHeader p f s).tiers := by simp [takeHeader, hs]
@[simp] theorem takePacket_form {p pkt} (hs : KeepsForm μ s.tiers) :
    KeepsForm μ (takePacket p pkt s).tiers := by simp [takePacket, hs]
@[simp] theorem takeUnits_form {p f} (hs : KeepsForm μ s.tiers) :
    KeepsForm μ (takeUnits p f s).tiers := by simp [takeUnits, hs]
@[simp] theorem takeContent_form {p ctrl f} (hs : KeepsForm μ s.tiers) :
    KeepsForm μ (takeContent p ctrl f s).tiers := by simp [takeContent, hs]
@[simp] theorem takeSequenced_form {p ctrl f} (hs : KeepsForm μ s.tiers) :
    KeepsForm μ (takeSequenced p ctrl f s).tiers := by simp [takeSequenced, hs]
@[simp] theorem execFlitReceive_formKept (port flit codewords at_ s) :
    FormKept s (execFlitReceive port flit codewords at_ s) := by
  unfold execFlitReceive; dsimp only; (repeat' split) <;> simp
@[simp] theorem execAckTimeout_formKept (port ctrl at_ s) : FormKept s (execAckTimeout port ctrl at_ s) := by
  simp [execAckTimeout]
@[simp] theorem lossOfSignal_form {p canRetrain} (hs : KeepsForm μ s.tiers) :
    KeepsForm μ (lossOfSignal p canRetrain s).tiers := by
  simp [lossOfSignal, hs]
@[simp] theorem retrainFails_form {p} (hs : KeepsForm μ s.tiers) :
    KeepsForm μ (retrainFails p s).tiers := by simp [retrainFails, hs]
@[simp] theorem execRetrainDone_formKept (port line s) : FormKept s (execRetrainDone port line s) := by simp [execRetrainDone]
@[simp] theorem execRetrainTimeout_formKept (port s) : FormKept s (execRetrainTimeout port s) := by simp [execRetrainTimeout]
@[simp] theorem execDegradedWindow_formKept (port corrected received s) :
    FormKept s (execDegradedWindow port corrected received s) := by
  simp [execDegradedWindow]
@[simp] theorem execRetrain_formKept (port s) : FormKept s (execRetrain port s) := by simp [execRetrain]
@[simp] theorem execRenegotiate_formKept (port s) : FormKept s (execRenegotiate port s) := by simp [execRenegotiate]
@[simp] theorem execQuit_formKept (port cause s) : FormKept s (execQuit port cause s) := by simp [execQuit]

/-! ## Machine/Slots.lean -/

@[simp] theorem recordLate_form {i action} (hs : KeepsForm μ s.tiers) :
    KeepsForm μ (recordLate i action s).tiers := by simp [recordLate, hs]

/-! ## Machine/CalCore.lean -/

@[simp] theorem wholeGet_form {a n} (hs : KeepsForm μ s.tiers) : KeepsForm μ (wholeGet a n s).2.tiers := by simp [wholeGet, hs]
@[simp] theorem localElems_form {d w k0 n} (hs : KeepsForm μ s.tiers) :
    KeepsForm μ (localElems d w k0 n s).2.tiers := by simp [localElems, hs]
@[simp] theorem localExp_form {d w} (hs : KeepsForm μ s.tiers) : KeepsForm μ (localExp d w s).2.tiers := by simp [localExp, hs]
@[simp] theorem localGroup_form {d gs w} (hs : KeepsForm μ s.tiers) :
    KeepsForm μ (localGroup d gs w s).2.tiers := by simp [localGroup, hs]
@[simp] theorem localPart_form {d gs w p} (hs : KeepsForm μ s.tiers) :
    KeepsForm μ (localPart d gs w p s).2.tiers := by simp (disch := simp [hs]) [localPart]
@[simp] theorem writeStatus_form {d w flags} (hs : KeepsForm μ s.tiers) :
    KeepsForm μ (writeStatus d w flags s).tiers := by simp [writeStatus, hs]
@[simp] theorem statusBit4_form {a v} (hs : KeepsForm μ s.tiers) :
    KeepsForm μ (statusBit4 a v s).tiers := by simp [statusBit4, hs]
@[simp] theorem endWindow_form {i w missing} (hs : KeepsForm μ s.tiers) :
    KeepsForm μ (endWindow i w missing s).tiers := by simp (disch := simp [hs]) [endWindow]
@[simp] theorem ownPart_form {i g w p flags contrib check rounded es} (hs : KeepsForm μ s.tiers) :
    KeepsForm μ (ownPart i g w p flags contrib check rounded es s).tiers := by
  simp [ownPart, hs]
@[simp] theorem ownMax8_form {i gs w es} (hs : KeepsForm μ s.tiers) : KeepsForm μ (ownMax8 i gs w es s).tiers :=
  endWindow_form (each_form (fun v t => by dsimp only; split <;> simp) hs)
@[simp] theorem endOpenWindows_form {i all} (hs : KeepsForm μ s.tiers) :
    KeepsForm μ (endOpenWindows i all s).tiers := by simp (disch := simp [hs]) [endOpenWindows, hs]
@[simp] theorem touchDesc_form {i} (hs : KeepsForm μ s.tiers) : KeepsForm μ (touchDesc i s).tiers := by simp [touchDesc, hs]
@[simp] theorem descForLate_form {i} (hs : KeepsForm μ s.tiers) :
    KeepsForm μ (descForLate i s).tiers := by simp [descForLate, hs]
@[simp] theorem gatherEnd_form {i} (hs : KeepsForm μ s.tiers) : KeepsForm μ (gatherEnd i s).tiers := by simp [gatherEnd, hs]
@[simp] theorem settleRepeats_form (hs : KeepsForm μ s.tiers) :
    KeepsForm μ (settleRepeats s).tiers := by simp [settleRepeats, hs]
@[simp] theorem holdStep_form (hs : KeepsForm μ s.tiers) : KeepsForm μ (holdStep s).tiers := by simp [holdStep, hs]
@[simp] theorem lateEffect_form {i} (hs : KeepsForm μ s.tiers) : KeepsForm μ (lateEffect i s).tiers := by
  unfold lateEffect
  extract_lets x red row1 t u v n f
  have ht : KeepsForm μ t.tiers := by simp only [t]; split <;> simp [hs]
  have hu : KeepsForm μ u.tiers := by simp only [u]; split <;> simp [ht]
  have hv : KeepsForm μ v.tiers := by simp [v, hu]
  have hf : KeepsForm μ f.tiers := by simp only [f]; split <;> simp [n, hv]
  (repeat' split) <;> simp [hv, hf]
@[simp] theorem cancelDependents_form {i} (hs : KeepsForm μ s.tiers) :
    KeepsForm μ (cancelDependents i s).tiers := by simp [cancelDependents, hs]
@[simp] theorem lateCollective_form {i} (hs : KeepsForm μ s.tiers) :
    KeepsForm μ (lateCollective i s).tiers := by simp [lateCollective, hs]
@[simp] theorem acceptCommit_form {skip kd} (hs : KeepsForm μ s.tiers) :
    KeepsForm μ (acceptCommit skip kd s).tiers := by simp [acceptCommit, hs]
@[simp] theorem acceptAbort_form {kd} (hs : KeepsForm μ s.tiers) :
    KeepsForm μ (acceptAbort kd s).tiers := by simp (disch := simp [hs]) [acceptAbort]
@[simp] theorem acceptGather_form {again kd} (hs : KeepsForm μ s.tiers) :
    KeepsForm μ (acceptGather again kd s).tiers := by simp (disch := simp [hs]) [acceptGather]
@[simp] theorem acceptVerdict_form {kd} (hs : KeepsForm μ s.tiers) : KeepsForm μ (acceptVerdict kd s).tiers := by
  unfold acceptVerdict; dsimp only; (repeat' split) <;> simp [hs]
@[simp] theorem launchVerdict_form {i v c} (hs : KeepsForm μ s.tiers) : KeepsForm μ (launchVerdict i v c s).tiers := by
  unfold launchVerdict; split
  · exact hs
  · dsimp only
    apply acceptVerdict_form
    rw [onCal_tiers, set_tiers, launchBeacon_tiers]
    exact hs
@[simp] theorem launchAbort_form {i fl fp} (hs : KeepsForm μ s.tiers) :
    KeepsForm μ (launchAbort i fl fp s).tiers := by simp [launchAbort, hs]
@[simp] theorem decide_form {i g rec_ all} (hs : KeepsForm μ s.tiers) :
    KeepsForm μ (decide_ i g rec_ all s).tiers := by simp [decide_, hs]
@[simp] theorem partDone_form {i} (hs : KeepsForm μ s.tiers) : KeepsForm μ (partDone i s).tiers := by simp [partDone, hs]
@[simp] theorem finishPart_form {i g w p ins} (hs : KeepsForm μ s.tiers) :
    KeepsForm μ (finishPart i g w p ins s).tiers := by simp [finishPart, hs]
@[simp] theorem copyPart_form {i g w p es} (hs : KeepsForm μ s.tiers) :
    KeepsForm μ (copyPart i g w p es s).tiers := by simp [copyPart, hs]
@[simp] theorem startParts_form {i} (hs : KeepsForm μ s.tiers) : KeepsForm μ (startParts i s).tiers := by
  refine foldl_form (fun t g => ?_) hs
  split
  · simp
  · refine foldl_form (fun t w => foldl_form (fun t p => ?_) (keepsForm_refl _)) (keepsForm_refl _)
    split
    · have k := localPart_form (d := slotDesc s i) (gs := slotSegs s i) (w := w) (p := p) (keepsForm_refl t.tiers)
      split <;> rename_i h <;> rw [h] at k <;> dsimp only at k <;> simp [k]
    · simp

/-! ## Machine/Collective.lean -/

@[simp] theorem markNoAgree_form {i} (hs : KeepsForm μ s.tiers) :
    KeepsForm μ (markNoAgree i s).tiers := by simp (disch := simp [hs]) [markNoAgree]
@[simp] theorem startConfirm_form {i} (hs : KeepsForm μ s.tiers) : KeepsForm μ (startConfirm i s).tiers := by
  unfold startConfirm
  extract_lets d gather r m x s₁ ins s₂
  have h : KeepsForm μ s₁.tiers := by
    simp only [s₁]; split <;> simp [hs]
  have h₂ : KeepsForm μ s₂.tiers := by simp [s₂, h]
  clear_value s₁ s₂
  split
  · exact h
  · (repeat' split) <;> simp [h, h₂]
@[simp] theorem refuseSlot_form {i r} (hs : KeepsForm μ s.tiers) :
    KeepsForm μ (refuseSlot i r s).tiers := by simp (disch := simp [hs]) [refuseSlot]
@[simp] theorem slotBegin_form {i} (hs : KeepsForm μ s.tiers) : KeepsForm μ (slotBegin i s).tiers := by simp [slotBegin, hs]
@[simp] theorem execCollectiveSlotStart_formKept (slot s) : FormKept s (execCollectiveSlotStart slot s) := by
  simp (disch := simp) [execCollectiveSlotStart]
@[simp] theorem takeInput_form {port i g w p pkt} (hs : KeepsForm μ s.tiers) :
    KeepsForm μ (takeInput port i g w p pkt s).tiers := by
  unfold takeInput
  extract_lets d es k e ins s₁
  (repeat' split) <;> simp [s₁, hs]
@[simp] theorem takeResult_form {i g w p pkt} (hs : KeepsForm μ s.tiers) :
    KeepsForm μ (takeResult i g w p pkt s).tiers := by simp [takeResult, hs]
@[simp] theorem execVc0Packet_formKept (port pkt at_ s) : FormKept s (execVc0Packet port pkt at_ s) := by
  unfold execVc0Packet; dsimp only; (repeat' split) <;> simp
@[simp] theorem execCalResolve_formKept (value s) : FormKept s (execCalResolve value s) := by simp [execCalResolve]

/-! ## Machine/Coherence.lean -/

@[simp] theorem l1Send_form {kind e tag line off data} (hs : KeepsForm μ s.tiers) :
    KeepsForm μ (l1Send kind e tag line off data s).tiers := by
  simp [l1Send, hs]
@[simp] theorem execRdS_formKept (eng tag line s) : FormKept s (execRdS eng tag line s) := by simp [execRdS]
@[simp] theorem execRdX_formKept (eng tag line off data s) : FormKept s (execRdX eng tag line off data s) := by simp [execRdX]
@[simp] theorem execUpg_formKept (eng tag line off data s) : FormKept s (execUpg eng tag line off data s) := by
  unfold execUpg; split <;> simp
@[simp] theorem execEvict_formKept (eng tag line s) : FormKept s (execEvict eng tag line s) := by
  unfold execEvict; dsimp only; (repeat' split) <;> simp
@[simp] theorem execWb_formKept (eng tag line s) : FormKept s (execWb eng tag line s) := by
  have ht : KeepsForm s.tiers (l1Check eng line.toNat s).tiers := by simp
  unfold execWb; dsimp only; (repeat' split) <;> simp [ht]
@[simp] theorem execDataS_formKept (eng tag line s) : FormKept s (execDataS eng tag line s) := by simp [execDataS]
@[simp] theorem execDataE_formKept (eng tag line s) : FormKept s (execDataE eng tag line s) := by simp [execDataE]
@[simp] theorem execDataX_formKept (eng tag line s) : FormKept s (execDataX eng tag line s) := by simp [execDataX]
@[simp] theorem execUpgAck_formKept (eng tag line s) : FormKept s (execUpgAck eng tag line s) := by simp [execUpgAck]
@[simp] theorem receiveSnoop_form {k e slice tag line} (hs : KeepsForm μ s.tiers) :
    KeepsForm μ (receiveSnoop k e slice tag line s).tiers := by
  unfold receiveSnoop; split <;> simp [hs]
@[simp] theorem execSnpShare_formKept (eng slice tag line s) : FormKept s (execSnpShare eng slice tag line s) := by
  simp [execSnpShare]
@[simp] theorem execSnpInv_formKept (eng slice tag line s) : FormKept s (execSnpInv eng slice tag line s) := by simp [execSnpInv]
@[simp] theorem execSnpDiscard_formKept (eng slice tag line s) : FormKept s (execSnpDiscard eng slice tag line s) := by
  simp [execSnpDiscard]
@[simp] theorem execRspGone_formKept (eng slice tag line s) : FormKept s (execRspGone eng slice tag line s) := by
  simp [execRspGone]
@[simp] theorem execRspInv_formKept (eng slice tag line s) : FormKept s (execRspInv eng slice tag line s) := by simp [execRspInv]
@[simp] theorem execRspInvS_formKept (eng slice tag line s) : FormKept s (execRspInvS eng slice tag line s) := by
  simp [execRspInvS]
@[simp] theorem execRspData_formKept (eng slice tag line s) : FormKept s (execRspData eng slice tag line s) := by
  simp [execRspData]
@[simp] theorem execRspDataS_formKept (eng slice tag line s) : FormKept s (execRspDataS eng slice tag line s) := by
  simp [execRspDataS]
@[simp] theorem execSnoopTimeout_formKept (slice tag s) : FormKept s (execSnoopTimeout slice tag s) := by
  unfold execSnoopTimeout; split <;> simp
@[simp] theorem l1Walk_form {inv e} (hs : KeepsForm μ s.tiers) :
    KeepsForm μ (l1Walk inv e s).tiers := by simp (disch := simp [hs]) [l1Walk]
@[simp] theorem l1FlushExcept_form {late} (hs : KeepsForm μ s.tiers) : KeepsForm μ (l1FlushExcept late s).tiers := by
  unfold l1FlushExcept
  rw [cohSettle_tiers]
  refine foldl_form (fun t e => ?_) hs
  split
  · simp
  · have k : KeepsForm t.tiers
        ((t.l1 e).wb.foldl (fun u w => clearHolder e w.1 (takeDirty w.1 w.2.1 w.2.2 u)) t).tiers := by simp
    simp [k]
@[simp] theorem l1FlushAll_form (hs : KeepsForm μ s.tiers) : KeepsForm μ (l1FlushAll s).tiers := by simp [l1FlushAll, hs]
@[simp] theorem execEngineFenceComplete_formKept (s) : FormKept s (execEngineFenceComplete s) := by simp [execEngineFenceComplete]

/-! ## Machine/Mmu.lean -/

@[simp] theorem mmuWalk_form {req va n m k} (hs : KeepsForm μ s.tiers) : KeepsForm μ (mmuWalk req va n m k s).2.tiers := by
  induction n generalizing m k s with
  | zero => exact hs
  | succ n ih => simp [mmuWalk, ih, hs]
@[simp] theorem mmuLeaf_form {req asid va} (hs : KeepsForm μ s.tiers) : KeepsForm μ (mmuLeaf req asid va s).2.tiers := by
  unfold mmuLeaf
  split
  · exact hs
  · dsimp only
    split
    · simp [hs]
    · split <;> rename_i h <;> have k := congrArg (fun x => KeepsForm μ x.2.tiers) h <;> simp [hs] at k <;> simp [k]
@[simp] theorem mmuTranslate_form {req asid va write touch} (hs : KeepsForm μ s.tiers) :
    KeepsForm μ (mmuTranslate req asid va write touch s).2.2.tiers := by
  have k := mmuLeaf_form (req := req) (asid := asid) (va := va) hs
  unfold mmuTranslate
  dsimp only
  split
  · simp [hs]
  · split <;> rename_i h <;> rw [h] at k <;> dsimp only at k <;> simp [k]

/-! ## Machine/RowLogic.lean -/

@[simp] theorem fencePrologue_form {rs} (hs : KeepsForm μ s.tiers) :
    KeepsForm μ (fencePrologue rs s).tiers := by simp [fencePrologue, hs]
@[simp] theorem rlReject_form {st slot r} (hs : KeepsForm μ s.tiers) : KeepsForm μ (rlReject st slot r s).tiers := by
  unfold rlReject; split <;> simp [hs]
@[simp] theorem rlAdmit_form {unit desc slot} (hs : KeepsForm μ s.tiers) :
    KeepsForm μ (rlAdmit unit desc slot s).tiers := by simp [rlAdmit, hs]
@[simp] theorem execRowlogicBatchStart_formKept (slot s) : FormKept s (execRowlogicBatchStart slot s) := by
  simp [execRowlogicBatchStart]
@[simp] theorem execRlgSubmit_formKept (stack value s) : FormKept s (execRlgSubmit stack value s) := by simp [execRlgSubmit]
@[simp] theorem rowWrite_form {chan bank row bs poison} (hs : KeepsForm μ s.tiers) :
    KeepsForm μ (rowWrite chan bank row bs poison s).tiers := by
  simp [rowWrite, hs]
@[simp] theorem rlEcc_form {st sel rows ecc} (hs : KeepsForm μ s.tiers) :
    KeepsForm μ (rlEcc st sel rows ecc s).tiers := by simp [rlEcc, hs]
@[simp] theorem rlRun_form {op stack ecc src effect} (h : ∀ c sel t, KeepsForm (State.tiers t) (effect c sel t).tiers)
    (hs : KeepsForm μ s.tiers) : KeepsForm μ (rlRun op stack ecc src effect s).tiers := by
  have k : ∀ {c sel t}, KeepsForm μ (State.tiers t) → KeepsForm μ (effect c sel t).tiers := fun ht => ht.trans (h _ _ _)
  unfold rlRun; dsimp only; (repeat' split) <;> simp (disch := simp [k, hs]) [hs]
@[simp] theorem bitwise_form {f src c sel} (hs : KeepsForm μ s.tiers) :
    KeepsForm μ (bitwise f src c sel s).tiers := by simp [bitwise, hs]
@[simp] theorem execRlgNop_formKept (stack s) : FormKept s (execRlgNop stack s) := by simp [execRlgNop]
@[simp] theorem execCopy_formKept (stack ecc s) : FormKept s (execCopy stack ecc s) := by simp [execCopy]
@[simp] theorem execNot_formKept (stack ecc s) : FormKept s (execNot stack ecc s) := by simp [execNot]
@[simp] theorem execAnd_formKept (stack ecc s) : FormKept s (execAnd stack ecc s) := by simp [execAnd]
@[simp] theorem execOr_formKept (stack ecc s) : FormKept s (execOr stack ecc s) := by simp [execOr]
@[simp] theorem execXor_formKept (stack ecc s) : FormKept s (execXor stack ecc s) := by simp [execXor]
@[simp] theorem execMaj_formKept (stack ecc s) : FormKept s (execMaj stack ecc s) := by simp [execMaj]
@[simp] theorem execAccClear_formKept (stack s) : FormKept s (execAccClear stack s) := by simp [execAccClear]
@[simp] theorem execAccLoad_formKept (stack ecc s) : FormKept s (execAccLoad stack ecc s) := by simp [execAccLoad]
@[simp] theorem execAccAdd_formKept (stack ecc s) : FormKept s (execAccAdd stack ecc s) := by simp [execAccAdd]
@[simp] theorem execAccStore_formKept (stack s) : FormKept s (execAccStore stack s) := by simp (disch := simp) [execAccStore]
@[simp] theorem execChainMove_formKept (stack s) : FormKept s (execChainMove stack s) := by simp [execChainMove]
@[simp] theorem execChainAdd_formKept (stack s) : FormKept s (execChainAdd stack s) := by simp [execChainAdd]

/-! ## Machine/StrCore.lean -/

@[simp] theorem strFault_form {c kind va} (hs : KeepsForm μ s.tiers) :
    KeepsForm μ (strFault c kind va s).tiers := by simp [strFault, hs]
@[simp] theorem strStep_form {op c f} (h : ∀ w t, KeepsForm (State.tiers t) (f w t).tiers) (hs : KeepsForm μ s.tiers) :
    KeepsForm μ (strStep op c f s).tiers := by
  unfold strStep; dsimp only; (repeat' split) <;> simp [hs, hs.trans (h _ s)]
@[simp] theorem strPieces_form {c write k va n} (hs : KeepsForm μ s.tiers) :
    KeepsForm μ (strPieces c write k va n s).2.2.tiers := by
  induction k generalizing va n s with
  | zero => exact hs
  | succ k ih =>
    unfold strPieces
    split
    · exact hs
    · split
      · exact hs
      · dsimp only; split <;> simp [ih, hs]
@[simp] theorem strRange_form {c write va n} (hs : KeepsForm μ s.tiers) :
    KeepsForm μ (strRange c write va n s).2.2.tiers := by simp [strRange, hs]

/-! ## Machine/EngCore.lean -/

@[simp] theorem laRead_form {e a} (hs : KeepsForm μ s.tiers) : KeepsForm μ (laRead e a s).2.2.2.tiers := by simp [laRead, hs]
@[simp] theorem laWrite_form {e a v po} (hs : KeepsForm μ s.tiers) :
    KeepsForm μ (laWrite e a v po s).tiers := by simp [laWrite, hs]

/-! ## Machine/Rules.lean -/

@[simp] theorem vldBeat_form {e w b t} (hs : KeepsForm μ t.tiers) :
    KeepsForm μ (vldBeat e w b t).tiers := by simp [vldBeat, hs]
@[simp] theorem ruleStep_form {op e f} (h : ∀ w b t, KeepsForm (State.tiers t) (f w b t).tiers) (hs : KeepsForm μ s.tiers) :
    KeepsForm μ (ruleStep op e f s).tiers := by
  unfold ruleStep; dsimp only; split <;> simp [h, hs]
@[simp] theorem execVld_formKept (eng s) : FormKept s (execVld eng s) :=
  formKept_whole (fun t => by simp) s
@[simp] theorem vstBeat_form {e w b t} (hs : KeepsForm μ t.tiers) :
    KeepsForm μ (vstBeat e w b t).tiers := by simp [vstBeat, hs]
@[simp] theorem execVst_formKept (eng s) : FormKept s (execVst eng s) :=
  formKept_whole (fun t => by simp) s
@[simp] theorem vaccBeat_form {e w b t} (hs : KeepsForm μ t.tiers) :
    KeepsForm μ (vaccBeat e w b t).tiers := by simp [vaccBeat, hs]
@[simp] theorem execVacc_formKept (eng s) : FormKept s (execVacc eng s) :=
  formKept_whole (fun t => by simp) s
@[simp] theorem vrsumBeat_form {e w b t} (hs : KeepsForm μ t.tiers) :
    KeepsForm μ (vrsumBeat e w b t).tiers := by simp [vrsumBeat, hs]
@[simp] theorem execVrsum_formKept (eng s) : FormKept s (execVrsum eng s) :=
  formKept_whole (fun t => by simp) s
@[simp] theorem ruleBeat_form {e w b t} (hs : KeepsForm μ t.tiers) :
    KeepsForm μ (ruleBeat e w b t).tiers := by simp [ruleBeat, hs]

/-! ## Machine/Engines.lean -/

@[simp] theorem engReject_form {e slot r} (hs : KeepsForm μ s.tiers) : KeepsForm μ (engReject e slot r s).tiers := by
  unfold engReject; dsimp only; split <;> simp [hs]
@[simp] theorem engAdmit_form {e at_ slot} (hs : KeepsForm μ s.tiers) : KeepsForm μ (engAdmit e at_ slot s).tiers := by
  simp [engAdmit, hs]
@[simp] theorem execEngineBatchStart_formKept (slot s) : FormKept s (execEngineBatchStart slot s) := by
  simp [execEngineBatchStart]
@[simp] theorem execEngineSubmit_formKept (eng value s) : FormKept s (execEngineSubmit eng value s) := by simp [execEngineSubmit]
@[simp] theorem writePort_form {e p} (hs : KeepsForm μ s.tiers) : KeepsForm μ (writePort e p s).tiers := by
  unfold writePort; dsimp only; (repeat' split) <;> simp [hs]
@[simp] theorem writeQuad_form {e} (hs : KeepsForm μ s.tiers) : KeepsForm μ (writeQuad e s).tiers := by simp [writeQuad, hs]
@[simp] theorem readStatus_form {e q} (hs : KeepsForm μ s.tiers) : KeepsForm μ (readStatus e q s).tiers := by
  unfold readStatus; dsimp only; split <;> simp [hs]
@[simp] theorem readQuad_form {e} (hs : KeepsForm μ s.tiers) : KeepsForm μ (readQuad e s).tiers := by simp [readQuad, hs]
theorem tryHalt_form {e t} (h : tryHalt e s = some t) (hs : KeepsForm μ s.tiers) : KeepsForm μ t.tiers := by
  unfold tryHalt at h; dsimp only at h
  (repeat' split at h) <;> simp at h <;> subst h <;> simp [hs]
@[simp] theorem execEngineFetch_formKept (eng s) : FormKept s (execEngineFetch eng s) := by
  refine formKept_whole (fun t => ?_) s
  dsimp only
  split
  · simp
  · split
    · simp
    · split
      · rename_i h; simp [tryHalt_form h (keepsForm_refl _)]
      · split <;> simp
@[simp] theorem execEngineBatchComplete_formKept (eng s) : FormKept s (execEngineBatchComplete eng s) := by
  simp [execEngineBatchComplete]
@[simp] theorem engHalt_form {e} (hs : KeepsForm μ s.tiers) : KeepsForm μ (engHalt e s).tiers := by
  unfold engHalt
  dsimp only
  split
  · exact hs
  · split
    · split
      · rename_i h; simpa using tryHalt_form h (by simpa using hs)
      · simpa using hs
    · simpa using hs
@[simp] theorem execEngineHalt_formKept (eng s) : FormKept s (execEngineHalt eng s) := by simp [execEngineHalt]
@[simp] theorem execEngineSave_formKept (eng s) : FormKept s (execEngineSave eng s) := by simp [execEngineSave]
@[simp] theorem execEngineRestore_formKept (eng s) : FormKept s (execEngineRestore eng s) := by simp [execEngineRestore]
@[simp] theorem resumeRepeats_form {l} (hs : KeepsForm μ s.tiers) :
    KeepsForm μ (resumeRepeats l s).tiers := by simp [resumeRepeats, hs]
@[simp] theorem deriveRun_form {e r} (hs : KeepsForm μ s.tiers) :
    KeepsForm μ (deriveRun e r s).tiers := by simp (disch := simp [hs]) [deriveRun]
@[simp] theorem execDerivePass_formKept (eng s) : FormKept s (execDerivePass eng s) := by
  refine formKept_whole (fun t => ?_) s
  dsimp only
  split <;> simp

/-! ## Machine/Random.lean -/

@[simp] theorem sourceFail_form (hs : KeepsForm μ s.tiers) : KeepsForm μ (sourceFail s).tiers := by simp [sourceFail, hs]
@[simp] theorem execNoiseBlock_formKept (samples s) : FormKept s (execNoiseBlock samples s) := by simp [execNoiseBlock]

/-! ## Machine/RegLook.lean -/

/-! ## Machine/Tick.lean -/

@[simp] theorem acceptSource_form {b} (hs : KeepsForm μ s.tiers) :
    KeepsForm μ (acceptSource b s).tiers := by simp [acceptSource, hs]
@[simp] theorem lockLost_form (hs : KeepsForm μ s.tiers) : KeepsForm μ (lockLost s).tiers := by simp [lockLost, hs]
@[simp] theorem compareSwitch_form {n announced at_ plan} (hs : KeepsForm μ s.tiers) :
    KeepsForm μ (compareSwitch n announced at_ plan s).tiers := by
  simp [compareSwitch, hs]
@[simp] theorem tickBeacon_form {b edge timed} (hs : KeepsForm μ s.tiers) : KeepsForm μ (tickBeacon b edge timed s).tiers := by
  unfold tickBeacon; dsimp only; (repeat' split) <;> simp [hs]
@[simp] theorem acceptBeacon_form {p b} (hs : KeepsForm μ s.tiers) : KeepsForm μ (acceptBeacon p b s).tiers := by
  unfold acceptBeacon; dsimp only; split <;> simp [hs]
@[simp] theorem execBeaconReceive_formKept (port msg at_ fwd replayed s) :
    FormKept s (execBeaconReceive port msg at_ fwd replayed s) := by
  simp [execBeaconReceive]
@[simp] theorem execLockLost_formKept (s) : FormKept s (execLockLost s) := by simp [execLockLost]
@[simp] theorem launchTick_form (hs : KeepsForm μ s.tiers) : KeepsForm μ (launchTick s).tiers := by simp [launchTick, hs]
@[simp] theorem execTakeover_formKept (s) : FormKept s (execTakeover s) := by simp [execTakeover]
@[simp] theorem takeNotice_form (hs : KeepsForm μ s.tiers) : KeepsForm μ (takeNotice s).tiers := by
  unfold takeNotice; dsimp only; (repeat' split) <;> simp [hs]
@[simp] theorem execLateNotice_formKept (port msg at_ s) : FormKept s (execLateNotice port msg at_ s) := by simp [execLateNotice]
@[simp] theorem abortShort_form {l} (hs : KeepsForm μ s.tiers) : KeepsForm μ (abortShort l s).tiers := by simp [abortShort, hs]
@[simp] theorem finalDeadline_form (hs : KeepsForm μ s.tiers) :
    KeepsForm μ (finalDeadline s).tiers := by simp [finalDeadline, hs]
@[simp] theorem execHoldRoundDeadline_formKept (s) : FormKept s (execHoldRoundDeadline s) := by simp [execHoldRoundDeadline]
@[simp] theorem edgeSlip_form {k ext} (hs : KeepsForm μ s.tiers) :
    KeepsForm μ (edgeSlip k ext s).tiers := by simp [edgeSlip, hs]
@[simp] theorem takeGrant_form {tick ext} (hs : KeepsForm μ s.tiers) :
    KeepsForm μ (takeGrant tick ext s).tiers := by simp [takeGrant, hs]
@[simp] theorem execHoldGrant_formKept (port msg at_ fwd s) : FormKept s (execHoldGrant port msg at_ fwd s) := by
  simp [execHoldGrant]
@[simp] theorem execVerdictAccept_formKept (port msg at_ fwd s) : FormKept s (execVerdictAccept port msg at_ fwd s) := by
  simp [execVerdictAccept]

/-! ## Machine/Boot.lean -/

@[simp] theorem enableParts_form {mask} (hs : KeepsForm μ s.tiers) :
    KeepsForm μ (enableParts mask s).2.tiers := by simp [enableParts, hs]
@[simp] theorem endImage_form {k} (hs : KeepsForm μ s.tiers) : KeepsForm μ (endImage k s).tiers := by
  unfold endImage
  extract_lets h l sec fw d s₁ s₂ s₃ s₄ s₅ s₆
  have h₄ : KeepsForm μ s₄.tiers := by simp [s₄, s₃, s₂, s₁, hs]
  have h₆ : KeepsForm μ s₆.tiers := by
    simp only [s₆]; split
    · exact h₄
    · simp [h₄, s₅]
  simp [h₆]
@[simp] theorem execCoreReady_formKept (core s) : FormKept s (execCoreReady core s) := by
  unfold execCoreReady; dsimp only; (repeat' split) <;> simp
@[simp] theorem logHandle_form {half fails acc x} (hs : KeepsForm μ acc.2.tiers) :
    KeepsForm μ (logHandle half fails acc x).2.tiers := by
  unfold logHandle
  dsimp only
  (repeat' split) <;> simp [hs]
@[simp] theorem rebuildRemaps_form {fails} (hs : KeepsForm μ s.tiers) : KeepsForm μ (rebuildRemaps fails s).tiers := by
  simp [rebuildRemaps, hs]
@[simp] theorem trainingFails_form {pcs chs lanes} (hs : KeepsForm μ s.tiers) :
    KeepsForm μ (trainingFails pcs chs lanes s).tiers := by
  simp (disch := simp [hs]) [trainingFails]
@[simp] theorem execMemoryReady_formKept (failedPc failedCh lanes repairFails s) :
    FormKept s (execMemoryReady failedPc failedCh lanes repairFails s) := by
  simp (disch := simp) [execMemoryReady]
@[simp] theorem forcedFault_form (hs : KeepsForm μ s.tiers) : KeepsForm μ (forcedFault s).tiers := by simp [forcedFault, hs]
@[simp] theorem copyRing_form (hs : KeepsForm μ s.tiers) : KeepsForm μ (copyRing s).tiers := by simp [copyRing, hs]
@[simp] theorem execReadyForPlan_formKept (s) : FormKept s (execReadyForPlan s) := by simp [execReadyForPlan]
@[simp] theorem execBootLate_formKept (s) : FormKept s (execBootLate s) := by simp [execBootLate]

/-! ## Machine/Claims.lean -/

@[simp] theorem execCoalesceExpiry_formKept (s) : FormKept s (execCoalesceExpiry s) := by
  unfold execCoalesceExpiry; split <;> simp

/-! ## Machine/Plan.lean -/

/-! ## Machine/HostCore.lean -/

/-! ## Machine/Matrix.lean -/

@[simp] theorem mxaLoad_form {a n size hint uses} (hs : KeepsForm μ s.tiers) :
    KeepsForm μ (mxaLoad a n size hint uses s).2.tiers := by simp [mxaLoad, hs]
@[simp] theorem mxaLoads_form {l n size hint uses} (hs : KeepsForm μ s.tiers) :
    KeepsForm μ (mxaLoads l n size hint uses s).2.tiers := by
  simp [mxaLoads, hs]
@[simp] theorem mxaStart_form {d x} (hs : KeepsForm μ s.tiers) : KeepsForm μ (mxaStart d x s).2.tiers := by simp [mxaStart, hs]
@[simp] theorem mxaWeights_form {d x} (hs : KeepsForm μ s.tiers) :
    KeepsForm μ (mxaWeights d x s).2.tiers := by simp [mxaWeights, hs]
@[simp] theorem mxaWrite_form {d x acc} (hs : KeepsForm μ s.tiers) : KeepsForm μ (mxaWrite d x acc s).tiers := by
  refine foldl_form (fun t r => ?_) hs
  dsimp only
  (repeat' split) <;> simp
@[simp] theorem mxaReject_form {source slot r} (hs : KeepsForm μ s.tiers) : KeepsForm μ (mxaReject source slot r s).tiers := by
  unfold mxaReject; split <;> simp [hs]
@[simp] theorem mxaTake_form {source slot d bad} (hs : KeepsForm μ s.tiers) :
    KeepsForm μ (mxaTake source slot d bad s).tiers := by simp [mxaTake, hs]
@[simp] theorem mxaAdmit_form {source desc slot} (hs : KeepsForm μ s.tiers) :
    KeepsForm μ (mxaAdmit source desc slot s).tiers := by simp [mxaAdmit, hs]
@[simp] theorem execMatrixJobStart_formKept (slot s) : FormKept s (execMatrixJobStart slot s) := by simp [execMatrixJobStart]
@[simp] theorem execMxaSubmit_formKept (value s) : FormKept s (execMxaSubmit value s) := by simp [execMxaSubmit]
@[simp] theorem mxaPass_form (hs : KeepsForm μ s.tiers) : KeepsForm μ (mxaPass s).tiers := by
  unfold mxaPass; split
  · exact hs
  · rename_i j _
    have loads {l ks n h u x} : KeepsForm μ (mxaLoads l ks n h u
        (mxaWeights j.desc x (if x.first = true then (mxaStart j.desc x s).2 else s)).2).2.tiers :=
      mxaLoads_form (mxaWeights_form (by split <;> simp [hs]))
    dsimp only; split
    · exact hs
    · simp [loads]
@[simp] theorem execMatrixPass_formKept (s) : FormKept s (execMatrixPass s) := by simp [execMatrixPass]
@[simp] theorem mxaPassMany_form {n} (hs : KeepsForm μ s.tiers) : KeepsForm μ (mxaPassMany n s).tiers := by
  fun_induction mxaPassMany <;> simp_all
@[simp] theorem mxaWhole_form {d} (hs : KeepsForm μ s.tiers) : KeepsForm μ (mxaWhole d s).2.tiers := by
  unfold mxaWhole; dsimp only; split <;> simp [hs]

/-! ## Machine/KvCore.lean -/

@[simp] theorem putNat_form {a n v} (hs : KeepsForm μ s.tiers) : KeepsForm μ (putNat a n v s).tiers := by simp [putNat, hs]
@[simp] theorem putSeq_form {d q opened grove tokens hash spans} (hs : KeepsForm μ s.tiers) :
    KeepsForm μ (putSeq d q opened grove tokens hash spans s).tiers := by
  simp [putSeq, hs]
@[simp] theorem putStab_form {d q n r} (hs : KeepsForm μ s.tiers) :
    KeepsForm μ (putStab d q n r s).tiers := by simp [putStab, hs]
@[simp] theorem setRefs_form {d r v} (hs : KeepsForm μ s.tiers) : KeepsForm μ (setRefs d r v s).tiers := by simp [setRefs, hs]
@[simp] theorem setRecState_form {d r v} (hs : KeepsForm μ s.tiers) :
    KeepsForm μ (setRecState d r v s).tiers := by simp [setRecState, hs]
@[simp] theorem stampRec_form {d r} (hs : KeepsForm μ s.tiers) : KeepsForm μ (stampRec d r s).tiers := by simp [stampRec, hs]
@[simp] theorem setPageRefs_form {d i v} (hs : KeepsForm μ s.tiers) :
    KeepsForm μ (setPageRefs d i v s).tiers := by simp [setPageRefs, hs]
@[simp] theorem putPage_form {p d r lp page} (hs : KeepsForm μ s.tiers) :
    KeepsForm μ (putPage p d r lp page s).tiers := by simp [putPage, hs]
@[simp] theorem mapPage_form {d q n lp page} (hs : KeepsForm μ s.tiers) : KeepsForm μ (mapPage d q n lp page s).tiers := by
  unfold mapPage; dsimp only; (repeat' split) <;> simp [hs]
@[simp] theorem mapRecord_form {d q n r} (hs : KeepsForm μ s.tiers) :
    KeepsForm μ (mapRecord d q n r s).tiers := by simp [mapRecord, hs]
@[simp] theorem unmapRecord_form {d q n r} (hs : KeepsForm μ s.tiers) :
    KeepsForm μ (unmapRecord d q n r s).tiers := by simp [unmapRecord, hs]
@[simp] theorem setFreeCount_form {p d v} (hs : KeepsForm μ s.tiers) :
    KeepsForm μ (setFreeCount p d v s).tiers := by simp [setFreeCount, hs]
@[simp] theorem kvTakePage_form {p d} (hs : KeepsForm μ s.tiers) :
    KeepsForm μ (kvTakePage p d s).2.tiers := by simp [kvTakePage, hs]
@[simp] theorem dropPage_form {p d i} (hs : KeepsForm μ s.tiers) :
    KeepsForm μ (dropPage p d i s).tiers := by simp (disch := simp [hs]) [dropPage]
@[simp] theorem copyPage_form {d i j} (hs : KeepsForm μ s.tiers) :
    KeepsForm μ (copyPage d i j s).tiers := by simp [copyPage, hs]
@[simp] theorem groveRemove_form {d r} (hs : KeepsForm μ s.tiers) : KeepsForm μ (groveRemove d r s).tiers := by
  unfold groveRemove
  split
  · exact hs
  · exact each_form (fun h t => by split <;> simp) hs
@[simp] theorem emptyRecord_form {p d r} (hs : KeepsForm μ s.tiers) :
    KeepsForm μ (emptyRecord p d r s).tiers := by simp (disch := simp [hs]) [emptyRecord]
@[simp] theorem unrefRecord_form {p d r} (hs : KeepsForm μ s.tiers) : KeepsForm μ (unrefRecord p d r s).tiers := by
  unfold unrefRecord; dsimp only; split
  · simp [hs]
  · exact setRecState_form (emptyRecord_form (groveRemove_form (setRefs_form hs)))
@[simp] theorem dropRecord_form {p d r} (hs : KeepsForm μ s.tiers) : KeepsForm μ (dropRecord p d r s).tiers := by
  simp [dropRecord, setRecState_form (emptyRecord_form (unmapRecord_form (groveRemove_form hs)))]
@[simp] theorem makeRoom_form {p d qs need n} (hs : KeepsForm μ s.tiers) : KeepsForm μ (makeRoom p d qs need n s).2.tiers := by
  fun_induction makeRoom <;> simp_all
@[simp] theorem newRecord_form {d q n r} (hs : KeepsForm μ s.tiers) :
    KeepsForm μ (newRecord d q n r s).tiers := by simp (disch := simp [hs]) [newRecord]
@[simp] theorem kvRecord_form {p d q n anew} (hs : KeepsForm μ s.tiers) : KeepsForm μ (writeRecord_ p d q n anew s).tiers := by
  unfold writeRecord_; split
  · simp [hs]
  · dsimp only; split
    · simp [hs]
    · split
      · have k {l : List (Nat × Nat)} {r} : KeepsForm μ (State.each l (fun x t =>
            setPageRefs d x.2 (pageRefs t d x.2 + 1) (putPage p d r x.1 (some x.2) t)) (newRecord d q n r s)).tiers :=
          each_form (fun x t => by simp) (newRecord_form hs)
        simp [k]
      · exact hs
  · exact hs
@[simp] theorem writePage_form {p d q n lp} (hs : KeepsForm μ s.tiers) : KeepsForm μ (writePage p d q n lp s).tiers := by
  have taken := kvTakePage_form (p := p) (d := d) hs
  unfold writePage
  generalize kvTakePage p d s = x at taken ⊢
  generalize List.replicate 65536 0 = zeros
  split
  · exact hs
  · split
    · refine mapPage_form (putPage_form ?_)
      split
      · exact store_form taken
      · exact taken
    · split
      · exact hs
      · exact setPageRefs_form (mapPage_form (putPage_form (copyPage_form taken)))
@[simp] theorem pageOf_form {p d q n lp write} (hs : KeepsForm μ s.tiers) :
    KeepsForm μ (pageOf p d q n lp write s).2.tiers := by
  unfold pageOf; split <;> simp [hs]
@[simp] theorem firstFault_form {d q l write} (hs : KeepsForm μ s.tiers) : KeepsForm μ (firstFault d q l write s).2.tiers := by
  unfold firstFault; split
  · exact hs
  · refine foldl_snd_form (fun x a => ?_) hs
    split
    · simp
    · dsimp only; split <;> simp
@[simp] theorem touchMeta_form {d q t n} (hs : KeepsForm μ s.tiers) : KeepsForm μ (touchMeta d q t n s).tiers :=
  each_form (fun k t => by split <;> simp) hs
@[simp] theorem bufRead_form {a n} (hs : KeepsForm μ s.tiers) : KeepsForm μ (bufRead a n s).2.tiers := by simp [bufRead, hs]
@[simp] theorem bufWrite_form {a bf16 l} (hs : KeepsForm μ s.tiers) : KeepsForm μ (bufWrite a bf16 l s).tiers := by
  unfold bufWrite; dsimp only; split <;> simp [hs]
@[simp] theorem ropeProgram_form {e n m} (hs : KeepsForm μ s.tiers) : KeepsForm μ (ropeProgram e n m s).tiers := by
  fun_induction ropeProgram <;> simp_all
@[simp] theorem rotate_form {d e pos l} (hs : KeepsForm μ s.tiers) :
    KeepsForm μ (rotate d e pos l s).2.tiers := by simp (disch := simp [hs]) [rotate]
@[simp] theorem loadRun_form {p d q layer head kind run} (hs : KeepsForm μ s.tiers) :
    KeepsForm μ (loadRun p d q layer head kind run s).2.tiers := by
  unfold loadRun; dsimp only; split <;> simp [hs]
@[simp] theorem expandRun_form {p d q layer j e base run} (hs : KeepsForm μ s.tiers) :
    KeepsForm μ (expandRun p d q layer j e base run s).2.tiers := by
  unfold expandRun; dsimp only; split <;> simp (disch := simp [hs])
@[simp] theorem loadKv_form {p d q layer j e t n} (hs : KeepsForm μ s.tiers) :
    KeepsForm μ (loadKv p d q layer j e t n s).2.tiers := by
  refine foldl_snd_form (fun x run => ?_) hs
  dsimp only; split
  · simp
  · exact foldl_snd_form (fun y h => by simp) (keepsForm_refl _)
@[simp] theorem kvChecked_form {d w r f} (h : KeepsForm μ (f s).2.tiers) (hs : KeepsForm μ s.tiers) :
    KeepsForm μ (kvChecked d w r f s).2.tiers := by
  unfold kvChecked; dsimp only; (repeat' split) <;> simp [h, hs]

/-! ## Machine/Kv.lean -/

@[simp] theorem execPoolLoad_formKept (pool s) : FormKept s (execPoolLoad pool s) := by simp [execPoolLoad]
@[simp] theorem winOpen_form {i p b bad} (hs : KeepsForm μ s.tiers) :
    KeepsForm μ (winOpen i p b bad s).tiers := by simp [winOpen, hs]
@[simp] theorem execKvWindowStart_formKept (slot s) : FormKept s (execKvWindowStart slot s) := by
  simp (disch := simp) [execKvWindowStart]
@[simp] theorem execKvRequestAccept_formKept (pool s) : FormKept s (execKvRequestAccept pool s) := by
  refine formKept_whole (fun t => ?_) s
  dsimp only
  split <;> simp
@[simp] theorem kvComplete_form {p r x} (hs : KeepsForm μ s.tiers) :
    KeepsForm μ (kvComplete p r x s).tiers := by simp [kvComplete, hs]
@[simp] theorem kvRetryAll_form {p} (hs : KeepsForm μ s.tiers) : KeepsForm μ (kvRetryAll p s).tiers := by
  unfold kvRetryAll; split <;> simp [hs]
@[simp] theorem kvStamp_form {d r} (hs : KeepsForm μ s.tiers) : KeepsForm μ (kvStamp d r s).tiers := by simp [kvStamp, hs]
@[simp] theorem kvRun_form {op p f} (h : ∀ d w r t, KeepsForm (State.tiers t) (f d w r t).2.tiers) (hs : KeepsForm μ s.tiers) :
    KeepsForm μ (kvRun op p f s).tiers := by
  have k {d w r t} (ht : KeepsForm μ (State.tiers t)) :
      KeepsForm μ (kvChecked d w r (fun s => f d w r (kvStamp d r s)) t).2.tiers :=
    kvChecked_form (KeepsForm.trans (by simp [ht]) (h _ _ _ _)) ht
  unfold kvRun; dsimp only; (repeat' split) <;> simp [k, hs]
@[simp] theorem nameRecord_form {d q n r} (hs : KeepsForm μ s.tiers) : KeepsForm μ (nameRecord d q n r s).tiers :=
  mapRecord_form (setRefs_form (putStab_form (stampRec_form hs)))
@[simp] theorem kvOpenDo_form {d r} (hs : KeepsForm μ s.tiers) :
    KeepsForm μ (kvOpenDo d r s).2.tiers := by simp (disch := simp [hs]) [kvOpenDo]
@[simp] theorem execKvOpen_formKept (pool s) : FormKept s (execKvOpen pool s) := by simp (disch := simp) [execKvOpen]
@[simp] theorem kvForkDo_form {d r} (hs : KeepsForm μ s.tiers) : KeepsForm μ (kvForkDo d r s).2.tiers := by
  unfold kvForkDo; dsimp only
  exact putSeq_form (foldl_form (fun t k => by split <;> simp) hs)
@[simp] theorem execFork_formKept (pool s) : FormKept s (execFork pool s) := by simp (disch := simp) [execFork]
@[simp] theorem kvReleaseDo_form {p d r} (hs : KeepsForm μ s.tiers) : KeepsForm μ (kvReleaseDo p d r s).2.tiers := by
  unfold kvReleaseDo; dsimp only
  exact putSeq_form (each_form
    (fun _ _ => putStab_form (unrefRecord_form (unmapRecord_form (stampRec_form (keepsForm_refl _))))) hs)
@[simp] theorem execRelease_formKept (pool s) : FormKept s (execRelease pool s) := by simp (disch := simp) [execRelease]
@[simp] theorem kvPrepare_form {p d r} (hs : KeepsForm μ s.tiers) : KeepsForm μ (kvPrepare p d r s).2.tiers := by
  unfold kvPrepare
  extract_lets q pages ns anew fresh need recs
  split
  · exact hs
  · have hm := makeRoom_form (p := p) (d := d) (qs := [q]) (need := need) (n := kvSpanMax d) hs
    split
    rename_i ok t e
    rw [e] at hm
    split
    · exact hm
    · have hf := firstFault_form (d := d) (q := q) (l := pages) (write := true) hm
      split <;> rename_i e <;> rw [e] at hf <;> dsimp only at hf
      · exact hf
      · exact each_form (fun x t => by simp) (each_form (fun x t => by simp) hf)
@[simp] theorem appendMeta_form {d r again} (hs : KeepsForm μ s.tiers) : KeepsForm μ (appendMeta d r again s).tiers := by
  unfold appendMeta
  extract_lets q t0 n metaPage t
  have ht : KeepsForm μ t.tiers := by simp [t, hs]
  clear_value t metaPage
  split
  · exact ht
  · dsimp only; split <;> simp (disch := simp [ht])
@[simp] theorem writeVec_form {p d q layer head kind t l} (hs : KeepsForm μ s.tiers) :
    KeepsForm μ (writeVec p d q layer head kind t l s).tiers := by
  unfold writeVec; dsimp only; split <;> simp [hs]
@[simp] theorem groveInsert_form {p d q b} (hs : KeepsForm μ s.tiers) : KeepsForm μ (groveInsert p d q b s).tiers := by
  unfold groveInsert; dsimp only; (repeat' split) <;> simp [hs]
@[simp] theorem appendLayer_form {p d w r} (hs : KeepsForm μ s.tiers) : KeepsForm μ (appendLayer p d w r s).2.tiers := by
  unfold appendLayer
  extract_lets q layer e heads dim
  split
  rename_i bad t h
  have ht : KeepsForm μ t.tiers := by
    refine (congrArg (fun x => KeepsForm μ x.2.tiers) h).mp
      (foldl_snd_form (fun y i => foldl_snd_form (fun z j => ?_) (keepsForm_refl _)) hs)
    have k {a n pos l} : KeepsForm z.2.tiers (rotate d e pos l (bufRead a n z.2).2).2.tiers := by simp
    have key {a n t v} : KeepsForm z.2.tiers (writeVec p d q layer j 0 t v (bufRead a n z.2).2).tiers := by simp
    have keyTurned {n a pos l t v} : KeepsForm z.2.tiers
        (writeVec p d q layer j 0 t v (rotate d e pos l (bufRead a n z.2).2).2).tiers := by simp [k]
    dsimp only; (repeat' split) <;> simp [key, keyTurned]
  dsimp only; split <;> simp [ht]
@[simp] theorem kvAppendDo_form {p d w r} (hs : KeepsForm μ s.tiers) : KeepsForm μ (kvAppendDo p d w r s).2.tiers := by
  have k := kvPrepare_form (p := p) (d := d) (r := r) hs
  unfold kvAppendDo
  dsimp only
  split <;> rename_i e <;> rw [e] at k <;> dsimp only at k
  · exact k
  · split <;> simp [k]
@[simp] theorem execAppend_formKept (pool s) : FormKept s (execAppend pool s) := by simp (disch := simp) [execAppend]
@[simp] theorem loadQueries_form {d e r} (hs : KeepsForm μ s.tiers) : KeepsForm μ (loadQueries d e r s).2.tiers := by
  unfold loadQueries; dsimp only
  refine foldl_snd_form (fun x i => ?_) hs
  refine foldl_snd_form (fun y h => ?_) (keepsForm_refl _)
  dsimp only; split <;> simp
@[simp] theorem loadSeq_form {p d w q layer} (hs : KeepsForm μ s.tiers) :
    KeepsForm μ (loadSeq p d w q layer s).2.tiers := by simp [loadSeq, hs]
@[simp] theorem kvMapped_form {f} (h : ∀ d w r t, KeepsForm (State.tiers t) (f d w r t).2.tiers) {d w r}
    (hs : KeepsForm μ s.tiers) : KeepsForm μ (kvMapped f d w r s).2.tiers := by
  have k := firstFault_form (d := d) (q := rqSeq r) (l := rqPages s d r) (write := false) hs
  unfold kvMapped
  split <;> rename_i e <;> rw [e] at k
  · exact k
  · exact k.trans (h d w r _)
@[simp] theorem kvAttendDo_form {p d w r} (hs : KeepsForm μ s.tiers) : KeepsForm μ (kvAttendDo p d w r s).2.tiers := by
  have load {e q l} : KeepsForm μ (loadSeq p d w q l (loadQueries d e r s).2).2.tiers := by simp [hs]
  unfold kvAttendDo; dsimp only; split <;> simp [load]
@[simp] theorem execAttend_formKept (pool s) : FormKept s (execAttend pool s) :=
  formKept_whole (fun _ => formKept_done.mpr (kvRun_form (fun _ _ _ _ =>
    kvMapped_form (fun _ _ _ _ => kvAttendDo_form (keepsForm_refl _)) (keepsForm_refl _)) (keepsForm_refl _))) s
@[simp] theorem outRead_form {bf16 a n} (hs : KeepsForm μ s.tiers) :
    KeepsForm μ (outRead bf16 a n s).2.tiers := by simp [outRead, hs]
@[simp] theorem kvBackDo_form {p d w r} (hs : KeepsForm μ s.tiers) : KeepsForm μ (kvBackDo p d w r s).2.tiers := by
  unfold kvBackDo; dsimp only
  exact bufWrite_form (bufWrite_form (bufWrite_form (outRead_form (outRead_form (bufRead_form (bufRead_form
    (loadSeq_form (loadQueries_form hs))))))))
@[simp] theorem execAttendBwd_formKept (pool s) : FormKept s (execAttendBwd pool s) :=
  formKept_whole (fun _ => formKept_done.mpr (kvRun_form (fun _ _ _ _ =>
    kvMapped_form (fun _ _ _ _ => kvBackDo_form (keepsForm_refl _)) (keepsForm_refl _)) (keepsForm_refl _))) s
@[simp] theorem kvReadDo_form {p d w r} (hs : KeepsForm μ s.tiers) : KeepsForm μ (kvReadDo p d w r s).2.tiers :=
  bufWrite_form (bufWrite_form (foldl_snd_form (fun x i => by simp) hs))
@[simp] theorem execKvRead_formKept (pool s) : FormKept s (execKvRead pool s) :=
  formKept_whole (fun _ => formKept_done.mpr (kvRun_form (fun _ _ _ _ =>
    kvMapped_form (fun _ _ _ _ => kvReadDo_form (keepsForm_refl _)) (keepsForm_refl _)) (keepsForm_refl _))) s

/-! ## Machine/Module.lean -/

@[simp] theorem powerOff_form : KeepsForm μ (powerOff s).tiers := ⟨fun _ => rfl⟩
@[simp] theorem execPresenceLost_formKept (s) : FormKept s (execPresenceLost s) := by simp [execPresenceLost]
@[simp] theorem execTrip_formKept (cause s) : FormKept s (execTrip cause s) := by simp [execTrip]
@[simp] theorem execVinLow_formKept (volts amps s) : FormKept s (execVinLow volts amps s) := by simp [execVinLow]
@[simp] theorem execCoolLoss_formKept (s) : FormKept s (execCoolLoss s) := by simp [execCoolLoss]
@[simp] theorem execLeak_formKept (s) : FormKept s (execLeak s) := by simp [execLeak]
@[simp] theorem execLossOfSignal_formKept (port canRetrain s) : FormKept s (execLossOfSignal port canRetrain s) := by
  simp [execLossOfSignal]

/-! ## Machine/Power.lean -/

@[simp] theorem sendLateNotice_form (hs : KeepsForm μ s.tiers) : KeepsForm μ (sendLateNotice s).tiers := by
  unfold sendLateNotice; dsimp only; split <;> simp [hs]
@[simp] theorem enterCritical_form {st} (hs : KeepsForm μ s.tiers) :
    KeepsForm μ (enterCritical st s).tiers := by simp [enterCritical, hs]
@[simp] theorem setClass_form {st k} (hs : KeepsForm μ s.tiers) : KeepsForm μ (setClass st k s).tiers := by simp [setClass, hs]
@[simp] theorem execTempRead_formKept (stack reading s) : FormKept s (execTempRead stack reading s) := by
  unfold execTempRead; split <;> simp
@[simp] theorem quiesceChans_form {p} (hs : KeepsForm μ s.tiers) :
    KeepsForm μ (quiesceChans p s).tiers := by simp [quiesceChans, hs]
@[simp] theorem execStackSelfRefresh_formKept (stack s) : FormKept s (execStackSelfRefresh stack s) := by
  simp [execStackSelfRefresh]
@[simp] theorem execThrottleUpdate_formKept (pMs pS dieMax iin s) : FormKept s (execThrottleUpdate pMs pS dieMax iin s) := by
  simp [execThrottleUpdate]
@[simp] theorem telRing_form {r} (hs : KeepsForm μ s.tiers) : KeepsForm μ (telRing r s).tiers := by simp [telRing, hs]
@[simp] theorem telemetryRecord_form {tick unlocked tel} (hs : KeepsForm μ s.tiers) :
    KeepsForm μ (telemetryRecord tick unlocked tel s).tiers := by
  simp [telemetryRecord, hs]
@[simp] theorem execTelemetryInterval_formKept (tel s) : FormKept s (execTelemetryInterval tel s) := by
  simp [execTelemetryInterval]
@[simp] theorem p1Enter_form (hs : KeepsForm μ s.tiers) : KeepsForm μ (p1Enter s).tiers := by simp [p1Enter, hs]
@[simp] theorem p1Leave_form (hs : KeepsForm μ s.tiers) : KeepsForm μ (p1Leave s).tiers := by simp [p1Leave, hs]
@[simp] theorem execPstateDone_formKept (s) : FormKept s (execPstateDone s) := by simp [execPstateDone]

/-! ## Machine/Streams.lean -/

@[simp] theorem strReject_form {c i r} (hs : KeepsForm μ s.tiers) :
    KeepsForm μ (strReject c i r s).tiers := by simp [strReject, hs]
@[simp] theorem strFetch_form {c at_} (hs : KeepsForm μ s.tiers) :
    KeepsForm μ (strFetch c at_ s).2.2.2.tiers := by simp [strFetch, hs]
@[simp] theorem strStart_form {c i at_} (hs : KeepsForm μ s.tiers) :
    KeepsForm μ (strStart c i at_ s).tiers := by simp [strStart, hs]
@[simp] theorem execStreamBatchStart_formKept (slot s) : FormKept s (execStreamBatchStart slot s) := by
  simp [execStreamBatchStart]
@[simp] theorem execStreamNop_formKept (ctx s) : FormKept s (execStreamNop ctx s) := by simp [execStreamNop]
@[simp] theorem execMovi_formKept (ctx s) : FormKept s (execMovi ctx s) := by simp [execMovi]
@[simp] theorem execStreamAdd_formKept (ctx s) : FormKept s (execStreamAdd ctx s) := by simp [execStreamAdd]
@[simp] theorem execAddi_formKept (ctx s) : FormKept s (execAddi ctx s) := by simp [execAddi]
@[simp] theorem execMuli_formKept (ctx s) : FormKept s (execMuli ctx s) := by simp [execMuli]
@[simp] theorem execLd64_formKept (ctx s) : FormKept s (execLd64 ctx s) := by
  refine formKept_whole (fun t => formKept_done.mpr (strStep_form (fun w t => ?_) (keepsForm_refl _))) s
  have k {a va} : KeepsForm t.tiers (useRead (64 + ctx.val) a 8 0 0 (strRange ctx.val false va 8 t).2.2).2.2.2.tiers := by simp
  dsimp only
  (repeat' split) <;> simp [k]
@[simp] theorem execSetl_formKept (ctx s) : FormKept s (execSetl ctx s) := by simp [execSetl]
@[simp] theorem execSetlr_formKept (ctx s) : FormKept s (execSetlr ctx s) := by simp [execSetlr]
@[simp] theorem execEndl_formKept (ctx s) : FormKept s (execEndl ctx s) := by simp [execEndl]
@[simp] theorem execEmit_formKept (ctx s) : FormKept s (execEmit ctx s) := by
  refine formKept_done.mpr (strStep_form (fun w t => ?_) (keepsForm_refl _))
  dsimp only
  (repeat' split) <;> simp
@[simp] theorem execEmitw_formKept (ctx s) : FormKept s (execEmitw ctx s) := by
  refine formKept_done.mpr (strStep_form (fun w t => ?_) (keepsForm_refl _))
  dsimp only
  (repeat' split) <;> simp
@[simp] theorem execLayer_formKept (ctx s) : FormKept s (execLayer ctx s) := by simp [execLayer]
@[simp] theorem execRlf_formKept (ctx s) : FormKept s (execRlf ctx s) := by simp [execRlf]
@[simp] theorem execStreamEnd_formKept (ctx s) : FormKept s (execStreamEnd ctx s) := by simp [execStreamEnd]
@[simp] theorem readLines_form {c hint uses d l} (hs : KeepsForm μ s.tiers) :
    KeepsForm μ (readLines c hint uses d l s).2.2.2.tiers := by
  simp [readLines, hs]
@[simp] theorem execTileReady_formKept (ctx ue s) : FormKept s (execTileReady ctx ue s) := by
  refine formKept_whole (fun t => ?_) s
  have k {va n h u d as} : KeepsForm t.tiers (readLines ctx h u d as (strRange ctx false va n t).2.2).2.2.2.tiers := by simp
  dsimp only
  (repeat' split) <;> simp [k]
@[simp] theorem execOutputTileCommit_formKept (ctx s) : FormKept s (execOutputTileCommit ctx s) := by
  refine formKept_whole (fun t => ?_) s
  dsimp only
  split
  · simp
  · simp
@[simp] theorem execPageMigration_formKept (ctx s) : FormKept s (execPageMigration ctx s) := by
  refine formKept_whole (fun t => ?_) s
  have k {a b n p v} : KeepsForm t.tiers (store nodeReq p v (copyRange nodeReq a b n t)).tiers := by simp
  dsimp only
  (repeat' split) <;> simp [k]
@[simp] theorem strRefetch_form {c} (hs : KeepsForm μ s.tiers) :
    KeepsForm μ (strRefetch c s).2.tiers := by simp [strRefetch, hs]
@[simp] theorem execStreamResume_formKept (ctx s) : FormKept s (execStreamResume ctx s) := by simp [execStreamResume]
@[simp] theorem execContextSave_formKept (ctx s) : FormKept s (execContextSave ctx s) := by simp [execContextSave]
@[simp] theorem execContextRestore_formKept (ctx s) : FormKept s (execContextRestore ctx s) := by simp [execContextRestore]
@[simp] theorem execWaitforTrace_formKept (ctx s) : FormKept s (execWaitforTrace ctx s) := by
  unfold execWaitforTrace
  dsimp only
  (repeat' split) <;> simp

/-! ## Machine/Resets.lean -/

@[simp] theorem kvReset_form (hs : KeepsForm μ s.tiers) : KeepsForm μ (kvReset s).tiers := by simp [kvReset, hs]
@[simp] theorem computeClear_form (hs : KeepsForm μ s.tiers) : KeepsForm μ (computeClear s).tiers := by simp [computeClear, hs]
@[simp] theorem computeWork_form {kind late ns} (hs : KeepsForm μ s.tiers) :
    KeepsForm μ (computeWork kind late ns s).tiers := by simp [computeWork, hs]
@[simp] theorem planWork_form (hs : KeepsForm μ s.tiers) :
    KeepsForm μ (planWork s).tiers := by simp (disch := simp [hs]) [planWork]
@[simp] theorem lowReset_form {kind source late ns} (hs : KeepsForm μ s.tiers) :
    KeepsForm μ (lowReset kind source late ns s).tiers := by
  simp [lowReset, hs]
@[simp] theorem cacheFlush_form (hs : KeepsForm μ s.tiers) : KeepsForm μ (cacheFlush s).tiers := by simp [cacheFlush, hs]
@[simp] theorem tiersRest_form (hs : KeepsForm μ s.tiers) : KeepsForm μ (tiersRest s).tiers := by simp [tiersRest, hs]
@[simp] theorem moduleReset_form {source late cacheLate} (hs : KeepsForm μ s.tiers) :
    KeepsForm μ (moduleReset source late cacheLate s).tiers := by
  simp (disch := simp [hs]) [moduleReset, hs]
@[simp] theorem execResetForced_formKept (at_ s) : FormKept s (execResetForced at_ s) := by
  unfold execResetForced; dsimp only; (repeat' split) <;> simp
@[simp] theorem rstWrite_form {v source late cacheLate ns} (hs : KeepsForm μ s.tiers) :
    KeepsForm μ (rstWrite v source late cacheLate ns s).tiers := by
  unfold rstWrite; (repeat' split) <;> simp [hs]
@[simp] theorem execModuleReset_formKept (key fabric late cacheLate s) :
    FormKept s (execModuleReset key fabric late cacheLate s) := by
  simp [execModuleReset]
@[simp] theorem execComputeReset_formKept (key fabric late ns s) : FormKept s (execComputeReset key fabric late ns s) := by
  simp [execComputeReset]
@[simp] theorem execPlanReset_formKept (key fabric s) : FormKept s (execPlanReset key fabric s) := by simp [execPlanReset]
@[simp] theorem execPerst_formKept (vinOk at_ late cacheLate s) : FormKept s (execPerst vinOk at_ late cacheLate s) := by
  simp [execPerst]
@[simp] theorem enterP2_form (hs : KeepsForm μ s.tiers) :
    KeepsForm μ (enterP2 s).tiers := by simp (disch := simp [hs]) [enterP2]

/-! ## Machine/FabMgmt.lean -/

@[simp] theorem noRoute_form {arr pkt} (hs : KeepsForm μ s.tiers) : KeepsForm μ (noRoute arr pkt s).tiers := by
  unfold noRoute; dsimp only; (repeat' split) <;> simp [hs]
@[simp] theorem forward_form {arr pkt} (hs : KeepsForm μ s.tiers) : KeepsForm μ (forward arr pkt s).tiers := by
  unfold forward; (repeat' split) <;> simp [hs]
@[simp] theorem execPacketForward_formKept (port pkt s) : FormKept s (execPacketForward port pkt s) := by
  unfold execPacketForward; dsimp only; (repeat' split) <;> simp
@[simp] theorem response_form {op port pkt} (hs : KeepsForm μ s.tiers) : KeepsForm μ (response op port pkt s).tiers := by
  unfold response; dsimp only; (repeat' split) <;> simp [hs]
@[simp] theorem execReadData_formKept (port pkt s) : FormKept s (execReadData port pkt s) := by simp [execReadData]
@[simp] theorem execWriteAck_formKept (port pkt s) : FormKept s (execWriteAck port pkt s) := by simp [execWriteAck]
@[simp] theorem execAtomicAck_formKept (port pkt s) : FormKept s (execAtomicAck port pkt s) := by simp [execAtomicAck]
@[simp] theorem execRequestTimeout_formKept (tag s) : FormKept s (execRequestTimeout tag s) := by
  unfold execRequestTimeout; split <;> simp
@[simp] theorem execJoinRefuse_formKept (pkt s) : FormKept s (execJoinRefuse pkt s) := by simp [execJoinRefuse]
@[simp] theorem execDetachRequestsDrained_formKept (s) : FormKept s (execDetachRequestsDrained s) := by
  simp [execDetachRequestsDrained]
@[simp] theorem execFabricReset_formKept (pkt late ns s) : FormKept s (execFabricReset pkt late ns s) := by simp [execFabricReset]

/-! ## Machine/Register.lean -/

@[simp] theorem elvWrite_form {p o x} (hs : KeepsForm μ s.tiers) :
    KeepsForm μ (elvWrite p o x s).tiers := by simp [elvWrite, hs]
@[simp] theorem calWrite_form {o x old} (hs : KeepsForm μ s.tiers) :
    KeepsForm μ (calWrite o x old s).tiers := by simp [calWrite, hs]
@[simp] theorem chanWrite_form {c o x} (hs : KeepsForm μ s.tiers) :
    KeepsForm μ (chanWrite c o x s).tiers := by simp [chanWrite, hs]
@[simp] theorem careWrite_form {k o x} (hs : KeepsForm μ s.tiers) : KeepsForm μ (careWrite k o x s).tiers := by
  unfold careWrite; split <;> simp [hs]
@[simp] theorem rlgWrite_form {o x} (hs : KeepsForm μ s.tiers) : KeepsForm μ (rlgWrite o x s).tiers := by
  unfold rlgWrite; (repeat' split) <;> simp [hs]
@[simp] theorem strWrite_form {c o x} (hs : KeepsForm μ s.tiers) : KeepsForm μ (strWrite c o x s).tiers := by
  unfold strWrite
  extract_lets ctx t u v
  split
  · have ht : KeepsForm μ t.tiers := by simp only [t]; split <;> simp [hs]
    have hu : KeepsForm μ u.tiers := by simp only [u]; split <;> simp [ht]
    have hv : KeepsForm μ v.tiers := by simp only [v]; split <;> simp [hu]
    split <;> simp [hv]
  · exact hs
@[simp] theorem upeWrite_form {e o x} (hs : KeepsForm μ s.tiers) : KeepsForm μ (upeWrite e o x s).tiers := by
  unfold upeWrite
  extract_lets eng t u
  split
  · have ht : KeepsForm μ t.tiers := by simp only [t]; split <;> simp [hs]
    have hu : KeepsForm μ u.tiers := by simp only [u]; split <;> simp [ht]
    split <;> simp [hu]
  · split <;> simp [hs]
@[simp] theorem kvsWrite_form {o x} (hs : KeepsForm μ s.tiers) : KeepsForm μ (kvsWrite o x s).tiers := by
  unfold kvsWrite; split <;> simp [hs]
theorem ownWrite_form {o x t} (h : ownWrite o x s = some t) (hs : KeepsForm μ s.tiers) : KeepsForm μ t.tiers := by
  unfold ownWrite at h; dsimp only at h
  (repeat' split at h) <;> simp at h <;> subst h <;> simp [hs]
@[simp] theorem regEffect_form {src o x t} (hs : KeepsForm μ s.tiers) :
    KeepsForm μ (regEffect src o x t s).tiers := by simp [regEffect, hs]
@[simp] theorem regStore_form {src r lo n v} (hs : KeepsForm μ s.tiers) : KeepsForm μ (regStore src r lo n v s).tiers := by
  unfold regStore
  dsimp only
  split
  · rename_i h; exact ownWrite_form h hs
  · simp [hs]
@[simp] theorem serveRequest_form {op port pkt f} (h : ∀ t, KeepsForm (State.tiers t) (f t).2.2.tiers)
    (hs : KeepsForm μ s.tiers) : KeepsForm μ (serveRequest op port pkt f s).tiers := by
  have k : KeepsForm μ (f (take port pkt s)).2.2.tiers := KeepsForm.trans (by simpa using hs) (h _)
  unfold serveRequest; dsimp only; (repeat' split) <;> simp [hs, k]
@[simp] theorem wordWrite_form {src o v} (hs : KeepsForm μ s.tiers) : KeepsForm μ (wordWrite src o v s).tiers := by
  unfold wordWrite; (repeat' split) <;> simp [hs]
@[simp] theorem wordsWrite_form {src n m l} (hs : KeepsForm μ s.tiers) : KeepsForm μ (wordsWrite src n m l s).tiers := by
  fun_induction wordsWrite <;> simp_all
@[simp] theorem barWrite_form {src o bs} (hs : KeepsForm μ s.tiers) :
    KeepsForm μ (barWrite src o bs s).tiers := by simp [barWrite, hs]
@[simp] theorem execRegisterWrite_formKept (off data s) : FormKept s (execRegisterWrite off data s) := by simp [execRegisterWrite]

/-! ## Machine/FabServe.lean -/

@[simp] theorem doRead_form {pkt} (hs : KeepsForm μ s.tiers) : KeepsForm μ (doRead pkt s).2.2.tiers := by simp [doRead, hs]
@[simp] theorem doWrite_form {pkt} (hs : KeepsForm μ s.tiers) : KeepsForm μ (doWrite pkt s).2.2.tiers := by simp [doWrite, hs]
@[simp] theorem doAtomic_form {pkt} (hs : KeepsForm μ s.tiers) :
    KeepsForm μ (doAtomic pkt s).2.2.tiers := by simp [doAtomic, hs]
@[simp] theorem execRead_formKept (port pkt s) : FormKept s (execRead port pkt s) :=
  formKept_whole (fun t => formKept_done.mpr (serveRequest_form (fun t => by simp) (keepsForm_refl _))) s
@[simp] theorem execWrite_formKept (port pkt s) : FormKept s (execWrite port pkt s) :=
  formKept_whole (fun t => formKept_done.mpr (serveRequest_form (fun t => by simp) (keepsForm_refl _))) s
@[simp] theorem execAtomicAdd_formKept (port pkt s) : FormKept s (execAtomicAdd port pkt s) :=
  formKept_whole (fun t => formKept_done.mpr (serveRequest_form (fun t => by simp) (keepsForm_refl _))) s
@[simp] theorem execFetchAdd_formKept (port pkt s) : FormKept s (execFetchAdd port pkt s) :=
  formKept_whole (fun t => formKept_done.mpr (serveRequest_form (fun t => by simp) (keepsForm_refl _))) s

/-! ## Machine/HostPort.lean -/

@[simp] theorem queueReg_formKept (q o v s) : FormKept s (queueReg q o v s) := by simp [queueReg]
@[simp] theorem execQueueEnable_formKept (q value s) : FormKept s (execQueueEnable q value s) := by simp [execQueueEnable]
@[simp] theorem execSqDoorbell_formKept (q value s) : FormKept s (execSqDoorbell q value s) := by simp [execSqDoorbell]
@[simp] theorem execCqHeadWrite_formKept (q value s) : FormKept s (execCqHeadWrite q value s) := by simp [execCqHeadWrite]
@[simp] theorem copyWrite_form {hint a bs} (hs : KeepsForm μ s.tiers) :
    KeepsForm μ (copyWrite hint a bs s).2.tiers := by simp [copyWrite, hs]
@[simp] theorem command_formKept {f} (h : ∀ c t, KeepsForm (State.tiers t) (f c t).tiers) (q op s) :
    FormKept s (command q op f s) := by
  unfold command; dsimp only; (repeat' split) <;> simp [h]

@[simp] theorem execCopyIn_formKept (q s) : FormKept s (execCopyIn q s) := by
  refine formKept_whole (fun t => ?_) s
  split
  · simp
  · split <;> simp
@[simp] theorem copyRead_form {hint a host n} (hs : KeepsForm μ s.tiers) :
    KeepsForm μ (copyRead hint a host n s).2.2.tiers := by simp [copyRead, hs]
@[simp] theorem execCopyOut_formKept (q s) : FormKept s (execCopyOut q s) := by
  refine formKept_whole (fun t => command_formKept (fun c t => ?_) _ _ _) s
  dsimp only
  split <;> simp
@[simp] theorem execWriteReg_formKept (q s) : FormKept s (execWriteReg q s) := by simp [execWriteReg]
@[simp] theorem execHostMemoryRequest_formKept (write off len data ep s) :
    FormKept s (execHostMemoryRequest write off len data ep s) := by
  simp [execHostMemoryRequest]
@[simp] theorem mgmtCommand_formKept {f} (h : ∀ t, KeepsForm (State.tiers t) (f t).2.2.tiers) (pec rd s) :
    FormKept s (mgmtCommand pec rd f s) := by
  unfold mgmtCommand; dsimp only; (repeat' split) <;> simp [h]

/-! ## Machine/Mgmt.lean -/

@[simp] theorem execRegWrite_formKept (off width value pec rd s) : FormKept s (execRegWrite off width value pec rd s) := by
  simp [execRegWrite]
@[simp] theorem execFlashCmd_formKept (ctl addr len fuse pec rd s) : FormKept s (execFlashCmd ctl addr len fuse pec rd s) := by
  have k {t a b c} : KeepsForm (State.tiers t) (wordWrite 2 0x10010 a (wordWrite 2 0x10008 b (wordWrite 2 0x10004 c t))).tiers :=
    wordWrite_form (wordWrite_form (wordWrite_form (keepsForm_refl _)))
  exact mgmtCommand_formKept (fun t => by simp [k]) pec rd s
@[simp] theorem execReset_formKept (key pec rd late cacheLate s) : FormKept s (execReset key pec rd late cacheLate s) := by
  simp [execReset]
@[simp] theorem execAlert_formKept (mask pec rd s) : FormKept s (execAlert mask pec rd s) := by unfold execAlert; split <;> simp

/-! ## Machine/TickEdge.lean -/

@[simp] theorem lateItem_form {i} (hs : KeepsForm μ s.tiers) : KeepsForm μ (lateItem i s).tiers := by simp [lateItem, hs]
@[simp] theorem notIssued_form {i} (hs : KeepsForm μ s.tiers) : KeepsForm μ (notIssued i s).tiers := by simp [notIssued, hs]
@[simp] theorem lateRule_form {forced} (hs : KeepsForm μ s.tiers) : KeepsForm μ (lateRule forced s).tiers :=
  each_form (fun i t => by (repeat' split) <;> simp) hs
@[simp] theorem scheduleTick_form (hs : KeepsForm μ s.tiers) : KeepsForm μ (scheduleTick s).tiers := by simp [scheduleTick, hs]
@[simp] theorem planEdge_form {n} (hs : KeepsForm μ s.tiers) : KeepsForm μ (planEdge n s).tiers := by simp [planEdge, hs]
@[simp] theorem execTickEdge_formKept (tel s) : FormKept s (execTickEdge tel s) := by
  unfold execTickEdge
  extract_lets edge t u v w n x y
  have hu : KeepsForm s.tiers u.tiers := by simp [u, t]
  have hv : KeepsForm s.tiers v.tiers := by simp only [v]; split <;> simp [hu]
  have hx : KeepsForm s.tiers x.tiers := by simp [x, w, hv]
  have hy : KeepsForm s.tiers y.tiers := by simp only [y]; split <;> simp [hx]
  split <;> simp [hy]

end

/-! ## Commands and steps -/

/-- Every command keeps the form, those that keep the tiers among them. -/
theorem exec_formKept (c : Instr) (s : State) : FormKept s (exec c s) := by
  cases c <;> simp [TiersKept.formKept]

/-- A step keeps the form: a cycle of the cores keeps the tiers, and a command the form. -/
theorem step_formKept (s : State) : FormKept s (step s) := by
  cases h : s.pending with
  | nil => simp [step, h]
  | cons c rest =>
    obtain ⟨u, hu, kept⟩ := exec_formKept c { s with pending := rest }
    exact ⟨u, by simpa [step, h] using hu, ⟨fun wf => kept.wf wf⟩⟩

/-- Settles O6: every function of the model that writes memory stores a byte, drops the bytes of a frame or drops them all, and
each of the three keeps the cells in canonical form; the rest of a command's meaning leaves the tiers as they are. -/
theorem memoryStaysCanonical : Obligations.MemoryStaysCanonical := by
  intro s t wf h
  obtain ⟨u, hu, kept⟩ := step_formKept s
  obtain rfl : settle u = t := by rw [hu] at h; injection h
  have wf' := kept.wf wf
  rw [← settle_tiers] at wf'
  exact wf'

end Sys2Proof.Machine
end
